-- ==== Sys2Proof/Word.lean ====
section
/-! DEFINITION. The byte and word types and their plainest arithmetic. -/

namespace Sys2Proof

/-- A byte of memory (R8). -/
abbrev Byte := BitVec 8

/-- A 32-bit register element or instruction word (R205, R253). -/
abbrev Word := BitVec 32

/-- Bits [lo + len − 1 : lo] of a natural number. -/
def fld (w lo len : Nat) : Nat := w / 2 ^ lo % 2 ^ len

/-- Bit n of a natural number. -/
def bit (w n : Nat) : Bool := w / 2 ^ n % 2 == 1

/-- The low n bits of x read as a two's complement number (`sext` of R10). -/
def sextN (n x : Nat) : Int :=
  if x % 2 ^ n < 2 ^ (n - 1) then (x % 2 ^ n : Nat) else ((x % 2 ^ n : Nat) : Int) - (2 ^ n : Nat)

/-- An exact integer modulo 2^n. -/
def wrapN (n : Nat) (x : Int) : Nat := (x % (2 ^ n : Nat)).toNat

/-- x lies in the signed range of n bits. -/
def fitsSigned (n : Nat) (x : Int) : Bool :=
  decide (-(2 ^ (n - 1) : Nat) ≤ x ∧ x < (2 ^ (n - 1) : Nat))

end Sys2Proof
end

