-- ==== Sys2Proof/Machine/Num.lean ====
section
/-! DEFINITION. Number formats and arithmetic (R229 to R252): values are unpacked to exact numbers, computed exactly and
rounded once. -/

namespace Sys2Proof.Machine

/-! ### Formats -/

/-- A floating-point format (R229): fraction bits, bias, largest exponent field of a finite value, the fraction of the
largest finite value, canonical NaN, width; `ieee` is false for E4M3, whose all-ones exponent is not special. -/
structure Fmt where
  fbits : Nat
  bias : Nat
  emaxField : Nat
  maxFrac : Nat
  nan : Nat
  width : Nat
  ieee : Bool
  deriving DecidableEq, Repr

def f64 : Fmt := ⟨52, 1023, 2046, 0xFFFFFFFFFFFFF, 0x7FF8000000000000, 64, true⟩
def f32 : Fmt := ⟨23, 127, 254, 0x7FFFFF, 0x7FC00000, 32, true⟩
def f16 : Fmt := ⟨10, 15, 30, 0x3FF, 0x7E00, 16, true⟩
def bf16 : Fmt := ⟨7, 127, 254, 0x7F, 0x7FC0, 16, true⟩
def e5m2 : Fmt := ⟨2, 15, 30, 3, 0x7E, 8, true⟩
def e4m3 : Fmt := ⟨3, 7, 15, 6, 0x7F, 8, false⟩

/-- The value of a floating-point pattern: a NaN, an infinity, or (−1)^neg × m × 2^e. -/
inductive FV where
  | nan (signalling : Bool)
  | inf (neg : Bool)
  | fin (neg : Bool) (m : Nat) (e : Int)
  deriving DecidableEq, Repr

/-- The value of a pattern (R229, R230). -/
def Fmt.unpack (f : Fmt) (w : Nat) : FV :=
  let neg := bit w (f.width - 1)
  let frac := w % 2 ^ f.fbits
  let ef := w / 2 ^ f.fbits % 2 ^ (f.width - 1 - f.fbits)
  if f.ieee && ef == f.emaxField + 1 then
    if frac == 0 then .inf neg else .nan (!bit frac (f.fbits - 1))
  else if !f.ieee && ef == f.emaxField && frac == f.maxFrac + 1 then .nan false
  else if ef == 0 then .fin neg frac (1 - (f.bias : Int) - f.fbits)
  else .fin neg (2 ^ f.fbits + frac) ((ef : Int) - f.bias - f.fbits)

def Fmt.signBit (f : Fmt) (neg : Bool) : Nat := if neg then 2 ^ (f.width - 1) else 0
/-- Largest finite magnitude. -/
def Fmt.maxFin (f : Fmt) (neg : Bool) : Nat := f.signBit neg + f.emaxField * 2 ^ f.fbits + f.maxFrac
/-- Infinity; used for formats that have one. -/
def Fmt.infBits (f : Fmt) (neg : Bool) : Nat := f.signBit neg + (f.emaxField + 1) * 2 ^ f.fbits
def Fmt.zero (f : Fmt) (neg : Bool) : Nat := f.signBit neg

/-! ### Rounding -/

/-- Rounding modes (R234). -/
inductive Rm where
  | rne | rtz | rup | rdn | rna
  deriving DecidableEq, Repr

/-- FPCTL.RM encoding (R234); the reserved values never stand in RM (R237). -/
def rmOfFpctl (n : Nat) : Rm :=
  match n with
  | 1 => .rtz | 2 => .rup | 3 => .rdn | 4 => .rna | _ => .rne

/-- The mode of an instruction: its MODX field, or FPCTL.RM for field 0 (R234). -/
def rmOf (rnd fpctl : Nat) : Rm :=
  if rnd = 0 then rmOfFpctl (fpctl % 8) else rmOfFpctl (rnd - 1)

/-- FPSTAT flags (R238). -/
def fNV : Nat := 16
def fDZ : Nat := 8
def fOF : Nat := 4
def fUF : Nat := 2
def fNX : Nat := 1

/-- A pattern or value with the flags it raised. -/
abbrev Flagged := Nat × Nat

/-- An exact magnitude to round: in [m·2^e, (m+1)·2^e), equal to m·2^e exactly when `sticky` is false. -/
structure Exact where
  neg : Bool
  m : Nat
  e : Int
  sticky : Bool
  deriving DecidableEq, Repr

/-- x shifted right by k with the half bit and whether anything below it remains. -/
def shiftOut (m : Nat) (k : Nat) (sticky : Bool) : Nat × Bool × Bool :=
  if k = 0 then (m, false, sticky)
  else if Nat.log2 m + 2 < k then (0, false, sticky || m != 0)
  else (m / 2 ^ k, bit m (k - 1), sticky || m % 2 ^ (k - 1) != 0)

/-- Whether a magnitude rounds up from its truncation (R234). -/
def roundsUp (mode : Rm) (neg odd half rest : Bool) : Bool :=
  match mode with
  | .rne => half && (rest || odd)
  | .rna => half
  | .rtz => false
  | .rup => !neg && (half || rest)
  | .rdn => neg && (half || rest)

/-- The magnitude rounded to a multiple of 2^q: the multiple, and whether it is inexact. -/
def roundAt (mode : Rm) (x : Exact) (q : Int) : Nat × Bool :=
  if q ≤ x.e then (x.m * 2 ^ (x.e - q).toNat, x.sticky)
  else
    let (t, half, rest) := shiftOut x.m (q - x.e).toNat x.sticky
    (if roundsUp mode x.neg (t % 2 == 1) half rest then t + 1 else t, half || rest)

/-- Whether a mode sends an overflow to infinity (R235). -/
def overflowsToInf (mode : Rm) (neg : Bool) : Bool :=
  match mode with
  | .rne | .rna => true
  | .rtz => false
  | .rup => !neg
  | .rdn => neg

/-- What an overflowing finite result becomes: R235, saturation R236, and for the 8-bit formats R243. -/
def overflowBits (f : Fmt) (mode : Rm) (neg sat f8ov : Bool) : Nat :=
  if sat || !overflowsToInf mode neg then f.maxFin neg
  else if f.width = 8 then
    if f8ov then (if f.ieee then f.infBits neg else f.signBit neg + f.nan) else f.maxFin neg
  else f.infBits neg

/-- round(x, f, mode) of a non-zero exact magnitude (R235), with OF, UF and NX. -/
def roundTo (f : Fmt) (mode : Rm) (sat f8ov : Bool) (x : Exact) : Flagged :=
  let top : Int := x.e + Nat.log2 x.m
  let emin : Int := 1 - (f.bias : Int) - f.fbits
  let qu : Int := top - f.fbits
  let q : Int := if qu < emin then emin else qu
  let (t, inexact) := roundAt mode x q
  let code : Int := (q - emin) * (2 ^ f.fbits : Nat) + t
  if (f.emaxField * 2 ^ f.fbits + f.maxFrac : Nat) < code then
    (overflowBits f mode x.neg sat f8ov, fOF + fNX)
  else
    let (tu, _) := roundAt mode x qu
    let tiny : Bool := decide (qu < emin - 1) || (decide (qu = emin - 1) && decide (tu < 2 ^ (f.fbits + 1)))
    (f.signBit x.neg + code.toNat, (if tiny && inexact then fUF else 0) + (if inexact then fNX else 0))

/-! ### Arithmetic on exact values -/

/-- A NaN operand's effect: the canonical NaN, with NV for a signalling one (R230). -/
def nanOut (f : Fmt) (xs : List FV) : Option Flagged :=
  if xs.any (fun x => match x with | .nan _ => true | _ => false) then
    some (f.nan, if xs.any (fun x => x == .nan true) then fNV else 0)
  else none

/-- A signed dyadic m·2^e as an integer multiple of 2^k, k ≤ e. -/
def scaled (neg : Bool) (m : Nat) (e k : Int) : Int :=
  let v : Int := (m * 2 ^ (e - k).toNat : Nat)
  if neg then -v else v

/-- The exact sum of two signed dyadics, rounded once; zeros by R235. -/
def sumRound (f : Fmt) (mode : Rm) (sat : Bool) (na : Bool) (ma : Nat) (ea : Int) (nb : Bool) (mb : Nat) (eb : Int) :
    Flagged :=
  if ma = 0 ∧ mb = 0 then (f.zero (if na == nb then na else mode == .rdn), 0)
  else
    let k : Int := if ma = 0 then eb else if mb = 0 then ea else min ea eb
    let t : Int := (if ma = 0 then 0 else scaled na ma ea k) + (if mb = 0 then 0 else scaled nb mb eb k)
    if t = 0 then (f.zero (mode == .rdn), 0)
    else roundTo f mode sat false ⟨decide (t < 0), t.natAbs, k, false⟩

/-- ±(a × b) ± c with a single rounding (R240, R299): `np` and `nc` negate the product and the addend. -/
def fma (f : Fmt) (mode : Rm) (sat np nc : Bool) (a b c : Nat) : Flagged :=
  let x := f.unpack a; let y := f.unpack b; let z := f.unpack c
  let sn (s : FV) : Bool := match s with | .inf n => n | .fin n _ _ => n | .nan _ => false
  let pneg := (sn x != sn y) != np
  let zneg := sn z != nc
  let zeroInf := match x, y with
    | .inf _, .fin _ 0 _ => true
    | .fin _ 0 _, .inf _ => true
    | _, _ => false
  match nanOut f [x, y, z] with
  | some (r, fl) => (r, if zeroInf || fl != 0 then fNV else 0)
  | none =>
    if zeroInf then (f.nan, fNV)
    else
      match x, y, z with
      | .fin _ ma ea, .fin _ mb eb, .fin _ mc ec => sumRound f mode sat pneg (ma * mb) (ea + eb) zneg mc ec
      | .fin _ _ _, .fin _ _ _, _ => (f.infBits zneg, 0)
      | _, _, .inf _ => if pneg == zneg then (f.infBits pneg, 0) else (f.nan, fNV)
      | _, _, _ => (f.infBits pneg, 0)

/-- a + b, or a − b when `sub` (R240). -/
def fadd (f : Fmt) (mode : Rm) (sat sub : Bool) (a b : Nat) : Flagged :=
  match nanOut f [f.unpack a, f.unpack b] with
  | some r => r
  | none =>
    match f.unpack a, f.unpack b with
    | .fin na ma ea, .fin nb mb eb => sumRound f mode sat na ma ea (nb != sub) mb eb
    | .inf na, .inf nb => if na == (nb != sub) then (f.infBits na, 0) else (f.nan, fNV)
    | .inf na, _ => (f.infBits na, 0)
    | _, .inf nb => (f.infBits (nb != sub), 0)
    | _, _ => (f.nan, 0)

/-- a × b (R240). -/
def fmul (f : Fmt) (mode : Rm) (sat : Bool) (a b : Nat) : Flagged :=
  match nanOut f [f.unpack a, f.unpack b] with
  | some r => r
  | none =>
    match f.unpack a, f.unpack b with
    | .fin na ma ea, .fin nb mb eb =>
      if ma * mb = 0 then (f.zero (na != nb), 0)
      else roundTo f mode sat false ⟨na != nb, ma * mb, ea + eb, false⟩
    | .inf na, .fin nb mb _ => if mb = 0 then (f.nan, fNV) else (f.infBits (na != nb), 0)
    | .fin na ma _, .inf nb => if ma = 0 then (f.nan, fNV) else (f.infBits (na != nb), 0)
    | .inf na, .inf nb => (f.infBits (na != nb), 0)
    | _, _ => (f.nan, 0)

/-- The exact quotient of two non-zero dyadics to at least `bits` bits. -/
def quotient (bits : Nat) (neg : Bool) (ma : Nat) (ea : Int) (mb : Nat) (eb : Int) : Exact :=
  let k := bits + 3 + Nat.log2 mb
  ⟨neg, ma * 2 ^ k / mb, ea - eb - k, ma * 2 ^ k % mb != 0⟩

/-- a / b (R240, R238). -/
def fdiv (f : Fmt) (mode : Rm) (sat : Bool) (a b : Nat) : Flagged :=
  match nanOut f [f.unpack a, f.unpack b] with
  | some r => r
  | none =>
    match f.unpack a, f.unpack b with
    | .fin na ma ea, .fin nb mb eb =>
      if mb = 0 then (if ma = 0 then (f.nan, fNV) else (f.infBits (na != nb), fDZ))
      else if ma = 0 then (f.zero (na != nb), 0)
      else roundTo f mode sat false (quotient (f.fbits + 1) (na != nb) ma ea mb eb)
    | .inf na, .fin nb _ _ => (f.infBits (na != nb), 0)
    | .fin na _ _, .inf nb => (f.zero (na != nb), 0)
    | .inf _, .inf _ => (f.nan, fNV)
    | _, _ => (f.nan, 0)

/-- floor(√m), deciding one bit at a time from bit `fuel` − 1 down. -/
def isqrtAux : Nat → Nat → Nat → Nat
  | 0, _, r => r
  | n + 1, m, r => isqrtAux n m (if (r + 2 ^ n) * (r + 2 ^ n) ≤ m then r + 2 ^ n else r)

/-- floor(√m). -/
def isqrt (m : Nat) : Nat := isqrtAux (Nat.log2 m / 2 + 1) m 0

/-- √(m·2^e), m non-zero, to at least `bits` bits. -/
def sqrtExact (bits m : Nat) (e : Int) : Exact :=
  let k0 := 2 * bits + 6
  let k := if (e - k0) % 2 = 0 then k0 else k0 + 1
  let n := m * 2 ^ k
  let r := isqrt n
  ⟨false, r, (e - k) / 2, r * r != n⟩

/-- √a (R240). -/
def fsqrt (f : Fmt) (mode : Rm) (sat : Bool) (a : Nat) : Flagged :=
  match f.unpack a with
  | .nan s => (f.nan, if s then fNV else 0)
  | .inf n => if n then (f.nan, fNV) else (f.infBits false, 0)
  | .fin n m e =>
    if m = 0 then (f.zero n, 0)
    else if n then (f.nan, fNV)
    else roundTo f mode sat false (sqrtExact (f.fbits + 1) m e)

/-- Order of two non-NaN values: a < b, with −0 below +0 when `zeros` (R240, R305). -/
def fvLt (zeros : Bool) (a b : FV) : Bool :=
  match a, b with
  | .inf na, .inf nb => na && !nb
  | .inf na, .fin _ _ _ => na
  | .fin _ _ _, .inf nb => !nb
  | .fin na ma ea, .fin nb mb eb =>
    if ma = 0 ∧ mb = 0 then zeros && na && !nb
    else
      let k : Int := if ma = 0 then eb else if mb = 0 then ea else min ea eb
      decide ((if ma = 0 then 0 else scaled na ma ea k) < (if mb = 0 then 0 else scaled nb mb eb k))
  | _, _ => false

/-- R240 minimum (`mx` false) or maximum: one operand bit for bit. -/
def fminmax (f : Fmt) (mx : Bool) (a b : Nat) : Flagged :=
  let x := f.unpack a; let y := f.unpack b
  let fl := if x == .nan true || y == .nan true then fNV else 0
  match x, y with
  | .nan _, .nan _ => (f.nan, fl)
  | .nan _, _ => (b, fl)
  | _, .nan _ => (a, fl)
  | _, _ => (if fvLt true y x then (if mx then a else b) else (if mx then (if fvLt true x y then b else a) else a), fl)

/-- The comparison conditions of R305. -/
def fcmp (f : Fmt) (cc a b : Nat) : Bool × Nat :=
  let x := f.unpack a; let y := f.unpack b
  let un := (match x with | .nan _ => true | _ => false) || (match y with | .nan _ => true | _ => false)
  let fl := if (x == .nan true || y == .nan true) && decide (2 ≤ cc) then fNV else 0
  let lt := !un && fvLt false x y
  let gt := !un && fvLt false y x
  let eq := !un && !lt && !gt
  ((match cc with
    | 0 => eq
    | 1 => !eq
    | 2 => lt
    | 3 => lt || eq
    | 4 => gt
    | 5 => gt || eq
    | 6 => un
    | _ => !un), fl)

/-- VFCLASS (R301). -/
def fclass (f : Fmt) (a : Nat) : Nat :=
  match f.unpack a with
  | .nan s => if s then 256 else 512
  | .inf n => if n then 1 else 128
  | .fin n m _ =>
    if m = 0 then (if n then 8 else 16)
    else if m < 2 ^ f.fbits then (if n then 4 else 32)
    else (if n then 2 else 64)

/-- VFLDX (R302): a × 2^k. -/
def fldx (f : Fmt) (mode : Rm) (sat : Bool) (a : Nat) (k : Int) : Flagged :=
  match f.unpack a with
  | .nan s => (f.nan, if s then fNV else 0)
  | .inf _ => (a, 0)
  | .fin n m e => if m = 0 then (a, 0) else roundTo f mode sat false ⟨n, m, e + k, false⟩

/-! ### Conversions (R241 to R243) -/

/-- A register or narrow format: a float format, or an integer of n bits, signed or not. -/
inductive NumTy where
  | flt (f : Fmt)
  | int (signed : Bool) (n : Nat)
  deriving DecidableEq, Repr

def NumTy.width : NumTy → Nat
  | .flt f => f.width
  | .int _ n => n

def NumTy.isInt : NumTy → Bool
  | .int _ _ => true
  | _ => false

/-- Least and greatest value of an integer format (R231). -/
def intLo (signed : Bool) (n : Nat) : Int := if signed then -(2 ^ (n - 1) : Nat) else 0
def intHi (signed : Bool) (n : Nat) : Int := if signed then (2 ^ (n - 1) : Nat) - 1 else (2 ^ n : Nat) - 1

/-- sat(x, fmt) for an integer format (R10). -/
def satInt (signed : Bool) (n : Nat) (x : Int) : Int :=
  if x < intLo signed n then intLo signed n else if intHi signed n < x then intHi signed n else x

/-- The value of an integer pattern. -/
def intVal (signed : Bool) (n w : Nat) : Int := if signed then sextN n w else (w % 2 ^ n : Nat)

/-- round to an integer under the mode, without clamping (R235), and whether it is inexact. -/
def roundInt (mode : Rm) (x : Exact) : Int × Bool :=
  let (t, inexact) := roundAt mode x 0
  (if x.neg then -(t : Int) else t, inexact)

/-- cvt(x, dst, mode): one rounding from the exact source value (R241 to R243). -/
def cvt (src dst : NumTy) (mode : Rm) (sat f8ov : Bool) (w : Nat) : Flagged :=
  match src, dst with
  | .flt f, .flt g =>
    (match f.unpack w with
    | .nan s => (g.nan, if s then fNV else 0)
    | .inf n =>
      if g.width = 8 then
        (if f8ov && !sat then (if g.ieee then (g.infBits n, 0) else (g.signBit n + g.nan, fNV)) else (g.maxFin n, fNV))
      else (g.infBits n, 0)
    | .fin n m e => if m = 0 then (g.zero n, 0) else roundTo g mode sat f8ov ⟨n, m, e, false⟩)
  | .flt f, .int sg k =>
    (match f.unpack w with
    | .nan _ => (0, fNV)
    | .inf n => (wrapN k (if n then intLo sg k else intHi sg k), fNV)
    | .fin n m e =>
      if m = 0 then (0, 0)
      else if (80 : Int) < e + Nat.log2 m then (wrapN k (if n then intLo sg k else intHi sg k), fNV)
      else
        let (v, inexact) := roundInt mode ⟨n, m, e, false⟩
        if v < intLo sg k ∨ intHi sg k < v then (wrapN k (satInt sg k v), fNV)
        else (wrapN k v, if inexact then fNX else 0))
  | .int sg k, .flt g =>
    let v := intVal sg k w
    if v = 0 then (0, 0) else roundTo g mode sat f8ov ⟨decide (v < 0), v.natAbs, 0, false⟩
  | .int sg k, .int tg l =>
    let v := intVal sg k w
    (wrapN l (if sat then satInt tg l v else v), 0)

/-! ### The exponential table (R251) -/

/-- base_i of R251: round(2^(i/64), F32, RNE). -/
def expBase : List Nat :=
  [1065353216, 1065444562, 1065536903, 1065630249, 1065724611, 1065820002, 1065916431, 1066013909, 1066112450, 1066212063, 1066312762, 1066414556, 1066517459, 1066621483, 1066726640, 1066832941]
  ++ [1066940400, 1067049030, 1067158842, 1067269850, 1067382066, 1067495505, 1067610179, 1067726102, 1067843287, 1067961748, 1068081499, 1068202554, 1068324927, 1068448633, 1068573686, 1068700100]
  ++ [1068827891, 1068957074, 1069087663, 1069219675, 1069353124, 1069488026, 1069624397, 1069762253, 1069901610, 1070042485, 1070184894, 1070328853, 1070474380, 1070621492, 1070770206, 1070920539]
  ++ [1071072509, 1071226134, 1071381432, 1071538421, 1071697119, 1071857545, 1072019719, 1072183658, 1072349383, 1072516912, 1072686266, 1072857463, 1073030525, 1073205471, 1073382323, 1073561100]

/-- slope_i of R251: round(64 × (2^((i+1)/64) − 2^(i/64)), F32, RNE). -/
def expSlope : List Nat :=
  [1060268282, 1060395602, 1060524310, 1060654418, 1060785943, 1060918901, 1061053306, 1061189175, 1061326524, 1061465368, 1061605724, 1061747608, 1061891038, 1062036029, 1062182599, 1062330765]
  ++ [1062480545, 1062631955, 1062785015, 1062939741, 1063096152, 1063254266, 1063414101, 1063575678, 1063739014, 1063904128, 1064071040, 1064239770, 1064410338, 1064582762, 1064757064, 1064933265]
  ++ [1065111384, 1065291442, 1065413339, 1065505339, 1065598342, 1065692357, 1065787396, 1065883470, 1065980590, 1066078767, 1066178014, 1066278342, 1066379761, 1066482286, 1066585926, 1066690696]
  ++ [1066796606, 1066903669, 1067011899, 1067121306, 1067231906, 1067343709, 1067456730, 1067570982, 1067686478, 1067803231, 1067921256, 1068040566, 1068161175, 1068283098, 1068406348, 1068530941]

/-- round(a × b + c) of exact dyadics given as F32 patterns and a factor; every use is RNE. -/
def f32fma (a b c : Nat) : Nat := (fma f32 .rne false false false a b c).1
def f32mul (a b : Nat) : Nat := (fmul f32 .rne false a b).1
def f32add (a b : Nat) : Nat := (fadd f32 .rne false false a b).1
def f32div (a b : Nat) : Nat := (fdiv f32 .rne false a b).1
def f32max (a b : Nat) : Nat := (fminmax f32 true a b).1
def f32one : Nat := 0x3F800000
def f32ninf : Nat := 0xFF800000

/-- exp2t (R251). -/
def exp2t (x : Nat) : Nat :=
  match f32.unpack x with
  | .nan _ => f32.nan
  | .inf n => if n then 0 else f32.infBits false
  | .fin neg m e =>
    -- x as an integer multiple of 2^k, k ≤ 0
    let k : Int := min e 0
    let v : Int := scaled neg m e k
    let d : Int := (2 ^ (-k).toNat : Nat)
    let n : Int := v / d
    let fr : Int := v - n * d                 -- f = fr·2^k, 0 ≤ f < 1
    let i : Nat := (64 * fr / d).toNat
    let tr : Int := 64 * fr - i * d           -- 64·t = tr·2^k
    match f32.unpack (expSlope.getD i 0) with
    | .fin _ ms es =>
      (match f32.unpack (expBase.getD i 0) with
      | .fin _ mb eb =>
        (match f32.unpack (sumRound f32 .rne false false mb eb false (ms * tr.toNat) (es + k - 6)).1 with
        | .fin _ my ey => (roundTo f32 .rne false false ⟨false, my, ey + n, false⟩).1
        | _ => f32.nan)
      | _ => f32.nan)
    | _ => f32.nan

/-- exp2s(a, s, b) = exp2t(round(a × s − b)) (R251). -/
def exp2s (a s b : Nat) : Nat := exp2t (fma f32 .rne false false true a s b).1

/-! ### Special functions (R308): correctly rounded values from fixed-point series of 384 fraction bits -/

/-- Fraction bits of the series. -/
def fxBits : Nat := 384
def fxOne : Nat := 2 ^ 384

/-- Σ z^(2j+1)/(2j+1): terms from the current power, `alt` for alternating signs. -/
def oddSeries (alt : Bool) (z2 : Nat) : Nat → Nat → Nat → Int → Int
  | 0, _, _, acc => acc
  | n + 1, j, pw, acc =>
    if pw = 0 then acc
    else oddSeries alt z2 n (j + 1) (pw * z2 / fxOne)
      (if alt && j % 2 == 1 then acc - (pw / (2 * j + 1) : Nat) else acc + (pw / (2 * j + 1) : Nat))

/-- atanh(a/b) and atan(a/b) in fixed point. -/
def fxAtanh (a b : Nat) : Nat := let z := a * fxOne / b; (oddSeries false (z * z / fxOne) 200 0 z 0).toNat
def fxAtan (a b : Nat) : Nat := let z := a * fxOne / b; (oddSeries true (z * z / fxOne) 200 0 z 0).toNat

/-- ln 2 = 2 atanh(1/3), and π by Machin's formula. -/
def fxLn2 : Nat := 2 * fxAtanh 1 3
def fxPi : Nat := 16 * fxAtan 1 5 - 4 * fxAtan 1 239

/-- log2 of m·2^e for m not a power of two: the integer part and the fixed-point fraction. -/
def fxLog2 (m : Nat) (e : Int) : Int :=
  let l := Nat.log2 m
  let p := 2 ^ l
  (e + l) * fxOne + (2 * fxAtanh (m - p) (m + p) * fxOne / fxLn2 : Nat)

/-- Taylor terms θ^k/k! from k, step 2, alternating. -/
def trigSeries (t2 : Nat) : Nat → Nat → Nat → Bool → Int → Int
  | 0, _, _, _, acc => acc
  | n + 1, k, term, neg, acc =>
    if term = 0 then acc
    else trigSeries t2 n (k + 2) (term * t2 / fxOne / ((k + 1) * (k + 2))) (!neg) (if neg then acc - term else acc + term)

/-- sin and cos of π·r for a fixed-point r in [0, 1/2]. -/
def fxSinPi (r : Nat) : Nat := let t := fxPi * r / fxOne; (trigSeries (t * t / fxOne) 120 1 t false 0).toNat
def fxCosPi (r : Nat) : Nat := let t := fxPi * r / fxOne; (trigSeries (t * t / fxOne) 120 0 fxOne false 0).toNat

/-- An irrational fixed-point value rounded to F32 with RNE. -/
def fxRound (neg : Bool) (v : Nat) : Flagged := roundTo f32 .rne false false ⟨neg, v, -384, true⟩

/-- VLG2 (R308). -/
def flg2 (a : Nat) : Flagged :=
  match f32.unpack a with
  | .nan s => (f32.nan, if s then fNV else 0)
  | .inf n => if n then (f32.nan, fNV) else (f32.infBits false, 0)
  | .fin n m e =>
    if m = 0 then (f32.infBits true, fDZ)
    else if n then (f32.nan, fNV)
    else if m = 2 ^ Nat.log2 m then
      let v : Int := e + Nat.log2 m
      if v = 0 then (0, 0) else roundTo f32 .rne false false ⟨decide (v < 0), v.natAbs, 0, false⟩
    else
      let v := fxLog2 m e
      fxRound (decide (v < 0)) v.natAbs

/-- VRCP (R308). -/
def frcp (f : Fmt) (a : Nat) : Flagged :=
  match f.unpack a with
  | .nan s => (f.nan, if s then fNV else 0)
  | .inf n => (f.zero n, 0)
  | .fin n m e =>
    if m = 0 then (f.infBits n, fDZ) else roundTo f .rne false false (quotient (f.fbits + 1) n 1 0 m e)

/-- VRSQ (R308): 1/√x from floor(√(2^2k / m)). -/
def frsq (f : Fmt) (a : Nat) : Flagged :=
  match f.unpack a with
  | .nan s => (f.nan, if s then fNV else 0)
  | .inf n => if n then (f.nan, fNV) else (f.zero false, 0)
  | .fin n m e =>
    if m = 0 then (f.infBits n, fDZ)
    else if n then (f.nan, fNV)
    else
      let m' := if e % 2 = 0 then m else 2 * m
      let e' : Int := if e % 2 = 0 then e else e - 1
      let k := f.fbits + 4 + Nat.log2 m'
      let q := 2 ^ (2 * k) / m'
      let r := isqrt q
      roundTo f .rne false false ⟨false, r, -(e' / 2) - k, r * r * m' != 2 ^ (2 * k)⟩

/-- sin(π x) (`cos` false) or cos(π x) of a finite non-zero x = ±m·2^e (R308). -/
def fsincos (cos : Bool) (a : Nat) : Flagged :=
  match f32.unpack a with
  | .nan s => (f32.nan, if s then fNV else 0)
  | .inf _ => (f32.nan, fNV)
  | .fin n m e =>
    if m = 0 then (if cos then (f32one, 0) else (f32.zero n, 0))
    else
      -- |x| mod 2 as a multiple of 2^(−149)
      let v := if 1 ≤ e then 0 else m * 2 ^ (e + 149).toNat % 2 ^ 150
      let half := v / 2 ^ 148                 -- quadrant 0 to 3
      let r := v % 2 ^ 148
      let fx := fun (t : Nat) => t * 2 ^ (384 - 149)
      let one : Nat → Flagged := fun neg => (f32.signBit (neg == 1) + f32one, 0)
      if cos then
        if r = 0 then
          (match half with | 0 => one 0 | 2 => one 1 | _ => (0, 0))
        else
          (match half with
          | 0 => fxRound false (fxCosPi (fx r))
          | 1 => fxRound true (fxSinPi (fx r))
          | 2 => fxRound true (fxCosPi (fx r))
          | _ => fxRound false (fxSinPi (fx r)))
      else
        if r = 0 then
          (match half with | 1 => one (if n then 1 else 0) | 3 => one (if n then 0 else 1) | _ => (f32.zero n, 0))
        else
          (match half with
          | 0 => fxRound n (fxSinPi (fx r))
          | 1 => fxRound n (fxCosPi (fx r))
          | 2 => fxRound (!n) (fxSinPi (fx r))
          | _ => fxRound (!n) (fxCosPi (fx r)))

/-! ### Tile accumulation (R247, R248) -/

/-- A signed dyadic term of an accumulation. -/
structure Dy where
  neg : Bool
  m : Nat
  e : Int
  deriving DecidableEq, Repr

/-- The exact product of two values; an infinity or NaN makes the term special (R248). -/
def FV.mul (a b : FV) : FV :=
  match a, b with
  | .fin na ma ea, .fin nb mb eb => .fin (na != nb) (ma * mb) (ea + eb)
  | .inf na, .fin nb mb _ => if mb = 0 then .nan false else .inf (na != nb)
  | .fin na ma _, .inf nb => if ma = 0 then .nan false else .inf (na != nb)
  | .inf na, .inf nb => .inf (na != nb)
  | _, _ => .nan false

/-- v truncated toward zero at a multiple of u = 2^q: its multiple of u, and whether bits were lost. -/
def truncAt (q : Int) (v : Dy) : Int × Bool :=
  if q ≤ v.e then (scaled v.neg v.m v.e q, false)
  else
    let k := (q - v.e).toNat
    let t := if Nat.log2 v.m < k then 0 else v.m / 2 ^ k
    let lost := if Nat.log2 v.m < k then v.m != 0 else v.m % 2 ^ k != 0
    (if v.neg then -(t : Int) else t, lost)

/-- tacc of R247 on finite terms: `c` an F32 pattern of a finite accumulator, `p` the k-block's finite products. -/
def taccFinite (c : Nat) (cv : Dy) (p : List Dy) : Flagged :=
  let nz := (p ++ [cv]).filter (fun v => v.m != 0)
  match nz with
  | [] => (c, 0)
  | v0 :: _ =>
    let emax : Int := nz.foldl (fun (a : Int) v => max a (v.e + Nat.log2 v.m)) (v0.e + Nat.log2 v0.m)
    let q : Int := emax - 64
    let acc := nz.foldl (fun (a : Int × Bool) v => let t := truncAt q v; (a.1 + t.1, a.2 || t.2)) (0, false)
    if acc.1 = 0 then (0, 0)
    else
      -- T + s × sign(T) × u / 2 in units of u / 2
      roundTo f32 .rne false false ⟨decide (acc.1 < 0), acc.1.natAbs * 2 + (if acc.2 then 1 else 0), q - 1, false⟩

/-- tacc with the special values of R248: the accumulator and its flags (NV for a NaN, OF for an overflow). -/
def tacc (c : Nat) (ps : List FV) : Flagged :=
  let cv := f32.unpack c
  let all := ps ++ [cv]
  let nan := all.any (fun v => match v with | .nan _ => true | _ => false)
  let pinf := all.any (fun v => v == .inf false)
  let ninf := all.any (fun v => v == .inf true)
  if nan || (pinf && ninf) then (f32.nan, fNV)
  else if pinf then (f32.infBits false, 0)
  else if ninf then (f32.infBits true, 0)
  else
    match cv with
    | .fin n m e =>
      let r := taccFinite c ⟨n, m, e⟩ (ps.filterMap (fun v => match v with | .fin a b d => some ⟨a, b, d⟩ | _ => none))
      (r.1, if r.2 / 4 % 2 = 1 then fOF else 0)
    | _ => (c, 0)

/-- An S32 k-block: sat(c + Σp, S32), and whether it clamped (R248). -/
def taccInt (c : Nat) (ps : List Int) : Nat × Bool :=
  let x := ps.foldl (· + ·) (sextN 32 c)
  (wrapN 32 (satInt true 32 x), x != satInt true 32 x)

/-! ### Trees and scans (R249, R250) -/

/-- One level of the tree: pairs at distance d of lanes 0, 2d, 4d, …. -/
def treeStep {α : Type} (op : α → α → α) : List (Option α) → List (Option α)
  | a :: b :: rest =>
    (match a, b with
    | some x, some y => some (op x y)
    | none, y => y
    | x, none => x) :: treeStep op rest
  | l => l

/-- tree of R249 over 32 optional values; absent operands pass the other through. -/
def tree {α : Type} (op : α → α → α) (xs : List (Option α)) : Option α :=
  ((treeStep op (treeStep op (treeStep op (treeStep op (treeStep op xs)))))[0]?).join

/-- One step of the scan at distance d: the lower lane is the left operand. -/
def scanStep {α : Type} (op : α → α → α) (d : Nat) (xs : List (Option α)) : List (Option α) :=
  (List.replicate d none ++ xs).zipWith (fun lo x =>
    match lo, x with
    | some a, some b => some (op a b)
    | some a, none => some a
    | none, y => y) xs

/-- scan of R250. -/
def scan {α : Type} (op : α → α → α) (xs : List (Option α)) : List (Option α) :=
  [1, 2, 4, 8, 16].foldl (fun acc d => scanStep op d acc) xs

/-! ### The GQ4 codebook (R244 to R246) -/

/-- n_c of R244. -/
def gq4 : List Int := [-128, -89, -67, -50, -36, -23, -11, 0, 10, 21, 33, 46, 61, 79, 102, 128]
def gq4At (c : Nat) : Int := gq4.getD (c % 16) 0

/-- VDEQ (R314): round(n_c × q × s × 2^−15), the IEEE product for a special s. -/
def gq4Deq (mode : Rm) (c q s : Nat) : Flagged :=
  if q = 0 then (0, 0)
  else
    let n := gq4At c * q
    match f32.unpack s with
    | .nan sig => (f32.nan, if sig then fNV else 0)
    | .inf ng => if n = 0 then (f32.nan, fNV) else (f32.infBits (ng != decide (n < 0)), 0)
    | .fin ng m e =>
      if n = 0 ∨ m = 0 then (f32.zero (ng != decide (n < 0)), 0)
      else roundTo f32 mode false false ⟨ng != decide (n < 0), m * n.natAbs, e - 15, false⟩

/-- The exact weight (c, q, S) of R244 as the tile engine sees it. -/
def gq4Weight (c q s : Nat) : FV :=
  if q = 0 then .fin false 0 0
  else
    let n := gq4At c * q
    match f32.unpack s with
    | .nan _ => .nan false
    | .inf ng => if n = 0 then .nan false else .inf (ng != decide (n < 0))
    | .fin ng m e => .fin (ng != decide (n < 0)) (m * n.natAbs) (e - 15)

/-- A non-negative dyadic as a fraction of two naturals. -/
def magFrac (m : Nat) (e : Int) : Nat × Nat := if 0 ≤ e then (m * 2 ^ e.toNat, 1) else (m, 2 ^ (-e).toNat)

/-- Magnitude of a finite pattern, in units of 2^k. -/
def magAt (f : Fmt) (k : Int) (w : Nat) : Nat :=
  match f.unpack w with
  | .fin _ m e => m * 2 ^ (e - k).toNat
  | _ => 0

/-- True for a NaN or an infinity. -/
def isSpecial (f : Fmt) (w : Nat) : Bool := match f.unpack w with | .fin _ _ _ => false | _ => true

/-- The code minimising |x − n_c·q·S·2^−15|, the lower on a tie; x and S·2^−15 in units of 2^k (R246). -/
def gq4Code (x : Int) (q : Nat) (s15 : Nat) : Nat :=
  ((List.range 16).foldl (fun (best : Nat × Nat) c =>
    let d := (x - gq4At c * q * s15).natAbs
    if d < best.2 then (c, d) else best) (0, (x - gq4At 0 * q * s15).natAbs)).1

/-- One quantised super-block (R246): S, the q of each block given, and their codes; and whether a special was met. -/
structure Quant where
  s : Nat
  q : List Nat
  codes : List (List Nat)
  special : Bool
  deriving DecidableEq, Repr

/-- R246 over the blocks of one column; blocks not listed hold zeros only. -/
def quantise (f : Fmt) (blocks : List (List Nat)) : Quant :=
  if blocks.any (fun b => b.any (isSpecial f)) then
    ⟨0x7FC00000, blocks.map (fun _ => 255), blocks.map (fun b => b.map (fun _ => 7)), true⟩
  else
    let k : Int := -149
    let amax := blocks.foldl (fun a b => b.foldl (fun a' w => max a' (magAt f k w)) a) 0
    if amax = 0 then ⟨0, blocks.map (fun _ => 0), blocks.map (fun b => b.map (fun _ => 7)), false⟩
    else
      -- S = min(round(A × 256 / 255, F32, RUP), largest finite)
      let s := min (roundTo f32 .rup true false (quotient 40 false (amax * 256) k 255 0)).1 (f32.maxFin false)
      let (ms, es) := match f32.unpack s with | .fin _ m e => (m, e) | _ => (0, 0)
      -- units of 2^(−164) hold S·2^−15 exactly
      let sv := ms * 2 ^ (es + 149).toNat
      let per := blocks.map (fun b =>
        let a := b.foldl (fun a' w => max a' (magAt f k w)) 0
        if a = 0 then (0, b.map (fun _ => 7))
        else
          let q := min 255 ((a * 256 + sv - 1) / sv)
          (q, b.map (fun w =>
            let x : Int := scaled (bit w (f.width - 1)) (magAt f k w) 0 0 * (2 ^ 15 : Nat)
            gq4Code x q sv)))
      ⟨s, per.map (·.1), per.map (·.2), false⟩

/-! ### Checksums -/

/-- One bit of the CRC-32C of R145, reflected. -/
def crc32Bit (c : Nat) : Nat := if c % 2 = 1 then (c / 2) ^^^ 0x82F63B78 else c / 2

/-- CRC-32C of a byte sequence (R145): polynomial 0x1EDC_6F41 reflected, initial value and final XOR all ones. -/
def crc32c (bs : List Nat) : Nat :=
  bs.foldl (fun c b => crc32Bit (crc32Bit (crc32Bit (crc32Bit (crc32Bit (crc32Bit (crc32Bit (crc32Bit (c ^^^ b)))))))))
    0xFFFFFFFF ^^^ 0xFFFFFFFF

/-- One bit of the CRC-64 of R113, not reflected. -/
def crc64Bit (c : Nat) : Nat :=
  if c / 2 ^ 63 = 1 then (c * 2 % 2 ^ 64) ^^^ 0x42F0E1EBA9EA3693 else c * 2

/-- CRC-64 of a byte sequence (R113, R185): ECMA-182, initial value 0, no final XOR. -/
def crc64 (bs : List Nat) : Nat :=
  bs.foldl (fun c b => crc64Bit (crc64Bit (crc64Bit (crc64Bit (crc64Bit (crc64Bit (crc64Bit (crc64Bit
    (c ^^^ (b * 2 ^ 56))))))))))  0

end Sys2Proof.Machine
end

