-- ==== Sys2Proof/Config.lean ====
section
/-! DEFINITION. What is fixed for one machine: the part and its installed memory, and the free values, which the spec
leaves open and nothing in Lean can evaluate. -/

namespace Sys2Proof.Config

/-- True for the NRG-TV80-A1, false for the B1 (R1, R4, R5).  Log entry 2: the model is an A1. -/
def isA1 : Bool := true

/-- Fabric ports present (R6). -/
def nport : Nat := if isA1 then 18 else 9
/-- Populated HBM4 bytes (R33). -/
def hbmSize : Nat := 0x59682F0000
/-- Base and populated bytes of the DDR-5 window (R33, R109).  Log entry 2: 16 RDIMMs of 64 GB. -/
def ddrBase : Nat := 0x100000000000
def ddrSize : Nat := if isA1 then 0xEE6B280000 else 0

/-- A free 32-bit value: an unstated result. -/
opaque freeWord : Nat → BitVec 32
/-- A free 64-bit value. -/
opaque freeDouble : Nat → BitVec 64
/-- A free byte: undefined memory contents. -/
opaque freeByte : Nat → Nat → BitVec 8
/-- Which of the lanes that passed their checks had been performed when a store or atomic faulted (R46). -/
opaque freeDone : Nat → BitVec 32
/-- Whether an open choice of the device falls one way or the other. -/
opaque freeBool : Nat → Bool
/-- What a line of memory reads as that a whole-device reset has left undefined (R472): the bytes stored, the key stored under,
the key read under, the line address. -/
opaque decipher : Nat → Nat → Nat → Nat → Nat
/-- The two keys that I/O die 0 draws for identifier 0 at a whole-device reset, by its number (R153). -/
opaque drawnKey : Nat → Nat × Nat
/-- SPDM answers of the attestation mailbox (R473): identity-dependent contents the spec does not give, by request
number and its argument. -/
opaque spdmAnswer : Nat → Nat → Nat
/-- Module power in watts and die clock in MHz chosen by the clock manager (R471). -/
opaque clockChoice : Nat → Nat
opaque powerReading : Nat → Nat

end Sys2Proof.Config
end

