-- ==== Sys2Proof/Machine/Store.lean ====
section
/-! DEFINITION. Containers of plain data: sorted maps of bit vectors whose unlisted keys read as zero, and tables of
records by key. -/

namespace Sys2Proof.Machine

/-- A map from keys to w-bit values in canonical form: keys strictly rising, no listed value zero.  An unlisted key
reads as zero (log entry 1 for memory). -/
abbrev SMap (w : Nat) := List (Nat × BitVec w)

/-- Byte memory: physical memory and the on-core stores. -/
abbrev Mem := List Host.Cell

/-- The value at a key. -/
def SMap.get {w : Nat} : SMap w → Nat → BitVec w
  | [], _ => 0
  | (k', v) :: rest, k => if k' = k then v else SMap.get rest k

/-- Places a value that is not zero at its key. -/
def SMap.insert {w : Nat} : SMap w → Nat → BitVec w → SMap w
  | [], k, v => [(k, v)]
  | (k', v') :: rest, k, v =>
    if k < k' then (k, v) :: (k', v') :: rest
    else if k = k' then (k, v) :: rest
    else (k', v') :: SMap.insert rest k v

/-- Writes a value at a key, keeping the canonical form: writing zero removes the entry. -/
def SMap.put {w : Nat} (m : SMap w) (k : Nat) (v : BitVec w) : SMap w :=
  if v = 0 then m.filter (fun kv => kv.1 != k) else SMap.insert m k v

/-- Writes a list of key and value pairs, in order. -/
def SMap.putAll {w : Nat} (m : SMap w) (kvs : List (Nat × BitVec w)) : SMap w :=
  kvs.foldl (fun a kv => SMap.put a kv.1 kv.2) m

/-- Every listed key is above `lo`, keys rise strictly, and no listed value is zero. -/
def SMap.wfFrom {w : Nat} : Option Nat → SMap w → Bool
  | _, [] => true
  | lo, (k, v) :: rest =>
    (match lo with | none => true | some l => decide (l < k)) && decide (v ≠ 0) && SMap.wfFrom (some k) rest

/-- The canonical form of a map. -/
def SMap.wf {w : Nat} (m : SMap w) : Bool := SMap.wfFrom none m

/-- The canonical form of memory. -/
def Memory.wf (m : Mem) : Bool := SMap.wf m

/-- The entries with keys in [lo, lo + n). -/
def SMap.slice {w : Nat} (m : SMap w) (lo n : Nat) : SMap w :=
  m.filter (fun kv => decide (lo ≤ kv.1 ∧ kv.1 < lo + n))

/-- n values from key lo upwards, read in one pass. -/
def SMap.readFrom {w : Nat} : Nat → Nat → SMap w → List (BitVec w)
  | 0, _, _ => []
  | n + 1, k, [] => 0 :: SMap.readFrom n (k + 1) []
  | n + 1, k, (k', v) :: rest =>
    if k' = k then v :: SMap.readFrom n (k + 1) rest
    else 0 :: SMap.readFrom n (k + 1) ((k', v) :: rest)

/-- n values from key lo upwards. -/
def SMap.range {w : Nat} (m : SMap w) (lo n : Nat) : List (BitVec w) := SMap.readFrom n lo (SMap.slice m lo n)

/-- Keyed values of a list placed from key lo upwards, zeros left out. -/
def SMap.listFrom {w : Nat} : Nat → List (BitVec w) → SMap w
  | _, [] => []
  | k, v :: rest => if v = 0 then SMap.listFrom (k + 1) rest else (k, v) :: SMap.listFrom (k + 1) rest

/-- Replaces the values from key lo upwards by a list, in one pass. -/
def SMap.write {w : Nat} (m : SMap w) (lo : Nat) (vs : List (BitVec w)) : SMap w :=
  m.filter (fun kv => decide (kv.1 < lo)) ++ SMap.listFrom lo vs ++ m.filter (fun kv => decide (lo + vs.length ≤ kv.1))

/-- The little-endian number of n bytes at an address (R8). -/
def Mem.load (m : Mem) (a n : Nat) : Nat := (SMap.range m a n).foldr (fun b acc => b.toNat + 256 * acc) 0

/-- The n bytes of a number, least significant first. -/
def bytesOf : Nat → Nat → List Byte
  | 0, _ => []
  | n + 1, v => BitVec.ofNat 8 v :: bytesOf n (v / 256)

/-- Stores the low n bytes of a number at an address, little-endian (R8). -/
def Mem.store (m : Mem) (a n v : Nat) : Mem := SMap.write m a (bytesOf n v)

/-- Stores the bytes of v whose bit is set in the mask. -/
def Mem.storeMasked (m : Mem) (a n v mask : Nat) : Mem :=
  (List.range n).foldl (fun acc i =>
    if bit mask i then SMap.put acc (a + i) (BitVec.ofNat 8 (v / 256 ^ i)) else acc) m

/-- A table of records by key, in insertion order. -/
abbrev Tab (α : Type) := List (Nat × α)

def Tab.get {α : Type} (t : Tab α) (k : Nat) : Option α := (t.find? (fun p => p.1 == k)).map (·.2)
def Tab.erase {α : Type} (t : Tab α) (k : Nat) : Tab α := t.filter (fun p => p.1 != k)
/-- Replaces the record at a key, or adds it at the end. -/
def Tab.set {α : Type} : Tab α → Nat → α → Tab α
  | [], k, v => [(k, v)]
  | (k', v') :: rest, k, v => if k' = k then (k, v) :: rest else (k', v') :: Tab.set rest k v
def Tab.has {α : Type} (t : Tab α) (k : Nat) : Bool := t.any (fun p => p.1 == k)

/-- Replaces element i of a list. -/
def setAt {α : Type} (l : List α) (i : Nat) (v : α) : List α := l.set i v

/-! ### 128-byte lines held as numbers -/

/-- Byte i of a line. -/
def lineByte (d i : Nat) : Nat := d / 256 ^ i % 256
/-- The number of n bytes at offset o of a line. -/
def lineGet (d o n : Nat) : Nat := d / 256 ^ o % 256 ^ n
/-- A mask of n bits from bit o. -/
def maskOf (o n : Nat) : Nat := (2 ^ n - 1) * 2 ^ o
/-- A line with the low n bytes of v at offset o. -/
def linePut (d o n v : Nat) : Nat :=
  d % 256 ^ o + (v % 256 ^ n) * 256 ^ o + d / 256 ^ (o + n) * 256 ^ (o + n)
/-- The bytes of `new` under the mask, the others of `old`. -/
def lineMerge (old new mask : Nat) : Nat :=
  (List.range 128).foldl (fun acc i => acc + (if bit mask i then lineByte new i else lineByte old i) * 256 ^ i) 0
def lineFull : Nat := 2 ^ 128 - 1
/-- Number of set bits below 128. -/
def popcount (m : Nat) : Nat := (List.range 128).foldl (fun a i => if bit m i then a + 1 else a) 0

end Sys2Proof.Machine
end

