-- ==== Sys2Proof/Syntax.lean ====
section
/-! DEFINITION. The instructions of the Etgar instruction set and the events of the device: one constructor for each
row of the opcode table.  Encoded instructions carry the fields of their formats (R257) with their carry words
folded in (R260, R264); an event of the device is a constructor without fields, and what its message or stimulus
names is the payload (`Msg`) that the step takes from the state. -/

namespace Sys2Proof

/-- The fields of a MODX carry word (R263).  A bundle without MODX has every field zero. -/
structure Modx where
  mreg  : Nat
  men   : Bool
  mz    : Bool
  rnd   : Nat
  sat   : Bool
  op4   : Nat
  op4v  : Bool
  ord   : Nat
  scope : Nat
  deriving DecidableEq, Repr

/-- No modifier (R264). -/
def Modx.none : Modx := ⟨0, false, false, 0, false, 0, false, 0, 0⟩

/-- VR and SR forms with a type (R275, R298, R303, R307, R315): modifiers, type, d, a, b. -/
structure RegOp where
  m : Modx
  t : Nat
  d : Nat
  a : Nat
  b : Nat
  deriving DecidableEq, Repr

/-- Compare and scaled-address forms (R279, R281, R288, R303, R306): `cc` is the condition or the scale's log. -/
structure CcOp where
  m : Modx
  t : Nat
  d : Nat
  a : Nat
  b : Nat
  cc : Nat
  deriving DecidableEq, Repr

/-- VI and SI forms (R282, R290) with the joined immediate of R260. -/
structure ImmOp where
  m : Modx
  d : Nat
  a : Nat
  imm : Int
  deriving DecidableEq, Repr

/-- SLI (R283); `w64` when two IMX words stand before it. -/
structure SliOp where
  d : Nat
  w64 : Bool
  imm : Int
  deriving DecidableEq, Repr

/-- Conversions (R310): `x` is dst or the narrow code, `y` is src, H or e. -/
structure CvtOp where
  m : Modx
  d : Nat
  a : Nat
  b : Nat
  x : Nat
  y : Nat
  deriving DecidableEq, Repr

/-- Forms without a type field (R291, R307, R317). -/
structure MskOp where
  m : Modx
  d : Nat
  a : Nat
  b : Nat
  deriving DecidableEq, Repr

/-- M-format memory forms (R320). -/
structure MemOp where
  m : Modx
  d : Nat
  a : Nat
  b : Nat
  sp : Nat
  w : Nat
  mode : Nat
  deriving DecidableEq, Repr

/-- A-format atomics (R327). -/
structure AtomOp where
  m : Modx
  d : Nat
  a : Nat
  b : Nat
  sp : Nat
  w64 : Bool
  deriving DecidableEq, Repr

/-- FENCE (R329) with the ORD and SCOPE of its MODX. -/
structure FenceOp where
  ord : Nat
  scope : Nat
  spc : Nat
  deriving DecidableEq, Repr

/-- WAITC thresholds (R332); 15 is no wait. -/
structure WaitcOp where
  ld : Nat
  st : Nat
  cp : Nat
  tl : Nat
  att : Nat
  ss : Nat
  deriving DecidableEq, Repr

/-- BRV (R342): displacements in words from the base word. -/
structure BrvOp where
  m : Nat
  neg : Bool
  tgt : Int
  rc : Nat
  deriving DecidableEq, Repr

/-- C-format commands (R363, R383). -/
structure Cmd where
  a : Nat
  b : Nat
  c : Nat
  hold : Bool
  sync : Bool
  deriving DecidableEq, Repr

inductive Instr where
  /-- SADD (R278): Scalar integer add of two uniform registers, wrapping or saturating under SAT. -/
  | sadd (x : RegOp)
  /-- SSUB (R278): Scalar integer subtract. -/
  | ssub (x : RegOp)
  /-- SMUL (R278): Scalar integer multiply, low half. -/
  | smul (x : RegOp)
  /-- SMULH (R278): Scalar integer multiply, high half. -/
  | smulh (x : RegOp)
  /-- SDIV (R278): Scalar integer divide truncating toward zero; DIVZ on zero divisor. -/
  | sdiv (x : RegOp)
  /-- SREM (R278): Scalar integer remainder; DIVZ on zero divisor. -/
  | srem (x : RegOp)
  /-- SAND (R278): Scalar bitwise AND. -/
  | sand (x : RegOp)
  /-- SOR (R278): Scalar bitwise OR. -/
  | sor (x : RegOp)
  /-- SXOR (R278): Scalar bitwise XOR. -/
  | sxor (x : RegOp)
  /-- SSHL (R278): Scalar shift left, saturating under SAT. -/
  | sshl (x : RegOp)
  /-- SSHR (R278): Scalar logical shift right. -/
  | sshr (x : RegOp)
  /-- SSRA (R278): Scalar arithmetic shift right. -/
  | ssra (x : RegOp)
  /-- SMIN (R278): Scalar minimum. -/
  | smin (x : RegOp)
  /-- SMAX (R278): Scalar maximum. -/
  | smax (x : RegOp)
  /-- SCLZ (R278): Scalar count of leading zeros. -/
  | sclz (x : RegOp)
  /-- SPOPC (R278): Scalar population count. -/
  | spopc (x : RegOp)
  /-- SCMP (R279): Scalar integer compare writing 1 or 0 to a uniform register. -/
  | scmp (x : CcOp)
  /-- SSEL (R280): Scalar select between two operands by a condition register. -/
  | ssel (x : RegOp)
  /-- SMOV (R280): Scalar register move. -/
  | smov (x : RegOp)
  /-- SLEA (R281): Scalar 64-bit address formation with scaled index. -/
  | slea (x : CcOp)
  /-- SADD_S32_IMM (R282): Scalar add of a signed immediate. -/
  | saddS32Imm (x : ImmOp)
  /-- SMUL_S32_IMM (R282): Scalar multiply by an immediate. -/
  | smulS32Imm (x : ImmOp)
  /-- SAND_S32_IMM (R282): Scalar AND with an immediate. -/
  | sandS32Imm (x : ImmOp)
  /-- SOR_S32_IMM (R282): Scalar OR with an immediate. -/
  | sorS32Imm (x : ImmOp)
  /-- SXOR_S32_IMM (R282): Scalar XOR with an immediate. -/
  | sxorS32Imm (x : ImmOp)
  /-- SSHL_S32_IMM (R282): Scalar shift left by an immediate. -/
  | sshlS32Imm (x : ImmOp)
  /-- SSHR_S32_IMM (R282): Scalar logical shift right by an immediate. -/
  | sshrS32Imm (x : ImmOp)
  /-- SSRA_S32_IMM (R282): Scalar arithmetic shift right by an immediate. -/
  | ssraS32Imm (x : ImmOp)
  /-- SMIN_S32_IMM (R282): Scalar signed minimum with an immediate. -/
  | sminS32Imm (x : ImmOp)
  /-- SMAX_S32_IMM (R282): Scalar signed maximum with an immediate. -/
  | smaxS32Imm (x : ImmOp)
  /-- SMIN_N32_IMM (R282): Scalar unsigned minimum with an immediate. -/
  | sminN32Imm (x : ImmOp)
  /-- SMAX_N32_IMM (R282): Scalar unsigned maximum with an immediate. -/
  | smaxN32Imm (x : ImmOp)
  /-- SCMP_EQ_S32_IMM (R282): Scalar equality compare with an immediate. -/
  | scmpEqS32Imm (x : ImmOp)
  /-- SCMP_LT_S32_IMM (R282): Scalar signed less-than compare with an immediate. -/
  | scmpLtS32Imm (x : ImmOp)
  /-- SCMP_LT_N32_IMM (R282): Scalar unsigned less-than compare with an immediate. -/
  | scmpLtN32Imm (x : ImmOp)
  /-- SADD_S64_IMM (R282): Scalar 64-bit add of an immediate on register pairs. -/
  | saddS64Imm (x : ImmOp)
  /-- SLI (R283): Loads a constant into a uniform register or pair. -/
  | sli (x : SliOp)
  /-- SETXV (R284): Sets the issuing fragment's vector window base. -/
  | setxv (base : Nat)
  /-- SETXS (R284): Sets the issuing fragment's uniform window base. -/
  | setxs (base : Nat)
  /-- RDX (R284): Reads window, fragment number or allotment state into a uniform register. -/
  | rdx (d : Nat) (k : Nat)
  /-- VADD (R286): Vector integer add per lane. -/
  | vadd (x : RegOp)
  /-- VSUB (R286): Vector integer subtract. -/
  | vsub (x : RegOp)
  /-- VMUL (R286): Vector integer multiply. -/
  | vmul (x : RegOp)
  /-- VMULH (R286): Vector integer multiply high. -/
  | vmulh (x : RegOp)
  /-- VMAD (R287): Vector integer multiply-add. -/
  | vmad (x : RegOp)
  /-- VDIV (R286): Vector integer divide; DIVZ if any active lane divides by zero. -/
  | vdiv (x : RegOp)
  /-- VREM (R286): Vector integer remainder. -/
  | vrem (x : RegOp)
  /-- VADDS (R286): Vector saturating add. -/
  | vadds (x : RegOp)
  /-- VSUBS (R286): Vector saturating subtract. -/
  | vsubs (x : RegOp)
  /-- VMIN (R286): Vector integer minimum. -/
  | vmin (x : RegOp)
  /-- VMAX (R286): Vector integer maximum. -/
  | vmax (x : RegOp)
  /-- VABS (R286): Vector integer absolute value. -/
  | vabs (x : RegOp)
  /-- VAND (R286): Vector bitwise AND. -/
  | vand (x : RegOp)
  /-- VOR (R286): Vector bitwise OR. -/
  | vor (x : RegOp)
  /-- VXOR (R286): Vector bitwise XOR. -/
  | vxor (x : RegOp)
  /-- VSHL (R286): Vector shift left. -/
  | vshl (x : RegOp)
  /-- VSHR (R286): Vector logical shift right. -/
  | vshr (x : RegOp)
  /-- VSRA (R286): Vector arithmetic shift right. -/
  | vsra (x : RegOp)
  /-- VCLZ (R286): Vector count of leading zeros. -/
  | vclz (x : RegOp)
  /-- VPOPC (R286): Vector population count. -/
  | vpopc (x : RegOp)
  /-- VLEA (R288): Vector address formation with index scaled by 1, 2, 4 or 8. -/
  | vlea (x : CcOp)
  /-- VLEA_X16 (R288): Vector address formation with index scaled by 16. -/
  | vleaX16 (x : RegOp)
  /-- VOFF (R289): Adds a displacement to object pointers per lane, checking BADPTR and RANGE. -/
  | voff (x : RegOp)
  /-- VADD_S32_IMM (R290): Vector add of an immediate. -/
  | vaddS32Imm (x : ImmOp)
  /-- VMUL_S32_IMM (R290): Vector multiply by an immediate. -/
  | vmulS32Imm (x : ImmOp)
  /-- VAND_S32_IMM (R290): Vector AND with an immediate. -/
  | vandS32Imm (x : ImmOp)
  /-- VOR_S32_IMM (R290): Vector OR with an immediate. -/
  | vorS32Imm (x : ImmOp)
  /-- VXOR_S32_IMM (R290): Vector XOR with an immediate. -/
  | vxorS32Imm (x : ImmOp)
  /-- VSHL_S32_IMM (R290): Vector shift left by an immediate. -/
  | vshlS32Imm (x : ImmOp)
  /-- VSHR_S32_IMM (R290): Vector logical shift right by an immediate. -/
  | vshrS32Imm (x : ImmOp)
  /-- VSRA_S32_IMM (R290): Vector arithmetic shift right by an immediate. -/
  | vsraS32Imm (x : ImmOp)
  /-- VMIN_S32_IMM (R290): Vector signed minimum with an immediate. -/
  | vminS32Imm (x : ImmOp)
  /-- VMAX_S32_IMM (R290): Vector signed maximum with an immediate. -/
  | vmaxS32Imm (x : ImmOp)
  /-- VMIN_N32_IMM (R290): Vector unsigned minimum with an immediate. -/
  | vminN32Imm (x : ImmOp)
  /-- VMAX_N32_IMM (R290): Vector unsigned maximum with an immediate. -/
  | vmaxN32Imm (x : ImmOp)
  /-- VADDS_S32_IMM (R290): Vector signed saturating add of an immediate. -/
  | vaddsS32Imm (x : ImmOp)
  /-- VADDS_N32_IMM (R290): Vector unsigned saturating add of a signed immediate. -/
  | vaddsN32Imm (x : ImmOp)
  /-- VADD_S64_IMM (R290): Vector 64-bit add of an immediate on pairs. -/
  | vaddS64Imm (x : ImmOp)
  /-- VOFF_S64_IMM (R290): Vector object-pointer offset by an immediate. -/
  | voffS64Imm (x : ImmOp)
  /-- MAND (R293): Mask AND. -/
  | mand (x : MskOp)
  /-- MOR (R293): Mask OR. -/
  | mor (x : MskOp)
  /-- MXOR (R293): Mask XOR. -/
  | mxor (x : MskOp)
  /-- MNOT (R293): Mask NOT. -/
  | mnot (x : MskOp)
  /-- MCNT (R293): Counts set bits of two masks and the lane set into a uniform register. -/
  | mcnt (x : MskOp)
  /-- MFFS (R293): Finds the lowest set lane of two masks and the lane set. -/
  | mffs (x : MskOp)
  /-- MMOV_MM (R293): Copies a mask register to a mask register. -/
  | mmovMm (x : MskOp)
  /-- MMOV_MS (R293): Copies a uniform register into a mask register. -/
  | mmovMs (x : MskOp)
  /-- MMOV_SM (R293): Copies a mask register into a uniform register. -/
  | mmovSm (x : MskOp)
  /-- MSET (R293): Sets mask bits where a vector register is non-zero. -/
  | mset (x : MskOp)
  /-- VMOV_W32 (R294): Vector 32-bit move. -/
  | vmovW32 (x : MskOp)
  /-- VMOV_W64 (R294): Vector 64-bit pair move. -/
  | vmovW64 (x : MskOp)
  /-- VBCST_W32 (R294): Broadcasts a uniform register to lanes. -/
  | vbcstW32 (x : MskOp)
  /-- VBCST_W64 (R294): Broadcasts a uniform pair to lanes. -/
  | vbcstW64 (x : MskOp)
  /-- VSEL_W32 (R294): Vector select by a condition register. -/
  | vselW32 (x : MskOp)
  /-- VSEL_W64 (R294): Vector pair select by a condition pair. -/
  | vselW64 (x : MskOp)
  /-- VLANE (R294): Writes each lane's number. -/
  | vlane (x : MskOp)
  /-- VGET_W32 (R295): Reads one lane's element into a uniform register. -/
  | vgetW32 (x : MskOp)
  /-- VGET_W64 (R295): Reads one lane's pair into a uniform pair. -/
  | vgetW64 (x : MskOp)
  /-- VPUT_W32 (R295): Writes a uniform register into one lane. -/
  | vputW32 (x : MskOp)
  /-- VPUT_W64 (R295): Writes a uniform pair into one lane. -/
  | vputW64 (x : MskOp)
  /-- VFADD (R299): Vector floating add, rounded once. -/
  | vfadd (x : RegOp)
  /-- VFSUB (R299): Vector floating subtract. -/
  | vfsub (x : RegOp)
  /-- VFMUL (R299): Vector floating multiply. -/
  | vfmul (x : RegOp)
  /-- VFFMA (R299): Vector fused multiply-add. -/
  | vffma (x : RegOp)
  /-- VFFMS (R299): Vector fused multiply-subtract. -/
  | vffms (x : RegOp)
  /-- VFNFMA (R299): Vector negated fused multiply-add. -/
  | vfnfma (x : RegOp)
  /-- VFMIN (R300): Vector floating minimum. -/
  | vfmin (x : RegOp)
  /-- VFMAX (R300): Vector floating maximum. -/
  | vfmax (x : RegOp)
  /-- VFABS (R300): Clears the sign bit. -/
  | vfabs (x : RegOp)
  /-- VFNEG (R300): Inverts the sign bit. -/
  | vfneg (x : RegOp)
  /-- VFDIV (R299): Vector floating divide. -/
  | vfdiv (x : RegOp)
  /-- VFSQRT (R299): Vector floating square root. -/
  | vfsqrt (x : RegOp)
  /-- VFCLASS (R301): Classifies each value into one of ten classes. -/
  | vfclass (x : RegOp)
  /-- VFSGN (R300): Magnitude of a with sign of b. -/
  | vfsgn (x : RegOp)
  /-- VFLDX (R302): Scales by a power of two, rounded once. -/
  | vfldx (x : RegOp)
  /-- SFADD (R303): Scalar floating add. -/
  | sfadd (x : RegOp)
  /-- SFMUL (R303): Scalar floating multiply. -/
  | sfmul (x : RegOp)
  /-- SFFMA (R303): Scalar fused multiply-add. -/
  | sffma (x : RegOp)
  /-- SFCMP (R305): Scalar floating compare writing 1 or 0. -/
  | sfcmp (x : CcOp)
  /-- SFCVT (R303): Scalar format conversion. -/
  | sfcvt (x : CvtOp)
  /-- VCMP (R306): Vector integer compare into a mask register. -/
  | vcmp (x : CcOp)
  /-- VFCMP (R306): Vector floating compare into a mask register. -/
  | vfcmp (x : CcOp)
  /-- VEX2S (R309): Table exponential exp2s of a scaled biased value. -/
  | vex2s (x : MskOp)
  /-- VLG2 (R308): Correctly rounded base-2 logarithm. -/
  | vlg2 (x : MskOp)
  /-- VRCP (R308): Correctly rounded reciprocal. -/
  | vrcp (x : RegOp)
  /-- VRSQ (R308): Correctly rounded reciprocal square root. -/
  | vrsq (x : RegOp)
  /-- VSIN (R308): Correctly rounded sin(pi x). -/
  | vsin (x : MskOp)
  /-- VCOS (R308): Correctly rounded cos(pi x). -/
  | vcos (x : MskOp)
  /-- VCVT (R311): Vector format conversion with one rounding. -/
  | vcvt (x : CvtOp)
  /-- VPACK (R312): Narrows two sources into packed elements. -/
  | vpack (x : CvtOp)
  /-- VUNPK (R313): Widens one packed element exactly. -/
  | vunpk (x : CvtOp)
  /-- VDEQ (R314): Dequantises a GQ4 code with scales. -/
  | vdeq (x : CvtOp)
  /-- VSHF (R316): Shuffle by per-lane index. -/
  | vshf (x : RegOp)
  /-- VSHFU (R316): Shuffle up by a uniform distance. -/
  | vshfu (x : RegOp)
  /-- VSHFD (R316): Shuffle down by a uniform distance. -/
  | vshfd (x : RegOp)
  /-- VSHFX (R316): Shuffle by XOR pattern. -/
  | vshfx (x : RegOp)
  /-- VVOTE_ANY (R317): Vote: predicate holds in some present lane. -/
  | vvoteAny (x : MskOp)
  /-- VVOTE_ALL (R317): Vote: predicate holds in every present lane. -/
  | vvoteAll (x : MskOp)
  /-- VVOTE_UNI (R317): Vote: predicate uniform over present lanes. -/
  | vvoteUni (x : MskOp)
  /-- VVOTE_BAL (R317): Vote: ballot bitmap. -/
  | vvoteBal (x : MskOp)
  /-- VVOTE_CNT (R317): Vote: count of lanes with the predicate. -/
  | vvoteCnt (x : MskOp)
  /-- VRSUM (R318): Fixed-tree sum reduction into a uniform register. -/
  | vrsum (x : RegOp)
  /-- VRMIN (R318): Fixed-tree minimum reduction. -/
  | vrmin (x : RegOp)
  /-- VRMAX (R318): Fixed-tree maximum reduction. -/
  | vrmax (x : RegOp)
  /-- VSCAN_ADD (R318): Inclusive add scan. -/
  | vscanAdd (x : RegOp)
  /-- VSCAN_MIN (R318): Inclusive minimum scan. -/
  | vscanMin (x : RegOp)
  /-- VSCAN_MAX (R318): Inclusive maximum scan. -/
  | vscanMax (x : RegOp)
  /-- VLD (R322): Vector load: checks addresses, raises LD, issues accesses. -/
  | vld (x : MemOp)
  /-- VST (R322): Vector store, with release action when ordered. -/
  | vst (x : MemOp)
  /-- VPRF (R326): Prefetch of lines, dropped on any fault. -/
  | vprf (x : MemOp)
  /-- SLD (R322): Scalar load. -/
  | sld (x : MemOp)
  /-- SST (R322): Scalar store. -/
  | sst (x : MemOp)
  /-- SLDA (R325): Scalar acquire load. -/
  | slda (x : MemOp)
  /-- SSTR (R325): Scalar release store. -/
  | sstr (x : MemOp)
  /-- VATM_SWAP (R328): Vector atomic swap. -/
  | vatmSwap (x : AtomOp)
  /-- VATM_ADD (R328): Vector atomic add. -/
  | vatmAdd (x : AtomOp)
  /-- VATM_AND (R328): Vector atomic AND. -/
  | vatmAnd (x : AtomOp)
  /-- VATM_OR (R328): Vector atomic OR. -/
  | vatmOr (x : AtomOp)
  /-- VATM_XOR (R328): Vector atomic XOR. -/
  | vatmXor (x : AtomOp)
  /-- VATM_MINS (R328): Vector atomic signed minimum. -/
  | vatmMins (x : AtomOp)
  /-- VATM_MAXS (R328): Vector atomic signed maximum. -/
  | vatmMaxs (x : AtomOp)
  /-- VATM_MINN (R328): Vector atomic unsigned minimum. -/
  | vatmMinn (x : AtomOp)
  /-- VATM_MAXN (R328): Vector atomic unsigned maximum. -/
  | vatmMaxn (x : AtomOp)
  /-- VATM_FADD (R328): Vector atomic floating add, RNE, flags discarded. -/
  | vatmFadd (x : AtomOp)
  /-- VCAS (R328): Vector compare-and-swap. -/
  | vcas (x : AtomOp)
  /-- SATM_SWAP (R328): Scalar atomic swap. -/
  | satmSwap (x : AtomOp)
  /-- SATM_ADD (R328): Scalar atomic add. -/
  | satmAdd (x : AtomOp)
  /-- SATM_AND (R328): Scalar atomic AND. -/
  | satmAnd (x : AtomOp)
  /-- SATM_OR (R328): Scalar atomic OR. -/
  | satmOr (x : AtomOp)
  /-- SATM_XOR (R328): Scalar atomic XOR. -/
  | satmXor (x : AtomOp)
  /-- SATM_MINS (R328): Scalar atomic signed minimum. -/
  | satmMins (x : AtomOp)
  /-- SATM_MAXS (R328): Scalar atomic signed maximum. -/
  | satmMaxs (x : AtomOp)
  /-- SATM_MINN (R328): Scalar atomic unsigned minimum. -/
  | satmMinn (x : AtomOp)
  /-- SATM_MAXN (R328): Scalar atomic unsigned maximum. -/
  | satmMaxn (x : AtomOp)
  /-- SATM_FADD (R328): Scalar atomic floating add. -/
  | satmFadd (x : AtomOp)
  /-- SCAS (R328): Scalar compare-and-swap. -/
  | scas (x : AtomOp)
  /-- FENCE (R330): Orders the path's accesses to the selected spaces with acquire and/or release effect. -/
  | fence (x : FenceOp)
  /-- WAITC (R332): Waits until each counter is at or below its threshold. -/
  | waitc (x : WaitcOp)
  /-- SWINI (R335): Initialises a sync word. -/
  | swini (a : Nat) (b : Nat)
  /-- SWEXP (R335): Reads GEN and raises TARGET of a sync word indivisibly. -/
  | swexp (a : Nat) (b : Nat) (c : Nat)
  /-- SWWT (R335): Waits until a sync word's GEN differs from a value. -/
  | swwt (a : Nat) (b : Nat)
  /-- BARA (R337): Arrives at a group barrier phase with release. -/
  | bara (a : Nat) (k : Nat)
  /-- BARW (R337): Waits for a barrier phase to complete, then acquires. -/
  | barw (a : Nat) (k : Nat)
  /-- BARS (R337): Arrives and waits at a barrier. -/
  | bars (k : Nat)
  /-- GRPQ (R338): Reads a group's phase and state into a pair. -/
  | grpq (a : Nat) (k : Nat)
  /-- REGANG (R347): Waits for the named slices and fuses their fragments. -/
  | regang (mask : Nat)
  /-- NAP (R349): Waits until a watched word differs from a value or a timeout. -/
  | nap (a : Nat) (space : Nat) (t : Nat)
  /-- BRU (R341): Unconditional branch. -/
  | bru (disp : Int)
  /-- BRU_Z (R341): Branch when a uniform register is zero. -/
  | bruZ (r : Nat) (disp : Int)
  /-- BRU_NZ (R341): Branch when a uniform register is non-zero. -/
  | bruNz (r : Nat) (disp : Int)
  /-- BRU_LT (R341): Branch when a uniform register is negative. -/
  | bruLt (r : Nat) (disp : Int)
  /-- BRU_GE (R341): Branch when a uniform register is non-negative. -/
  | bruGe (r : Nat) (disp : Int)
  /-- CALL (R341): Branch writing the return address to a uniform pair. -/
  | call (r : Nat) (disp : Int)
  /-- BRV (R342): Divergent branch by mask; slices split and push their stacks. -/
  | brv (x : BrvOp)
  /-- JMPR (R344): Register jump or return; target 0 ends the lanes. -/
  | jmpr (a : Nat)
  /-- TBEG (R351): Opens a versioned task. -/
  | tbeg (a : Nat) (disp : Int)
  /-- TBEG_IDEM (R351): Opens a restartable versioned task recording s0 to s31. -/
  | tbegIdem (a : Nat) (disp : Int)
  /-- TABT (R354): Aborts the version and continues at the abort target. -/
  | tabt (code : Nat)
  /-- TRAP (R356): Raises TRAPI and counts as complete. -/
  | trap (code : Nat)
  /-- TCLR (R357): Clears TCAUSE bits. -/
  | tclr (a : Nat)
  /-- BRK (R356): Raises BRKPT without completing. -/
  | brk (code : Nat)
  /-- CSRR (R359): Reads a CSR into a uniform register. -/
  | csrr (a : Nat) (n : Nat)
  /-- CSRW (R359): Writes a CSR. -/
  | csrw (a : Nat) (n : Nat)
  /-- CSRS (R359): Sets CSR bits; on DLMASK kills lanes. -/
  | csrs (a : Nat) (n : Nat)
  /-- CSRC (R359): Clears CSR bits. -/
  | csrc (a : Nat) (n : Nat)
  /-- CPY (R373): Copy engine command moving LEN bytes. -/
  | cpy (x : Cmd)
  /-- CPY2 (R373): Two-dimensional strided copy command. -/
  | cpy2 (x : Cmd)
  /-- CPYG (R373): Gather copy by an index list. -/
  | cpyg (x : Cmd)
  /-- CPYP (R374): Writes activation bit planes or weight images. -/
  | cpyp (x : Cmd)
  /-- CPYQ (R375): Quantises sources to GQ4. -/
  | cpyq (x : Cmd)
  /-- CPREL (R367): Releases held commands of a bin with the bin's count patched in. -/
  | cprel (a : Nat)
  /-- BINCL (R371): Clears a range of bin counters. -/
  | bincl (a : Nat) (b : Nat)
  /-- BINAD (R371): Increments bins per lane and returns positions. -/
  | binad (a : Nat) (b : Nat)
  /-- BINRD (R371): Reads a bin counter. -/
  | binrd (a : Nat) (b : Nat)
  /-- TWLD (R378): Latches a weight image into a weight set. -/
  | twld (x : Cmd)
  /-- TMUL (R379): Tile pass accumulating into C-store rows. -/
  | tmul (x : Cmd)
  /-- TMUL_X4 (R380): Co-operative tile pass over a 2x2 quadrant of cores. -/
  | tmulX4 (x : Cmd)
  /-- TMULS (R379): Sparse tile pass skipping masked-off elements. -/
  | tmuls (x : Cmd)
  /-- TZERO (R381): Zeroes C-store rows. -/
  | tzero (x : Cmd)
  /-- TRD (R382): Reads accumulator rows with scale, exponential and conversion. -/
  | trd (x : Cmd)
  /-- APLNK (R386): CAS of a KV page's successor field at POD scope. -/
  | aplnk (x : Cmd)
  /-- APREF (R387): Prefetches and holds the first pages of a chain. -/
  | apref (x : Cmd)
  /-- ATTN (R389): Partial attention of query rows over a KV chain. -/
  | attn (x : Cmd)
  /-- AMRG (R391): Merges stored attention triples. -/
  | amrg (x : Cmd)
  /-- ARCP (R391): Normalises triples by L. -/
  | arcp (x : Cmd)
  /-- SSOPN (R393): Opens or closes a state-store slot. -/
  | ssopn (x : Cmd)
  /-- SSLD (R393): Copies the frame of the largest tag at or below TAG. -/
  | ssld (x : Cmd)
  /-- SSSV (R393): Saves a frame at a tag, releasing newer entries. -/
  | sssv (x : Cmd)
  /-- SSRBK (R393): Rolls a slot's ring back to a tag. -/
  | ssrbk (x : Cmd)
  /-- SSFRK (R393): Forks a slot's entries into another slot. -/
  | ssfrk (x : Cmd)
  /-- SSQRY (R393): Queries a slot for the largest tag at or below TAG. -/
  | ssqry (x : Cmd)
  /-- OALC (R395): Allocates an object born on the issuing device. -/
  | oalc (x : Cmd)
  /-- OFRE (R395): Frees an object at its owner. -/
  | ofre (x : Cmd)
  /-- OLOC (R395): Reports an object's owner and state. -/
  | oloc (x : Cmd)
  /-- OPIN (R395): Pins an object at its owner. -/
  | opin (x : Cmd)
  /-- OUNP (R395): Unpins an object. -/
  | ounp (x : Cmd)
  /-- OCOL (R395): Sets or clears an object's co-location group. -/
  | ocol (x : Cmd)
  /-- OMIG (R395): Requests migration of an object to a destination. -/
  | omig (x : Cmd)
  /-- OCLN (R395): Collects the local stub at once and drops the locator entry. -/
  | ocln (x : Cmd)
  /-- ORED (R397): Contributes a value to an ordered collective reduction. -/
  | ored (x : Cmd)
  /-- OBAR (R397): Collective barrier across communicator members. -/
  | obar (x : Cmd)
  /-- RCOMM (R190): Commits a recovery point of a region with a cursor. -/
  | rcomm (x : Cmd)
  /-- RCQRY (R400): Reads a region's RCPT into 16 uniform registers. -/
  | rcqry (x : Cmd)
  /-- RCVER (R194): Verifies a region's committed point against its digests. -/
  | rcver (x : Cmd)
  /-- YIELD (R348): Demotes the fragment in issue selection. -/
  | yield
  /-- JOIN (R209): Reconvergence point: passes, swaps or pops each slice's stack. -/
  | join
  /-- TEND (R353): Commits the version: release at DEV, then performs speculative lines. -/
  | tend
  /-- TRET (R358): Ends the handler, re-entering if enabled causes remain. -/
  | tret
  /-- NOP (R356): Does nothing. -/
  | nop
  /-- LOAD_RETURN (R322): Returned load or atomic data is written and the LD completion presented in order. -/
  | loadReturn
  /-- PAGE_WALK_DONE (R38): A page walk returns, setting A and D and installing the translation or faulting. -/
  | pageWalkDone
  /-- IBUF_FILL (R430): An instruction-buffer line fetch completes. -/
  | ibufFill
  /-- ENGINE_COMPLETION (R366): An engine command's completion is presented in issue order with its status. -/
  | engineCompletion
  /-- BLOCKING_ANSWER (R394): The answer to an object, collective or recovery instruction is written. -/
  | blockingAnswer
  /-- RELEASE_ACKS_DONE (R144): After drain and remote acknowledgements, a release sends its own access. -/
  | releaseAcksDone
  /-- TEND_DONE (R353): All speculative lines performed; TEND completes and clears TASK. -/
  | tendDone
  /-- SYNC_WORD_COUNT (R334): Copied bytes performed are added to a sync word, advancing GEN. -/
  | syncWordCount
  /-- NAP_WAKE (R349): A write to a watched line re-reads the word and may end the NAP. -/
  | napWake
  /-- NAP_TIMEOUT (R349): A NAP's timer expires with status 1. -/
  | napTimeout
  /-- SYNCTO (R339): A wait exceeding the launch's synchronisation timeout raises SYNCTO. -/
  | syncto
  /-- TRAP_ENTRY (R441): The stopped gang enters its handler or halts for pending enabled causes. -/
  | trapEntry
  /-- HANDLER_PREEMPT (R447): After 65 536 handler cycles a pending pre-emption saves the block. -/
  | handlerPreempt
  /-- OREQ (R57): A device serves, forwards through a stub or refuses an object line request. -/
  | oreq
  /-- OFWD (R57): A forwarded object request is treated as an OREQ at its target. -/
  | ofwd
  /-- OLUPD (R54): A locator update from a stub device is installed. -/
  | olupd
  /-- ORSP (R58): The owner's response completes a line request and updates the locator. -/
  | orsp
  /-- OABS (R58): An ABSENT answer makes the requester consult the registry. -/
  | oabs
  /-- OCON (R58): A hop-limit answer makes the requester consult the registry. -/
  | ocon
  /-- REGQ (R49): The birth device looks up its registry and answers REGA. -/
  | regq
  /-- REGA (R58): A registry answer routes the request or raises NOOBJ. -/
  | rega
  /-- MALC (R72): The destination allocates extents and an INBOUND entry and answers MALA. -/
  | malc
  /-- MALA (R72): The source receives the allocation answer and starts COPY or aborts. -/
  | mala
  /-- MCPY (R73): A copied chunk is written at the destination and acknowledged. -/
  | mcpy
  /-- MCPA (R74): A chunk acknowledgement; the last one in FREEZE starts the commit. -/
  | mcpa
  /-- COPY_PASS_END (R73): A copy pass ends, starting another pass or FREEZE. -/
  | copyPassEnd
  /-- REGUPD (R75): The birth device updates the registry owner and generation and acknowledges. -/
  | regupd
  /-- REGACK (R75): The source installs the stub, sends MACT and forwards queued accesses. -/
  | regack
  /-- MACT (R75): The destination makes the entry RESIDENT and serves held requests. -/
  | mact
  /-- MREL (R77): The destination releases an INBOUND entry after an abort. -/
  | mrel
  /-- STUB_COLLECT (R63): The stub collector clears LIVE of stubs past STCI with RACK set. -/
  | stubCollect
  /-- RDS (R129): Home slice serves a read request granting E or S. -/
  | rds
  /-- RDO (R129): Home slice serves a read for ownership granting M. -/
  | rdo
  /-- UPG (R129): Home slice upgrades S to M. -/
  | upg
  /-- WBD (R129): Dirty data arrives at the home. -/
  | wbd
  /-- EVC (R127): A clean copy is given up to the home. -/
  | evc
  /-- SNPS (R129): A holder downgrades and supplies data. -/
  | snps
  /-- SNPI (R129): A holder invalidates and supplies dirty data. -/
  | snpi
  /-- BINV (R131): A holder answers back-invalidation. -/
  | binv
  /-- DATA (R127): Line data with granted state arrives at a requester. -/
  | data
  /-- GNT (R127): A grant without data arrives. -/
  | gnt
  /-- IACK (R130): A snoop completion arrives at the home. -/
  | iack
  /-- CMP (R129): The requester confirms the grant; the home starts its next request. -/
  | cmp
  /-- DRN (R123): A slice asks a recorded core to drain. -/
  | drn
  /-- L1_WRITEBACK (R122): Dirty L1 bytes reach the local slice, which merges and acknowledges. -/
  | l1Writeback
  /-- DRAIN_DONE (R122): All write-backs acknowledged; RCLR is sent to every slice. -/
  | drainDone
  /-- RCLR (R122): A slice clears release-record slots of a drained core. -/
  | rclr
  /-- POD_DIR_OREQ (R135): The pod directory serves, passes or invalidates for an object request. -/
  | podDirOreq
  /-- ORSP_AT_SWITCH (R135): An owner's response passing the switch fills the memory-side slice. -/
  | orspAtSwitch
  /-- PINV (R134): A sharer device invalidates the line at every die. -/
  | pinv
  /-- PIACK (R135): A sharer's invalidation acknowledgement reaches the switch. -/
  | piack
  /-- PSI (R135): The switch invalidates sharers of a line the owner will write. -/
  | psi
  /-- PSIA (R135): The owner clears PS and performs its write. -/
  | psia
  /-- PSCLR (R134): The owner clears PS after a pod entry eviction. -/
  | psclr
  /-- HOST_READ (R148): A host read of device memory is served at the home slice. -/
  | hostRead
  /-- HOST_WRITE (R148): A host write is merged at the home slice. -/
  | hostWrite
  /-- BISNP_ANSWER (R149): The host answers a back-invalidation snoop. -/
  | bisnpAnswer
  /-- HBTO_EXPIRY (R149): No BISnp answer in HBTO: the host link fails and the half is poisoned. -/
  | hbtoExpiry
  /-- FRTO_EXPIRY (R141): An unanswered request is resent with its original SEQ. -/
  | frtoExpiry
  /-- PEER_TIMEOUT (R176): A peer exceeds PTO: PFAIL set, writes lost, PEERLOST raised. -/
  | peerTimeout
  /-- PACKET_AGE_DISCARD (R141): A switch discards a packet older than the peer timeout. -/
  | packetAgeDiscard
  /-- POD_MAP_ADOPT (R143): The device adopts a new PLIVE and PMEP, invalidating moved remote lines. -/
  | podMapAdopt
  /-- EPOCH_ANNOUNCE (R143): Switches announce every device adopted the epoch; remote fills resume. -/
  | epochAnnounce
  /-- PORT_DOWN (R467): A fabric port that loses its link or fails 16 retries is taken down. -/
  | portDown
  /-- FLIT_RETRY (R467): A flit failing its CRC is resent from the replay buffer. -/
  | flitRetry
  /-- COLLECTIVE_CONTRIBUTION (R399): A reduction unit takes a contribution, folding when all ranks are held. -/
  | collectiveContribution
  /-- COLLECTIVE_TABLE_WRITE (R399): The fabric manager rewrites a communicator entry. -/
  | collectiveTableWrite
  /-- RDUR (R190): A slice or device answers a durability wait once prior writes are durable. -/
  | rdur
  /-- RDURA (R190): A durability answer reaches the issuer. -/
  | rdura
  /-- RCLOSE (R190): An I/O die closes point P in its acceptance order. -/
  | rclose
  /-- RCLOSA (R190): The home I/O die collects close answers. -/
  | rclosa
  /-- DURABLE_ACCEPT (R186): A recovery unit accepts a write, stamping and digesting it. -/
  | durableAccept
  /-- DURABLE_WRITEBACK (R188): A queued durable line is written to memory. -/
  | durableWriteback
  /-- SETTLER_SWEEP (R183): The settler zeroes stale stamps of a region's lines. -/
  | settlerSweep
  /-- CONTAINMENT_SCAN (R196): I/O dies scan regions after a die reset and post records. -/
  | containmentScan
  /-- DRST (R472): A DRST write resets a compute die. -/
  | drst
  /-- WATCHDOG (R472): A die watchdog expiry resets the die. -/
  | watchdog
  /-- WHOLE_DEVICE_RESET (R472): I/O die reset, power loss, L4 wake or CXL reset resets the device. -/
  | wholeDeviceReset
  /-- THERMAL_TRIP (R471): At 115 C the module's power is removed. -/
  | thermalTrip
  /-- CLOCK_ADJUST (R471): The clock manager steps die clocks to keep power under PLIM. -/
  | clockAdjust
  /-- TLBINV (R41): Starts an invalidation of matching TLB and walk-cache entries. -/
  | tlbinv
  /-- TLBINV_COMPLETE (R41): Accesses through matching entries done; BUSY clears. -/
  | tlbinvComplete
  /-- LCINV (R55): Invalidates one or all locator entries. -/
  | lcinv
  /-- KRET (R152): Starts retirement of a key identifier. -/
  | kret
  /-- KEY_RETIRE_COMPLETE (R152): Drains and invalidations done; BUSY clears and the key is empty. -/
  | keyRetireComplete
  /-- KLOAD (R153): Installs key material for an empty identifier. -/
  | kload
  /-- FXOP_GIVE (R26): Pushes an extent onto a pool's class list. -/
  | fxopGive
  /-- FXOP_TAKE (R26): Pops an extent of a class from a pool. -/
  | fxopTake
  /-- FXB_ENABLE (R26): Enables the pools, zeroing the directory. -/
  | fxbEnable
  /-- RRD_ENABLE (R180): Enables a recovery region, zeroing stamps and initialising its RCPT. -/
  | rrdEnable
  /-- RRD_DISABLE (R180): Starts disabling a recovery region. -/
  | rrdDisable
  /-- RRD_DISABLE_COMPLETE (R180): Pending commits, moves and writes done; translations removed, RCPT discarded. -/
  | rrdDisableComplete
  /-- RRD_SET_TPOL (R179): A region write that only changes the torn policy. -/
  | rrdSetTpol
  /-- KVW_WRITE (R106): A KV window write starts write-back of the named objects' lines. -/
  | kvwWrite
  /-- KVW_EFFECT (R106): The KV window takes its new value once the lines are invalidated. -/
  | kvwEffect
  /-- PREQ (R464): Host requests pre-emption of a block. -/
  | preq
  /-- GDBG_HALT (R450): Raises HALTREQ in the selected gang. -/
  | gdbgHalt
  /-- GDBG_RESUME (R450): Resumes a halted gang. -/
  | gdbgResume
  /-- DEVNUM_WRITE (R466): Sets the pod device number once per reset. -/
  | devnumWrite
  /-- TAIL_WRITE (R421): Advances a launch queue's TAIL, publishing records. -/
  | tailWrite
  /-- RCRT_ENABLE (R416): Enables a regeneration routine, taking queue 63 when free. -/
  | rcrtEnable
  /-- RCRT_DISABLE (R416): Stops new selections of a regeneration entry. -/
  | rcrtDisable
  /-- PFAIL_CLEAR (R177): Clears a failed-device bit on readmission. -/
  | pfailClear
  /-- TABLE_BASE_WRITE (R462): Writes OTB, RGB, STB or SSTB. -/
  | tableBaseWrite
  /-- RING_BASE_WRITE (R463): Writes an event ring base, zeroing head and tail. -/
  | ringBaseWrite
  /-- DEBUG_WINDOW_WRITE (R469): Host writes a halted gang's state. -/
  | debugWindowWrite
  /-- REGISTER_WRITE (R461): A host write to a control register with no behaviour of its own. -/
  | registerWrite
  /-- LAUNCH_ACCEPT (R424): The dispatcher checks a ready head record and accepts or refuses it. -/
  | launchAccept
  /-- DEPENDENCE_WAKE (R423): A watched dependence line changes and is re-evaluated. -/
  | dependenceWake
  /-- BLOCK_PLACE (R427): A placement attempt reserves and commits a block's resources. -/
  | blockPlace
  /-- PLACE_BACKOFF (R427): A placement back-off expires and placement is retried. -/
  | placeBackoff
  /-- STORAGE_CLEAR_DONE (R87): Storage clearing ends and the placed block's gangs start. -/
  | storageClearDone
  /-- BLOCK_RETIRE (R425): A block retires; the last writes STATUS and adds to CCNT. -/
  | blockRetire
  /-- QUEUE63_RELEASE (R416): Queue 63 returns to software. -/
  | queue63Release
  /-- TIME_SLICE (R435): A block's time slice expires, raising SLICE. -/
  | timeSlice
  /-- PRIORITY_WAIT (R435): A higher-priority block waiting 2^20 cycles raises PREEMPT in one block. -/
  | priorityWait
  /-- PREEMPT_MODE_CHOICE (R435): Once all gangs returned, the block's pre-emption mode is chosen. -/
  | preemptModeChoice
  /-- BLOCK_SAVE (R436): After outstanding work completes, the block is saved and released. -/
  | blockSave
  /-- BLOCK_FLUSH (R435): Versions discarded and resources released for a restart. -/
  | blockFlush
  /-- BLOCK_RESTORE (R437): A saved block is restored and weight sets relatched. -/
  | blockRestore
  /-- STATE_STORE_OP (R419): An I/O die's state-store engine performs a slot command. -/
  | stateStoreOp
  /-- TILE_PASS_START (R402): A tile pass starts when array, set and rows are ready. -/
  | tilePassStart
  /-- WEIGHT_LATCH (R403): A TWLD shadow is latched into its set. -/
  | weightLatch
  /-- PEA_WALK_START (R408): The page-chain prefetcher starts a walk. -/
  | peaWalkStart
  /-- HEADER_RETURN (R409): A page header returns and its page is filled, promoted or regenerated. -/
  | headerReturn
  /-- PROMOTION_CHECK (R113): A demoted page's CRC-64 is checked. -/
  | promotionCheck
  /-- REGEN_SEAL (R417): After the routine retires, the page is sealed and given to its slice. -/
  | regenSeal
  /-- REGEN_TIMEOUT (R418): A regeneration exceeding REGTO fails. -/
  | regenTimeout
  /-- ATTN_ITEM (R412): A slice's attention unit computes a page's triple. -/
  | attnItem
  /-- TRIPLE_RETURN (R413): A triple reaches the merge unit and is merged in page order. -/
  | tripleReturn
  /-- HOLD_LAPSE (R387): APREF holds lapse after 2^20 cycles. -/
  | holdLapse
  /-- WAY_GATE (R115): A cache way or store segment is power-gated. -/
  | wayGate
  /-- WAY_WAKE_DONE (R115): A gated unit finishes waking. -/
  | wayWakeDone
  /-- SEGMENT_CLEAR_DONE (R116): A shared-store segment clear ends; stalled accesses proceed. -/
  | segmentClearDone
  /-- PATROL_SCRUB (R111): Patrol scrubbing reads and corrects a line. -/
  | patrolScrub
  /-- IDLE_ENTRY (R470): After idle 2^16 cycles, the device enters an idle level. -/
  | idleEntry
  /-- WAKE (R470): A wake event returns the device from an idle level. -/
  | wake
  /-- GET_VERSION (R473): SPDM version request. -/
  | getVersion
  /-- GET_CAPABILITIES (R473): SPDM capabilities request. -/
  | getCapabilities
  /-- NEGOTIATE_ALGORITHMS (R473): SPDM algorithm negotiation. -/
  | negotiateAlgorithms
  /-- GET_DIGESTS (R473): SPDM certificate digests request. -/
  | getDigests
  /-- GET_CERTIFICATE (R473): SPDM certificate request. -/
  | getCertificate
  /-- CHALLENGE (R473): SPDM challenge signed by the identity key. -/
  | challenge
  /-- GET_MEASUREMENTS (R473): SPDM measurement request. -/
  | getMeasurements
  /-- SPDM_UNSUPPORTED (R473): Any other SPDM request is answered ERROR UnsupportedRequest. -/
  | spdmUnsupported
  /-- LINK_TRAINING (R467): A fabric port completes link training and comes up, setting its FPST bit and raising MSI-X vector 3 when the pod map agrees. -/
  | linkTraining
  /-- MODULE_POWER_ON (R472): Module power returns after a power loss or thermal trip and the device comes out of reset and boots. -/
  | modulePowerOn
  /-- CHUNK_SEND (R73): The migration engine sends one 4 KiB chunk of a moving object in a copy pass, after which writes to that chunk set its dirty bit. -/
  | chunkSend
  /-- LEVEL_SAMPLE (R457): Every 64 cycles the recorders with a level event sample the core's outstanding memory requests or tile-queue entries. -/
  | levelSample
  deriving DecidableEq, Repr

end Sys2Proof
end

