-- ==== Sys2Proof/Machine/State.lean ====
section
/-! DEFINITION. The state of the device as plain data, the events waiting to act on it, the faults and refusals of the
model, and the state after reset. -/

namespace Sys2Proof.Machine

/-! ### Lines and requests -/

/-- A line's name and key identifier (R101, R121, R151): for an object line, x = BDEV ‖ SERIAL ‖ OFFSET[35:7]; otherwise
physical address bits [45:7]. -/
structure LineId where
  obj : Bool
  name : Nat
  key : Nat
  deriving DecidableEq, Repr

/-- One lane's part of an atomic (R138): lane, byte offset in the line, bytes, operation (R327), operand, compare value. -/
structure LaneAtom where
  lane : Nat
  off : Nat
  n : Nat
  op : Nat
  b : Nat
  c : Nat
  deriving DecidableEq, Repr

/-- What an object request asks of the owner (R56, R395). -/
inductive ObjOp where
  | read
  | write (data mask : Nat) (poison : Bool)
  | atomic (lanes : List LaneAtom)
  | prefetch
  | pin (set : Bool)
  | loc
  | free
  | col (colid : Nat)
  | mig (dest : Nat)
  deriving DecidableEq, Repr

/-- An OREQ or OFWD (R56): `ident` is BDEV and SERIAL, `off` the byte offset, `tag` the requester's tag; `via` the device
that sent this packet and `seq` its fabric sequence number (R58, R141). -/
structure ObjReq where
  ident : Nat
  off : Nat
  op : ObjOp
  src : Nat
  tag : Nat
  hops : Nat
  via : Nat
  seq : Nat
  taken : Bool         -- accepted before, and held back by a migration
  deriving DecidableEq, Repr

/-- An ORSP (R56): `code` 0 for success, a fault subcode of R43 (RANGE, BADOTE, PLACE ...), 256 for the absent tier, 300 for
a prefetch that was dropped (R78), or 512 + the CODE of R394; `res` the result of a system operation or the old values of an
atomic, by lane. -/
structure ObjRsp where
  tag : Nat
  code : Nat
  data : Nat
  poison : Bool
  res : List (Nat × Nat)
  owner : Nat
  mgen : Nat
  pin : Bool
  deriving DecidableEq, Repr

/-- Whom an outstanding object request serves. -/
inductive Cont where
  | gangOp (g op : Nat)
  | drain (id : Nat)
  | cmd (g op : Nat)
  | blocking (g op : Nat)
  | nap (g frag : Nat)
  | prefetch (core level : Nat)
  | seal (ptr : Nat)   -- the recomputation engine's read of a page that it seals
  | none
  deriving DecidableEq, Repr

/-- An object request that its requester waits for (R58 to R60): target, OABS and OCON answers so far, first send. -/
structure ObjWait where
  req : ObjReq
  tgt : Nat
  tries : Nat
  cont : Cont
  sent : Nat
  stage : Nat          -- 0 waiting for ORSP, 1 waiting for REGA, 2 held back by an earlier request (R59)
  plane : Nat          -- plane it was last sent on (R139)
  nofill : Bool        -- a later write or an invalidation of the line: the answer fills no copy (R167)
  deriving DecidableEq, Repr

/-- What a page walk is for (R36): 0 read, 1 write or atomic, 2 fetch. -/
structure WalkReq where
  g : Nat
  frag : Nat
  core : Nat
  asid : Nat
  root : Nat
  va : Nat
  kind : Nat
  deriving DecidableEq, Repr

/-! ### Gangs -/

/-- A divergence-stack entry (R205). -/
structure StkEnt where
  pc : Nat
  mask : Nat
  rc : Nat
  deriving DecidableEq, Repr

/-- A slice (R202): its PC, 4-bit active mask and divergence stack, top first. -/
structure Slice where
  pc : Nat
  mask : Nat
  stk : List StkEnt
  deriving DecidableEq, Repr

/-- Why a fragment does not issue. -/
inductive Wait where
  | ready
  /-- an instruction-buffer line is being fetched (R430) -/
  | fetch (va : Nat)
  /-- a page walk (R323) -/
  | walk (va : Nat)
  /-- BARW: a phase of a group (R337) -/
  | bar (k p : Nat)
  /-- BARA or BARS waiting for its next arrival (R224) -/
  | arrive (k c : Nat)
  /-- SWWT: core, physical address of the sync word, generation (R335) -/
  | sync (core addr gen : Nat)
  /-- WAITC thresholds (R332) -/
  | waitc (x : WaitcOp)
  /-- REGANG: its mask and the address after it (R217) -/
  | regang (m next : Nat)
  /-- NAP: the operation that holds its word and expected value (R349) -/
  | nap (stamp : Nat)
  /-- a blocking system instruction (R394), a TEND, or a release before its own access -/
  | blocked (op : Nat)
  /-- a full counter, table or queue (R331, R367, R402, R433) -/
  | room
  deriving DecidableEq, Repr

/-- A page-walk failure met by a fragment: page address, access kind, PAGEF subcode. -/
structure WalkFail where
  page : Nat
  kind : Nat
  sub : Nat
  deriving DecidableEq, Repr

/-- A fragment (R202, R212): its number is its key; its slices, windows and issue state (R431, R432). -/
structure Frag where
  slices : Nat
  xv : Nat
  xs : Nat
  wait : Wait
  since : Nat          -- cycle at which the present wait began (R339)
  last : Nat           -- cycle of the last issue
  notBefore : Nat      -- STALL of R266
  demoted : Nat        -- demoted until this cycle (R432)
  walkFails : List WalkFail
  bars : Option (Nat × Nat × Nat)   -- group and phase at which a BARS still to be performed has arrived, and its PC (R339)
  timed : Option Nat   -- cycle at which a wait that the synchronisation timeout bounds began (R339)
  deriving DecidableEq, Repr

/-- One address of an outstanding memory operation. -/
structure Acc where
  lane : Nat
  addr : Nat           -- as formed by R14
  line : LineId
  off : Nat
  b : Nat              -- store data or atomic operand
  c : Nat              -- compare value
  val : Option Nat     -- value returned
  bad : Bool           -- met poison (R451)
  err : Nat            -- owner's subcode (R323), 0 for none
  deriving DecidableEq, Repr

/-- An outstanding operation of a gang: a load, atomic, release, engine command or blocking instruction. -/
structure Op where
  what : Instr
  frag : Nat
  pc : Nat
  hm : Bool            -- issued by the handler (R446)
  cls : Nat            -- 0 LD, 1 ST, 2 CP, 3 TL, 4 AT, 5 SS, 6 blocking
  issued : Nat
  phase : Nat
  sp : Nat
  n : Nat              -- bytes per access
  ext : Nat            -- w field, for extension (R321)
  dst : Nat            -- absolute destination register
  scalar : Bool
  uniform : Bool       -- mode 10: one access, broadcast
  act : Nat            -- lanes served
  zero : Nat           -- lanes of active outside act zeroed by MZ
  acq : Nat            -- acquire scope + 1, 0 none
  rel : Nat            -- release scope + 1, 0 none
  atom : Nat           -- operation of R327 for atomics
  accs : List Acc
  need : List LineId   -- lines awaited
  desc : List Nat      -- descriptor values (R363)
  stReg : Nat
  res : List Nat       -- result registers to write
  out : List Nat       -- their values
  held : Bool
  bin : Nat
  sync : Option Nat    -- sync word: core × 2^24 + physical offset
  code : Nat           -- status CODE
  flags : Nat          -- status bits [27:24]; 16: a write of its drain was lost (R176)
  pcnt : Nat           -- status bits [23:0]
  errAddr : Nat
  errSub : Nat
  errKind : Nat
  errSp : Nat
  fetched : Tab Nat    -- lines fetched from other devices for an engine command
  done : Bool          -- completed, waiting to be presented in order
  deriving DecidableEq, Repr

/-- A fault record's contents (R44) before it is written. -/
structure FRec where
  pc : Nat
  done : Nat
  fault : Nat
  cause : Nat
  flags : Nat
  frag : Nat
  entries : List (Nat × Nat × Nat × Nat × Nat)   -- ADDR, LANE, SUB, KIND, SPACE
  deriving DecidableEq, Repr

/-- The shadow of the program fragments during a handler (R441): slices, fragments with their resume PCs. -/
structure Shadow where
  slices : List Slice
  frags : Tab Frag
  tfpc : Tab Nat
  deriving DecidableEq, Repr

/-- The task record of R351. -/
structure TaskRec where
  restart : Nat
  abort : Nat
  stat : Nat
  xv : Nat
  xs : Nat
  fin : Nat
  idem : Bool
  s : List (BitVec 32)
  deriving DecidableEq, Repr

/-- A speculative line of a version (R154): held bytes and their mask. -/
structure SpecLine where
  line : LineId
  data : Nat
  mask : Nat
  slice : Nat
  set : Nat
  deriving DecidableEq, Repr

/-- A replay of a faulting store or atomic (R11, R46): bundle, fragment, lanes already performed. -/
structure Replay where
  pc : Nat
  frag : Nat
  done : Nat
  deriving DecidableEq, Repr

/-- A gang (R202, R205 to R207, R237, R238, R357 to R362, R438). -/
structure Gang where
  launch : Nat
  blk : Nat            -- key of its block in Sched.blocks
  g : Nat              -- R204
  j : Nat
  av : Nat
  asz : Nat            -- A_s
  slices : List Slice
  frags : Tab Frag
  vreg : SMap 32       -- element (n, l) at 32n + l
  sreg : SMap 32
  mreg : SMap 32       -- m1 to m15
  fin : Nat            -- lanes finished (R211)
  dl : Nat             -- DLMASK
  ctr : List Nat       -- LD ST CP TL AT SS
  deadsrc : Bool
  peerlost : Bool
  chk : Bool
  task : Bool
  hm : Bool
  tcause : Nat
  tmask : Nat
  tvec : Nat
  fpctl : Nat
  fpstat : Nat
  taskid : Nat
  prog : Nat
  shadow : Option Shadow
  trec : TaskRec
  spec : List SpecLine
  ops : Tab Op
  nextOp : Nat
  frec : Option FRec           -- contents of the record for the pending class-1 entry
  wrec : Option FRec           -- the record the last class-1 entry wrote, for a re-entry while its cause is pending (R441)
  late : List (Nat × Nat × Option FRec)   -- late causes held while HM = 1 (R446): cause bit, fragment and record
  dlPrev : Nat                 -- DLMASK at the previous entry (R442)
  raised : Nat                 -- fragments that raised a class-1 cause
  raisePc : Option Nat         -- bundle that first raised a cause since the last entry or halt (R448)
  entryDue : Bool              -- a TRAP_ENTRY is pending
  halted : Bool
  skipBrk : Nat                -- fragments whose next bundle raises no BRKPT (R450)
  hentry : Nat                 -- cycle of the last handler entry
  asked : Nat                  -- pre-emption causes raised and not yet returned from: 0 none, 1 asked, 2 returned
  replay : List Replay         -- at most one for each program fragment
  fused : Nat                  -- operations numbered below it come before any later access (R160)
  lrbsel : SMap 32
  badV : List Nat              -- uncorrectable vector elements (32n + l)
  badU : List Nat              -- uncorrectable uniform registers
  badM : List Nat              -- uncorrectable mask registers
  badW : Bool                  -- uncorrectable window or stack state
  retired : Bool
  killed : Bool
  deriving DecidableEq, Repr

/-! ### Cores -/

/-- An L1 line (R101, R102): byte-valid and byte-dirty masks. -/
structure L1Line where
  line : LineId
  data : Nat
  valid : Nat
  dirty : Nat
  poison : Bool
  ro : Bool            -- a .K line
  deriving DecidableEq, Repr

/-- A cached translation (R40): page base and size, physical base, flags. -/
structure TlbEnt where
  asid : Nat
  va : Nat
  size : Nat
  pa : Nat
  key : Nat
  rc : Bool
  d : Bool
  x : Bool
  w : Bool
  gl : Bool
  deriving DecidableEq, Repr

/-- A walk-cache entry (R40): die, level of the table it names, first address it maps, asid, table address. -/
structure WalkEnt where
  level : Nat
  va : Nat
  asid : Nat
  table : Nat
  deriving DecidableEq, Repr

/-- An instruction-buffer line (R430). -/
structure IbLine where
  asid : Nat
  va : Nat
  data : Nat
  deriving DecidableEq, Repr

/-- A weight set (R376): the block that loaded it, its format, image offset and latched image. -/
structure WeightSet where
  blk : Option Nat
  fmt : Nat
  woff : Nat
  image : Mem
  deriving DecidableEq, Repr

/-- A latency recorder (R456 to R460). -/
structure Recorder where
  en : Bool
  evt : Nat
  flt : Nat
  owner : Nat
  gang : Nat           -- index g of the gang that wrote EN
  mn : Nat
  mx : Nat
  cnt : Nat
  bins : SMap 32
  deriving DecidableEq, Repr

/-- Storage of an on-core store by its last owner (R86, R87): byte range and launch. -/
structure Owned where
  store : Nat          -- 0 shared, 1 A, 2 C, 3 W, 4 + p lane-private of partition p
  lo : Nat
  hi : Nat
  launch : Nat
  deriving DecidableEq, Repr

/-- A core (R85). -/
structure CoreSt where
  l1 : List L1Line
  l1Gated : Nat                -- gated groups of four ways
  rsn : Nat                    -- release number (R121)
  lazy : Nat                   -- lazy releases since the last drain
  tlb : List TlbEnt
  ibuf : List IbLine
  shared : Mem
  lpriv : Mem                  -- physical lane × 4096 + offset
  astore : Mem
  cstore : Mem
  wstore : Mem
  owned : List Owned
  gatedSeg : Nat               -- gated shared-store segments of 8 KiB (R115)
  clearSeg : Nat               -- segments being cleared (R116)
  badWord : List (Nat × Nat)   -- uncorrectable words: store, offset / 4 (R451)
  bins : SMap 32               -- bin counters
  sets : List WeightSet
  recs : List Recorder
  lastFree : Option Nat        -- cycle its last block left, or its first came (R428)
  aluBad : List Nat            -- faulty ALU lanes of its vector pipes
  slBad : Bool                 -- a persistent scalar mismatch
  aluOnce : Nat                -- passing disagreements that the next checked instructions meet (R228)
  deriving DecidableEq, Repr

/-! ### Coherence -/

/-- Coherence states (R125); `wb` is a line given up whose WBD is on its way. -/
inductive Moesi where
  | m | o | e | s | i | wb
  deriving DecidableEq, Repr

/-- A line copy in an LLC slice of a die (R103, R117), with its release-record slots (R121).  The parts of its tag that have one
home elsewhere are not stored twice: its key is the name's (`LineId`), its stamp the line's metadata (`LineMeta.stamp`; a copy of a
line with a stamp is clean, R187), and the version that owns a speculative line is the gang that holds it (`Gang.spec`). -/
structure SLine where
  die : Nat
  line : LineId
  st : Moesi
  data : Nat
  poison : Bool
  chk : Nat
  held : Bool
  slots : List (Nat × Nat)     -- core within the die, RSN
  deriving DecidableEq, Repr

/-- A directory entry of the line's home slice (R126). -/
structure DirEnt where
  line : LineId
  pres : Nat
  own : Option Nat
  ps : Bool
  hlo : Nat
  hhi : Nat
  deriving DecidableEq, Repr

/-- A home transaction (R129): request (0 RDS, 1 RDO, 2 UPG, 3 eviction), die, answers awaited, data supplied. -/
structure Txn where
  line : LineId
  kind : Nat
  die : Nat
  left : Nat
  data : Option (Nat × Bool)
  granted : Bool
  deriving DecidableEq, Repr

/-- An L1 write-back waiting for M at its local slice, or for its owner (R122). -/
structure WbWait where
  die : Nat
  line : LineId
  data : Nat
  mask : Nat
  drain : Nat
  deriving DecidableEq, Repr

/-- A drain of a core (R122): release number covered, acknowledgements awaited, the gang operations it serves. -/
structure Drain where
  core : Nat
  d : Nat
  left : Nat
  serves : List (Nat × Nat)    -- gang, op
  lost : Bool
  evict : Bool                 -- one line leaving the L1 outside any drain
  deriving DecidableEq, Repr

/-- Caches and coherence agents outside the cores. -/
structure Coh where
  lines : List SLine
  dir : List DirEnt
  busy : List Txn
  queue : List (LineId × Nat × Nat × Nat)   -- line, request kind, die, halves a write touches
  wbw : List WbWait
  drains : Tab Drain
  nextDrain : Nat
  calm : Nat                   -- bundles wait until this cycle, so that coherence comes to rest (log entry 9)
  dtlb : List (Nat × TlbEnt)   -- die TLBs
  wcache : List (Nat × WalkEnt)
  retiring : Option Nat        -- key identifier being retired
  gated : List (Nat × Nat)     -- slice, gated groups of two ways
  chkBad : List LineId         -- lines whose check value fails at the next receipt (an injected error)
  deriving DecidableEq, Repr

/-- Metadata of a 128-byte line of device memory (R110), and the key its bytes were written under (R153). -/
structure LineMeta where
  stamp : Nat
  poison : Bool
  chk : Nat
  chkv : Bool
  key : Nat            -- 0: never written; 1 + a hash of identifier and material otherwise
  deriving DecidableEq, Repr

/-! ### The device control block (R461) -/

/-- Registers of the device control block, one field each (R461). -/
structure Dcb where
  otb : Nat
  rgb : Nat
  stb : Nat
  sstb : Nat
  stci : Nat
  frto : Nat
  pto : Nat
  hbto : Nat
  regto : Nat
  tlbinv : Nat
  tlbiasid : Nat
  lcinv : Nat
  kret : Nat
  migctl : Nat
  gdbg : Nat
  merb : Nat
  mehd : Nat
  metl : Nat
  medrop : Nat
  crb : Nat
  crhd : Nat
  crtl : Nat
  crdrop : Nat
  htrb : Nat
  hthd : Nat
  httl : Nat
  htdrop : Nat
  plive : Nat
  pmep : Nat
  pfail : Nat
  lattol : Nat
  pwrctl : Nat
  pwrst : Nat
  drst : Nat
  mecc : Nat
  munc : Nat
  chkm : Nat
  cicor : Nat
  resrt : Nat
  lnkrt : Nat
  mshrt : Nat
  fpst : Nat
  devnum : Nat
  fxb : Nat
  fxop : Nat
  kdata : List Nat
  kload : Nat
  wbref : Nat
  kvw : List Nat
  kvwNew : List (Option Nat)   -- value waiting to take effect (R106)
  rrd : List Nat
  rcrt : List Nat
  lqcfg : List Nat
  lqptr : List Nat             -- TAIL × 2^32 + HEAD
  keys : Tab (Nat × Nat)       -- loaded identifiers and their two keys (R153)
  msix : Nat                   -- MSI-X vectors raised, one bit each (R465)
  deriving DecidableEq, Repr

/-! ### Object space and fabric -/

/-- A locator entry (R53): ident, guess, generation, REG, PIN. -/
structure LocEnt where
  ident : Nat
  dev : Nat
  mgen : Nat
  reg : Bool
  pin : Bool
  deriving DecidableEq, Repr

/-- A migration at its source (R72 to R77). -/
structure Mig where
  ident : Nat
  dest : Nat
  group : Option Nat           -- COLID of a co-location group's move
  phase : Nat                  -- 0 MALC sent, 1 COPY, 2 FREEZE, 3 COMMIT
  pass : Nat
  dirty : List Nat
  todo : List Nat              -- chunks of the present pass still to send
  sent : List Nat              -- chunks already sent
  acks : Nat                   -- MCPA awaited
  queue : List ObjReq          -- accesses queued in FREEZE and COMMIT
  stub : Nat                   -- index of the reserved stub entry (R62)
  psis : Nat                   -- PSIAs awaited (R136)
  ack : Nat                    -- 0 REGACK awaited, 1 arrived, 2 the birth device has failed
  req : Option ObjReq          -- the OMIG that waits for its answer
  gone : List (Nat × Nat)      -- lines that have left the source's digest, with their stamps (R82, R83)
  deriving DecidableEq, Repr

/-- A message that leaves the device or the switch chip's side of it, with its target. -/
structure OutMsg where
  tgt : Nat                    -- device; 255 the fabric switch, 254 the host
  kind : Instr                 -- the event it is at its target
  args : List Nat
  seq : Nat
  plane : Nat                  -- the plane it travels on (R139)
  deriving DecidableEq, Repr

/-- Retransmission state toward one device (R141): next SEQ, unacknowledged requests with their first send, and messages
that wait because too many are unacknowledged. -/
structure PeerOut where
  seq : Nat
  unacked : List (Nat × Nat × OutMsg)   -- SEQ, cycle of first send, message
  hold : List (OutMsg × Option ObjReq)
  deriving DecidableEq, Repr

/-- Duplicate detection from one device (R142): highest SEQ, accepted SEQs, retained responses. -/
structure PeerIn where
  high : Nat
  seen : List Nat
  kept : List (Nat × OutMsg)   -- the last 64 responses to atomics
  sys : List (Nat × OutMsg)    -- the last 64 other responses that are retained
  acked : List (Nat × Nat)     -- SEQs of the stores answered, with the code of the answer
  planes : List (Nat × Nat)    -- plane on which a packet arrived that has not been answered, by SEQ (R139)
  deriving DecidableEq, Repr

/-- A pod-directory entry in the switch chip of a plane (R133, R135): the memory-side copy, the request the line is busy
with and its target, the owner that has sent PSI, PIACKs awaited, and requests waiting in arrival order. -/
structure PodEnt where
  name : Nat
  owner : Nat
  mgen : Nat
  shr : List Nat
  msc : Option Nat
  cur : Option (ObjReq × Nat)
  psi : Option Nat
  left : Nat
  wait : List (ObjReq × Nat)
  deriving DecidableEq, Repr

/-- A copy of an object-table entry in the translation cache of a memory controller (R25): controller, object, place in the
table, the entry. -/
structure OtcEnt where
  mc : Nat
  ident : Nat
  index : Nat
  entry : Nat
  deriving DecidableEq, Repr

/-- An open collective instance (R399): contributions as (rank, device, value, fabric SEQ), format and operation. -/
structure Coll where
  cid : Nat
  seq : Nat
  op : Nat
  fmt : Nat
  bad : Bool
  got : List (Nat × Nat × Nat × Nat)
  deriving DecidableEq, Repr

/-- A completed instance of the window (R399): result, code, ranks folded. -/
structure CollDone where
  cid : Nat
  seq : Nat
  result : Nat
  code : Nat
  detail : Nat
  deriving DecidableEq, Repr

/-- An OFRE under way (R395): its request, the object's entry, whether its registry at another device is still to answer, the devices
that have still to invalidate the object's lines, and the OFREs that arrived meanwhile. -/
structure FreeWait where
  req : ObjReq
  entry : Nat
  reg : Bool
  left : List Nat
  more : List ObjReq
  deriving DecidableEq, Repr

/-- The object space of this device, the fabric links, and the switch chips as this device meets them. -/
structure Fab where
  loc : List LocEnt
  otc : List OtcEnt            -- newest first
  reqs : Tab ObjWait
  nextTag : Nat
  migs : Tab Mig               -- by ident
  inbound : Tab (List ObjReq)  -- requests held for INBOUND objects
  frees : Tab FreeWait         -- OFREs under way, by ident
  nomCount : List Nat          -- 6-bit affinity counters of the memory controllers (R66)
  outbox : List OutMsg
  peersOut : Tab PeerOut
  peersIn : Tab PeerIn
  pod : List PodEnt            -- pod directory of the planes
  colTab : Tab (List Nat)      -- communicator → member devices in rank order (R396)
  colOpen : List Coll
  colDone : List CollDone
  epochWait : Bool             -- no remote line is filled until EPOCH_ANNOUNCE (R143)
  retries : SMap 32            -- consecutive flit retries of a port
  mapDev : List Nat            -- device number the pod map gives each of this device's ports (R466)
  members : List Nat           -- member devices of the pod
  dead : List Nat              -- devices of the pod known failed by the map
  deriving DecidableEq, Repr

/-! ### The recovery domain -/

/-- An RCPT (R184) with the four partial digests of each kind. -/
structure Rcpt where
  cpt : Nat
  opt : Nat
  cursor : Nat
  cdig : Nat
  ldig : List Nat
  odig : List Nat
  ctime : Nat
  flags : Nat
  sweep : Nat
  deriving DecidableEq, Repr

/-- An RCOMM in progress (R190): step, the gang and op it serves, answers awaited, closed dies. -/
structure Commit where
  region : Nat
  g : Nat
  op : Nat
  cursor : Nat
  step : Nat                   -- 1 durability wait, 2 close, 3 done
  left : Nat                   -- RCLOSAs awaited
  awaited : List Nat           -- devices whose RDURA is awaited
  point : Nat
  lost : Bool
  peer : Bool                  -- a device failed during the durability wait
  dig : Nat                    -- XOR of the partial digests that RCLOSAs have brought
  deriving DecidableEq, Repr

/-- The recovery domain (R179 to R201). -/
structure Rcv where
  rcpt : Tab Rcpt
  closing : Tab Nat            -- I/O dies that have closed the open point of a region
  commits : Tab Commit         -- by request tag
  order : List Nat             -- tags waiting for their region's home, in arrival order
  nextTag : Nat
  dq : List (Nat × Nat × Nat × Nat × Bool)  -- durable queue: I/O die, line address, data, stamp, poison
  inflight : List (Nat × Nat × Nat × Nat × Bool)  -- die, line address, data, key, poison: sent, not accepted
  scanning : List (Nat × Nat)  -- containment scans: die reset, cycle
  lostDie : List Nat           -- dies whose present reset lost writes not durable, for RDURA
  lostFor : List Nat           -- waits that are still to hear of such a loss: gangs here, from 512 on, and 256 + devices (log entry 72)
  lostTags : List (Nat × Nat)  -- durability waits answered LOST, as (device, tag), which a resent RDUR is told again
  rdurs : List (Nat × Nat × Nat)   -- RDURs not yet answered, as (device, tag, plane of arrival)
  sweeps : Tab Nat             -- I/O dies that have finished the present sweep
  verify : List (Nat × Nat × Nat)   -- RCVER in progress: gang, op, region
  deriving DecidableEq, Repr

/-! ### Launches and blocks -/

/-- A group of a launch (R222, R224): members, phase, degraded flag, BLK, arrivals as (gang, slices that arrived). -/
structure Group where
  members : List Nat
  phase : Nat
  degraded : Bool
  blk : Bool
  arrived : List (Nat × Nat)
  bad : Bool                   -- its phase word is uncorrectable (R451)
  deriving DecidableEq, Repr

/-- An accepted launch and its record (R422). -/
structure Launch where
  queue : Nat
  addr : Nat                   -- physical address of its record
  image : List Nat             -- the 256 bytes of the record
  index : Nat
  placed : Nat                 -- next block to place
  done : Nat                   -- blocks retired
  nkill : Nat
  code : Nat                   -- STATUS code so far, 0 none
  tries : Nat
  backoff : Bool
  waiting : Option Nat         -- cycle since which a block has waited for resources
  saved : List Nat             -- blocks saved or flushed and waiting
  const : Mem
  constAt : List (Nat × Nat)   -- physical address and key of each 4 KiB of the constant image (R101)
  groups : List Group
  regen : Option Nat           -- index of the regeneration's record that it serves
  deriving DecidableEq, Repr

/-- A block (R202, R426): launch, number, die, cores, allocations and the keys of its gangs. -/
structure Block where
  launch : Nat
  b : Nat
  cores : List Nat
  shBase : List Nat
  aBase : List Nat
  cBase : List Nat
  wBase : List Nat
  binBase : List Nat
  lpBase : List Nat            -- per gang j
  gangs : List Nat             -- keys, by j; retired gangs keep their place
  clearing : Bool
  since : Nat                  -- cycle of placement or restore
  asked : Nat                  -- 0 none, 1 host, 2 priority, 3 slice
  mode : Nat                   -- 0 not chosen, 1 DRAIN, 2 FLUSH, 3 SAVE, 4 NONE
  noneAt : Nat                 -- cycle of the last choice of NONE, else 0
  drains : List Nat            -- drains of its cores started as it leaves them
  deriving DecidableEq, Repr

/-- The contents kept for a saved or flushed block (R436); its gangs stay in the table of gangs under keys of no core. -/
structure Saved where
  launch : Nat
  b : Nat
  flush : Bool
  gangs : List Nat
  lpriv : List Mem             -- per gang
  shared : List Mem            -- per rank
  astore : List Mem
  cstore : List Mem
  wstore : List Mem
  bins : List (SMap 32)
  sets : List (Nat × Nat × Nat × Nat)   -- rank, set, offset, format
  deriving DecidableEq, Repr

/-- The dispatchers (R421 to R437). -/
structure Sched where
  launches : Tab Launch
  nextLaunch : Nat
  blocks : Tab Block
  nextBlock : Nat
  saved : List Saved
  rr : List Nat                -- round-robin position by priority
  q63 : Bool                   -- queue 63 held by the recomputation engine
  heads : Tab Launch           -- head records that have been checked, by queue (R424)
  depWait : List Nat           -- queues whose head record has a dependence that is not met (R423)
  prefer : Option Nat          -- waiting launch to which the resources of blocks that leave go first (R435)
  dieAt : List Nat             -- cycle of each compute die's last reset (R428)
  deriving DecidableEq, Repr

/-! ### Engines -/

/-- A page of a walk (R409): index, pointer, state (0 header awaited, 1 with its attention unit, 2 promoting, 3 regenerating, 4
held, 5 computed or left, 6 and 7 to be held, 7 after a promotion or a regeneration), header bytes as first read (R411). -/
structure WalkPage where
  p : Nat
  ptr : Nat
  st : Nat
  hdr : Nat
  deriving DecidableEq, Repr

/-- A walk of the page-chain prefetcher (R408) with the running triples of its merge unit (R413). -/
structure PeaWalk where
  g : Nat
  op : Nat
  apref : Bool
  pages : List WalkPage
  next : Nat                   -- pointer of the next header to read; 0 at the end
  idx : Nat                    -- page index of the next header
  limit : Nat
  merged : Nat                 -- pages merged in order
  regen : Nat                  -- pages regenerated
  run : List (Option (List Nat))       -- running triple of each query row: 128 O, M, L
  window : List (Nat × List (Option (List Nat)) )  -- early triples by page
  flags : Nat
  ended : Bool
  deriving DecidableEq, Repr

/-- A regeneration (R417): page pointer, entry, record, launch, start, walks joined, header; whether its launch is over, and the
page's lines read for its seal when another device owns them. -/
structure Regen where
  ptr : Nat
  entry : Nat
  index : Nat                  -- index of its record in queue 63
  enq : Bool                   -- its launch record has been written to queue 63
  launch : Option Nat
  start : Nat
  joined : List Nat
  hdr : Nat
  ended : Bool
  fetched : Tab Nat
  deriving DecidableEq, Repr

/-- Engines outside the cores, and commands waiting in the cores' queues. -/
structure Eng where
  walks : Tab PeaWalk
  nextWalk : Nat
  walkQ : List (Nat × Nat)     -- commands waiting for a free walk
  holds : List (Nat × Nat × Nat × List Nat)   -- APREF holds: gang, HEAD, lapse cycle, page pointers
  regens : List Regen
  tileQ : List (Nat × Nat × Nat)       -- core, gang, op
  residueBad : List Nat        -- column adders that mismatch at the next rows, once for each try (R406)
  deriving DecidableEq, Repr

/-! ### Host link, power and identity -/

/-- A BISnp that waits for the host (R149): line, half, 0 data or 1 invalidate, sent. -/
structure BiSnp where
  line : LineId
  half : Nat
  inv : Bool
  sent : Nat
  deriving DecidableEq, Repr

structure HostSt where
  bisnp : List BiSnp
  down : Bool                  -- host link failed (R149)
  answers : List (Nat × Nat)   -- answers to host reads, by id, register reads, by offset, and SPDM requests, by code, newest last
  idle : Nat                   -- idle level 0 to 4
  lastReq : Nat                -- cycle of the last host or fabric request
  clocks : List Nat            -- die clocks in MHz
  off : Bool                   -- module power removed
  booted : Bool                -- firmware verified (R473)
  meas : List Nat              -- digests in the measurement slots (R473)
  resets : Nat                 -- whole-device resets so far
  deriving DecidableEq, Repr

/-! ### Events -/

/-- What an event carries; each constructor is the payload of the event of the same name. -/
inductive Msg where
  | loadReturn (g op : Nat)
  | pageWalkDone (r : WalkReq)
  | ibufFill (g frag va : Nat)
  | engineCompletion (g op : Nat)
  | blockingAnswer (g op : Nat)
  | releaseAcksDone (g op : Nat)
  | tendDone (g op : Nat)
  | syncWordCount (core addr bytes g op : Nat)
  | napWake (g frag stamp : Nat)
  | napTimeout (g frag stamp : Nat)
  | syncto (g frag since : Nat)
  | trapEntry (g : Nat)
  | handlerPreempt (g entry : Nat)
  | oreq (r : ObjReq)
  | ofwd (r : ObjReq)
  | olupd (ident dev mgen : Nat)
  | orsp (r : ObjRsp)
  | oabs (tag : Nat)
  | ocon (tag : Nat)
  | regq (ident src tag seq : Nat)
  | rega (ident owner mgen state tag : Nat)
  | malc (ident size flags colid key src seq : Nat)
  | mala (ident status : Nat)
  | mcpy (ident chunk src seq : Nat) (data stamps poison : List Nat)
  | mcpa (ident chunk : Nat)
  | copyPassEnd (ident : Nat)
  | regupd (ident owner mgen src seq : Nat)
  | regack (ident : Nat)
  | mact (ident mgen flags src seq : Nat)
  | mrel (ident src seq : Nat)
  | stubCollect (index : Nat)
  | rds (line : LineId) (die : Nat)
  | rdo (line : LineId) (die halves : Nat)
  | upg (line : LineId) (die halves : Nat)
  | wbd (line : LineId) (die data : Nat) (poison : Bool)
  | evc (line : LineId) (die : Nat)
  | snps (line : LineId) (holder req : Nat)
  | snpi (line : LineId) (holder req : Nat)
  | binv (line : LineId) (holder : Nat)
  | data (line : LineId) (die data : Nat) (poison : Bool) (st : Moesi)
  | gnt (line : LineId) (die : Nat)
  | iack (line : LineId) (holder : Nat) (miss : Bool)
  | cmp (line : LineId) (die : Nat)
  | drn (line : LineId) (die core rsn : Nat)
  | l1Writeback (core : Nat) (line : LineId) (data mask : Nat) (poison : Bool) (drain : Nat)
  | drainDone (id : Nat)
  | rclr (die core d : Nat)
  | podDirOreq (r : ObjReq) (dev : Nat)
  | orspAtSwitch (name : Nat) (r : ObjRsp) (dev : Nat) (write : Bool)
  | pinv (name : Nat)
  | piack (name dev : Nat)
  | psi (name dev : Nat)
  | psia (name : Nat)
  | psclr (name : Nat)
  | hostRead (addr : Nat) (excl : Bool) (id : Nat)
  | hostWrite (addr data mask : Nat)
  | bisnpAnswer (line : LineId) (half : Nat) (data : Option Nat)
  | hbtoExpiry (line : LineId) (half sent : Nat)
  | frtoExpiry (dev seq : Nat)
  | peerTimeout (dev : Nat)
  | packetAgeDiscard (dev seq : Nat)
  | podMapAdopt (plive pmep : Nat) (members ports dead : List Nat)
  | epochAnnounce (pmep : Nat)
  | portDown (p : Nat)
  | flitRetry (p : Nat) (mesh ok : Bool)
  | collectiveContribution (cid seq op fmt value dev fseq : Nat)
  | collectiveTableWrite (cid : Nat) (members : List Nat)
  | rdur (tag src : Nat)
  | rdura (tag dev : Nat) (lost : Bool)
  | rclose (region point die : Nat)
  | rclosa (region point die odig : Nat)
  | durableAccept (die : Nat)
  | durableWriteback (die : Nat)
  | settlerSweep (region die : Nat)
  | containmentScan (die : Nat)
  | drst (v : Nat)
  | watchdog (die : Nat)
  | wholeDeviceReset (cause : Nat)
  | thermalTrip
  | clockAdjust
  | tlbinv (v : Nat)
  | tlbinvComplete (since upto : Nat)
  | lcinv (v : Nat)
  | kret (v : Nat)
  | keyRetireComplete
  | kload (v : Nat)
  | fxopGive (v : Nat)
  | fxopTake (v : Nat)
  | fxbEnable (v : Nat)
  | rrdEnable (n v : Nat)
  | rrdDisable (n v : Nat)
  | rrdDisableComplete (n : Nat)
  | rrdSetTpol (n v : Nat)
  | kvwWrite (n v : Nat)
  | kvwEffect (n : Nat)
  | preq (v : Nat)
  | gdbgHalt (v : Nat)
  | gdbgResume (v : Nat)
  | devnumWrite (v : Nat)
  | tailWrite (n v : Nat)
  | rcrtEnable (n v : Nat)
  | rcrtDisable (n v : Nat)
  | pfailClear (v : Nat)
  | tableBaseWrite (off v : Nat)
  | ringBaseWrite (off v : Nat)
  | debugWindowWrite (off v : Nat)
  | registerWrite (off v : Nat)
  | registerRead (off : Nat)
  | launchAccept
  | dependenceWake (queue : Nat)
  | blockPlace (launch : Nat)
  | placeBackoff (launch : Nat)
  | storageClearDone (blk : Nat)
  | blockRetire (blk : Nat)
  | queue63Release
  | timeSlice (blk since : Nat)
  | priorityWait (launch : Nat)
  | preemptModeChoice (blk : Nat)
  | blockSave (blk : Nat)
  | blockFlush (blk : Nat)
  | blockRestore (launch b : Nat)
  | stateStoreOp (g op : Nat)
  | tilePassStart (core : Nat)
  | weightLatch (g op : Nat)
  | peaWalkStart (g op : Nat)
  | headerReturn (w p : Nat)
  | promotionCheck (w p : Nat)
  | regenSeal (ptr : Nat)
  | regenTimeout (ptr : Nat)
  | attnItem (w p : Nat)
  | tripleReturn (w p : Nat) (triples : List (Option (List Nat))) (flags : Nat)
  | holdLapse (g head : Nat)
  | wayGate (unit idx grp : Nat)
  | wayWakeDone (unit idx grp : Nat)
  | segmentClearDone (core seg : Nat)
  | patrolScrub (addr : Nat) (uncorrectable : Bool)
  | idleEntry
  | wake
  | getVersion
  | getCapabilities
  | negotiateAlgorithms (algs : Nat)
  | getDigests
  | getCertificate (slot off len : Nat)
  | challenge (slot nonce : Nat)
  | getMeasurements (idx : Nat)
  | spdmUnsupported (code : Nat)
  | linkTraining (p : Nat)
  | modulePowerOn
  | chunkSend (ident : Nat)
  | levelSample (core : Nat)
  deriving DecidableEq, Repr

/-- The event a message is (the row of the opcode table that names its effect).  A host's read of a register has no row of its own and
goes with the write. -/
def Msg.kind : Msg → Instr
  | .loadReturn _ _ => .loadReturn
  | .pageWalkDone _ => .pageWalkDone
  | .ibufFill _ _ _ => .ibufFill
  | .engineCompletion _ _ => .engineCompletion
  | .blockingAnswer _ _ => .blockingAnswer
  | .releaseAcksDone _ _ => .releaseAcksDone
  | .tendDone _ _ => .tendDone
  | .syncWordCount _ _ _ _ _ => .syncWordCount
  | .napWake _ _ _ => .napWake
  | .napTimeout _ _ _ => .napTimeout
  | .syncto _ _ _ => .syncto
  | .trapEntry _ => .trapEntry
  | .handlerPreempt _ _ => .handlerPreempt
  | .oreq _ => .oreq
  | .ofwd _ => .ofwd
  | .olupd _ _ _ => .olupd
  | .orsp _ => .orsp
  | .oabs _ => .oabs
  | .ocon _ => .ocon
  | .regq _ _ _ _ => .regq
  | .rega _ _ _ _ _ => .rega
  | .malc _ _ _ _ _ _ _ => .malc
  | .mala _ _ => .mala
  | .mcpy _ _ _ _ _ _ _ => .mcpy
  | .mcpa _ _ => .mcpa
  | .copyPassEnd _ => .copyPassEnd
  | .regupd _ _ _ _ _ => .regupd
  | .regack _ => .regack
  | .mact _ _ _ _ _ => .mact
  | .mrel _ _ _ => .mrel
  | .stubCollect _ => .stubCollect
  | .rds _ _ => .rds
  | .rdo _ _ _ => .rdo
  | .upg _ _ _ => .upg
  | .wbd _ _ _ _ => .wbd
  | .evc _ _ => .evc
  | .snps _ _ _ => .snps
  | .snpi _ _ _ => .snpi
  | .binv _ _ => .binv
  | .data _ _ _ _ _ => .data
  | .gnt _ _ => .gnt
  | .iack _ _ _ => .iack
  | .cmp _ _ => .cmp
  | .drn _ _ _ _ => .drn
  | .l1Writeback _ _ _ _ _ _ => .l1Writeback
  | .drainDone _ => .drainDone
  | .rclr _ _ _ => .rclr
  | .podDirOreq _ _ => .podDirOreq
  | .orspAtSwitch _ _ _ _ => .orspAtSwitch
  | .pinv _ => .pinv
  | .piack _ _ => .piack
  | .psi _ _ => .psi
  | .psia _ => .psia
  | .psclr _ => .psclr
  | .hostRead _ _ _ => .hostRead
  | .hostWrite _ _ _ => .hostWrite
  | .bisnpAnswer _ _ _ => .bisnpAnswer
  | .hbtoExpiry _ _ _ => .hbtoExpiry
  | .frtoExpiry _ _ => .frtoExpiry
  | .peerTimeout _ => .peerTimeout
  | .packetAgeDiscard _ _ => .packetAgeDiscard
  | .podMapAdopt _ _ _ _ _ => .podMapAdopt
  | .epochAnnounce _ => .epochAnnounce
  | .portDown _ => .portDown
  | .flitRetry _ _ _ => .flitRetry
  | .collectiveContribution _ _ _ _ _ _ _ => .collectiveContribution
  | .collectiveTableWrite _ _ => .collectiveTableWrite
  | .rdur _ _ => .rdur
  | .rdura _ _ _ => .rdura
  | .rclose _ _ _ => .rclose
  | .rclosa _ _ _ _ => .rclosa
  | .durableAccept _ => .durableAccept
  | .durableWriteback _ => .durableWriteback
  | .settlerSweep _ _ => .settlerSweep
  | .containmentScan _ => .containmentScan
  | .drst _ => .drst
  | .watchdog _ => .watchdog
  | .wholeDeviceReset _ => .wholeDeviceReset
  | .thermalTrip => .thermalTrip
  | .clockAdjust => .clockAdjust
  | .tlbinv _ => .tlbinv
  | .tlbinvComplete _ _ => .tlbinvComplete
  | .lcinv _ => .lcinv
  | .kret _ => .kret
  | .keyRetireComplete => .keyRetireComplete
  | .kload _ => .kload
  | .fxopGive _ => .fxopGive
  | .fxopTake _ => .fxopTake
  | .fxbEnable _ => .fxbEnable
  | .rrdEnable _ _ => .rrdEnable
  | .rrdDisable _ _ => .rrdDisable
  | .rrdDisableComplete _ => .rrdDisableComplete
  | .rrdSetTpol _ _ => .rrdSetTpol
  | .kvwWrite _ _ => .kvwWrite
  | .kvwEffect _ => .kvwEffect
  | .preq _ => .preq
  | .gdbgHalt _ => .gdbgHalt
  | .gdbgResume _ => .gdbgResume
  | .devnumWrite _ => .devnumWrite
  | .tailWrite _ _ => .tailWrite
  | .rcrtEnable _ _ => .rcrtEnable
  | .rcrtDisable _ _ => .rcrtDisable
  | .pfailClear _ => .pfailClear
  | .tableBaseWrite _ _ => .tableBaseWrite
  | .ringBaseWrite _ _ => .ringBaseWrite
  | .debugWindowWrite _ _ => .debugWindowWrite
  | .registerWrite _ _ => .registerWrite
  | .registerRead _ => .registerWrite
  | .launchAccept => .launchAccept
  | .dependenceWake _ => .dependenceWake
  | .blockPlace _ => .blockPlace
  | .placeBackoff _ => .placeBackoff
  | .storageClearDone _ => .storageClearDone
  | .blockRetire _ => .blockRetire
  | .queue63Release => .queue63Release
  | .timeSlice _ _ => .timeSlice
  | .priorityWait _ => .priorityWait
  | .preemptModeChoice _ => .preemptModeChoice
  | .blockSave _ => .blockSave
  | .blockFlush _ => .blockFlush
  | .blockRestore _ _ => .blockRestore
  | .stateStoreOp _ _ => .stateStoreOp
  | .tilePassStart _ => .tilePassStart
  | .weightLatch _ _ => .weightLatch
  | .peaWalkStart _ _ => .peaWalkStart
  | .headerReturn _ _ => .headerReturn
  | .promotionCheck _ _ => .promotionCheck
  | .regenSeal _ => .regenSeal
  | .regenTimeout _ => .regenTimeout
  | .attnItem _ _ => .attnItem
  | .tripleReturn _ _ _ _ => .tripleReturn
  | .holdLapse _ _ => .holdLapse
  | .wayGate _ _ _ => .wayGate
  | .wayWakeDone _ _ _ => .wayWakeDone
  | .segmentClearDone _ _ => .segmentClearDone
  | .patrolScrub _ _ => .patrolScrub
  | .idleEntry => .idleEntry
  | .wake => .wake
  | .getVersion => .getVersion
  | .getCapabilities => .getCapabilities
  | .negotiateAlgorithms _ => .negotiateAlgorithms
  | .getDigests => .getDigests
  | .getCertificate _ _ _ => .getCertificate
  | .challenge _ _ => .challenge
  | .getMeasurements _ => .getMeasurements
  | .spdmUnsupported _ => .spdmUnsupported
  | .linkTraining _ => .linkTraining
  | .modulePowerOn => .modulePowerOn
  | .chunkSend _ => .chunkSend
  | .levelSample _ => .levelSample

/-! ### The state -/

/-- The bundle being performed: gang key (core × 128 + slot), fragment, address of the bundle and of its base word,
whether the bundle carried HNT and with which value. -/
structure Issue where
  key : Nat
  frag : Nat
  pc : Nat
  base : Nat
  hnt : Option Nat
  deriving DecidableEq, Repr

/-- The machine: one device, the fabric as it meets it, and the messages and timers on their way. -/
structure State where
  pending : List Msg           -- messages and completions to be acted on, oldest first
  timers : List (Nat × Msg)    -- (cycle, message)
  cycle : Nat                  -- cycles of the 1.4 GHz reference since reset (R471)
  free : Nat                   -- the model's own: draws of free values so far
  issue : Option Issue         -- the model's own: the bundle being performed
  msg : Option Msg             -- the model's own: the message being acted on
  gangs : Tab Gang             -- by core × 128 + slot
  cores : Tab CoreSt           -- a core not listed is as CoreSt.fresh
  mem : Mem                    -- physical memory (R33)
  lmeta : Tab LineMeta         -- by line address / 128; a line not listed is as LineMeta.fresh
  coh : Coh
  dcb : Dcb
  fab : Fab
  rcv : Rcv
  sched : Sched
  eng : Eng
  host : HostSt
  deriving DecidableEq, Repr

/-- Why the machine stops.  Each is internal to the model: no rule of the spec leads to it from a state that steps
reach (log entry 6). -/
inductive Fault where
  /-- Raised by the meaning of an encoded instruction when no fragment is issuing it, or the issuing gang is absent.
  Safe: `step` never performs an encoded instruction without an issuing fragment. -/
  | noIssuer
  /-- Raised by the meaning of an event when the message being acted on is not that event's.  Safe: `step` performs
  an event only with its message. -/
  | noMessage
  deriving DecidableEq, Repr

/-- Why the model gives no meaning. -/
inductive Refusal where
  /-- Raised by the dispatch of an instruction that has no meaning yet.  Safe. -/
  | notModelled (mnemonic : String)
  deriving DecidableEq, Repr

/-- What a step answers. -/
abbrev Out := Host.Outcome State Fault Refusal

/-! ### Reset -/

/-- A latency recorder at reset (R456, R457). -/
def Recorder.fresh : Recorder := ⟨false, 0, 0, 0, 0, 0xFFFFFFFF, 0, 0, []⟩

/-- A core at reset: caches empty, stores without contents to read (R87), recorders as R456. -/
def CoreSt.fresh : CoreSt where
  l1 := []
  l1Gated := 0
  rsn := 0
  lazy := 0
  tlb := []
  ibuf := []
  shared := []
  lpriv := []
  astore := []
  cstore := []
  wstore := []
  owned := []
  gatedSeg := 0
  clearSeg := 0
  badWord := []
  bins := []
  sets := []
  recs := List.replicate 16 Recorder.fresh
  lastFree := none
  aluBad := []
  slBad := false
  aluOnce := 0

/-- Metadata of a line that nothing has written. -/
def LineMeta.fresh : LineMeta := ⟨0, false, 0, false, 0⟩

def Coh.reset : Coh where
  lines := []
  dir := []
  busy := []
  queue := []
  wbw := []
  drains := []
  nextDrain := 0
  calm := 0
  dtlb := []
  wcache := []
  retiring := none
  gated := []
  chkBad := []

/-- The device control block at reset: FRTO (R141), PTO (R461), HBTO (R149), STCI (R63), REGTO (R418), MIGCTL (R70)
and PLIM (R471) have the reset values of their rules; every other register is zero by its rule, or by log entry 3. -/
def Dcb.reset : Dcb where
  otb := 0
  rgb := 0
  stb := 0
  sstb := 0
  stci := 2 ^ 30
  frto := 28000
  pto := 2800000
  hbto := 2800000
  regto := 2 ^ 24
  tlbinv := 0
  tlbiasid := 0
  lcinv := 0
  kret := 0
  migctl := 0x10000B
  gdbg := 0
  merb := 0
  mehd := 0
  metl := 0
  medrop := 0
  crb := 0
  crhd := 0
  crtl := 0
  crdrop := 0
  htrb := 0
  hthd := 0
  httl := 0
  htdrop := 0
  plive := 0
  pmep := 0
  pfail := 0
  lattol := 0
  pwrctl := 2800
  pwrst := 1400
  drst := 0
  mecc := 0
  munc := 0
  chkm := 0
  cicor := 0
  resrt := 0
  lnkrt := 0
  mshrt := 0
  fpst := 0
  devnum := 0
  fxb := 0
  fxop := 0
  kdata := List.replicate 8 0
  kload := 0
  wbref := 0
  kvw := List.replicate 64 0
  kvwNew := List.replicate 64 none
  rrd := List.replicate 64 0
  rcrt := List.replicate 16 0
  lqcfg := List.replicate 64 0
  lqptr := List.replicate 64 0
  keys := []
  msix := 0

def Fab.reset : Fab where
  loc := []
  otc := []
  reqs := []
  nextTag := 0
  migs := []
  inbound := []
  frees := []
  nomCount := []
  outbox := []
  peersOut := []
  peersIn := []
  pod := []
  colTab := []
  colOpen := []
  colDone := []
  epochWait := false
  retries := []
  mapDev := []
  members := []
  dead := []

def Rcv.reset : Rcv where
  rcpt := []
  closing := []
  commits := []
  order := []
  nextTag := 0
  dq := []
  inflight := []
  scanning := []
  lostDie := []
  lostFor := []
  lostTags := []
  rdurs := []
  sweeps := []
  verify := []

def Sched.reset : Sched where
  launches := []
  nextLaunch := 0
  blocks := []
  nextBlock := 0
  saved := []
  rr := List.replicate 8 0
  q63 := false
  heads := []
  depWait := []
  prefer := none
  dieAt := [0, 0, 0, 0]

def Eng.reset : Eng where
  walks := []
  nextWalk := 0
  walkQ := []
  holds := []
  regens := []
  tileQ := []
  residueBad := []

def HostSt.reset : HostSt where
  bisnp := []
  down := false
  answers := []
  idle := 0
  lastReq := 0
  clocks := List.replicate 4 1400
  off := false
  booted := true
  meas := (List.range 8).map (Config.spdmAnswer 0)
  resets := 0

/-- The machine right after a whole-device reset (R188, R472): no block is resident, no queue is enabled, caches are
empty, every register is as its rule gives. -/
def State.reset : State where
  pending := []
  timers := []
  cycle := 0
  free := 0
  issue := none
  msg := none
  gangs := []
  cores := []
  mem := []
  lmeta := []
  coh := Coh.reset
  dcb := Dcb.reset
  fab := Fab.reset
  rcv := Rcv.reset
  sched := Sched.reset
  eng := Eng.reset
  host := HostSt.reset

end Sys2Proof.Machine
end

