-- ==== Sys2Proof/Machine/Operands.lean ====
section
/-! DEFINITION. Lanes, windows and operands of a fragment (R202 to R215, R257 to R265), and the plan of a register
instruction: the registers it names and reads, the causes and flags it meets, and what it writes. -/

namespace Sys2Proof.Machine

/-! ### Lane masks -/

/-- The 32 lanes of a gang as a mask. -/
def allLanes : Nat := 0xFFFFFFFF

/-- The bits of a that are clear in b. -/
def andNot (a b : Nat) : Nat := a ^^^ (a &&& b)

/-- Lane numbers of a mask, ascending (R10). -/
def laneList (m : Nat) : List Nat := (List.range 32).filter (fun l => bit m l)

/-- The mask of a list of numbers. -/
def maskOfList (ls : List Nat) : Nat := ls.foldl (fun a l => a ||| 2 ^ l) 0

/-- Number of lanes of a mask. -/
def laneCount (m : Nat) : Nat := (laneList m).length

/-- The lanes that are live (R207). -/
def Gang.live (g : Gang) : Nat := andNot allLanes g.dl

/-- The lanes that are live and have not finished (R211). -/
def Gang.liveUnf (g : Gang) : Nat := andNot g.live g.fin

/-- A gang slice by number. -/
def Gang.slice (g : Gang) (s : Nat) : Slice := g.slices.getD s ⟨0, 0, []⟩

/-- Slice s, standing as x, is neither dead nor finished: it holds a live lane, and an unfinished one or a divergence stack
(R211, R221).  A handler that has killed every lane goes on to its TRET (R444). -/
def Gang.sliceLives (g : Gang) (s : Nat) (x : Slice) : Bool :=
  (g.hm && g.live == 0) || fld g.liveUnf (4 * s) 4 != 0 || (fld g.live (4 * s) 4 != 0 && !x.stk.isEmpty)
def Gang.sliceAlive (g : Gang) (s : Nat) : Bool := g.sliceLives s (g.slice s)

/-- The live unfinished slices, as a mask. -/
def Gang.aliveSlices (g : Gang) : Nat := maskOfList ((List.range 8).filter (fun s => g.sliceAlive s))

/-- The slices with a live unfinished lane, as a mask (R441). -/
def Gang.laneSlices (g : Gang) : Nat := maskOfList ((List.range 8).filter (fun s => fld g.liveUnf (4 * s) 4 != 0))

/-- `active` of R213: the lanes of the issuing path. -/
def Gang.active (g : Gang) (f : Frag) : Nat :=
  (List.range 8).foldl (fun a s => if bit f.slices s then a ||| (fld (g.slice s).mask 0 4 * 2 ^ (4 * s)) else a) 0
    &&& g.liveUnf

/-- m(n): m0 reads as `active` (R213). -/
def Gang.mask (g : Gang) (f : Frag) (n : Nat) : Nat := if n = 0 then g.active f else (g.mreg.get n).toNat

/-- `act` under a MODX (R264). -/
def Gang.act (g : Gang) (f : Frag) (m : Modx) : Nat :=
  if m.men then g.active f &&& g.mask f m.mreg else g.active f

/-- The lanes that MZ zeroes: those of `active` outside `act` (R264). -/
def Gang.zeroed (g : Gang) (f : Frag) (m : Modx) : Nat := if m.mz then andNot (g.active f) (g.act f m) else 0

/-! ### Registers -/

/-- Number of vector and uniform registers reachable (R214). -/
def Gang.vLim (g : Gang) : Nat := if g.hm then g.av else g.av - 16
def Gang.uLim (g : Gang) : Nat := if g.hm then g.asz else g.asz - 32

/-- vr and ur of R10. -/
def Frag.vr (f : Frag) (x : Nat) : Nat := f.xv + x
def Frag.ur (f : Frag) (x : Nat) : Nat := f.xs + x

/-- V(n, l), S(n), and the pairs VP(n, l), SP(n) (R10). -/
def Gang.v (g : Gang) (n l : Nat) : Nat := (g.vreg.get (32 * n + l)).toNat
def Gang.u (g : Gang) (n : Nat) : Nat := (g.sreg.get n).toNat
def Gang.vp (g : Gang) (n l : Nat) : Nat := g.v n l + 2 ^ 32 * g.v (n + 1) l
def Gang.up (g : Gang) (n : Nat) : Nat := g.u n + 2 ^ 32 * g.u (n + 1)

/-- A single register or a pair. -/
def Gang.vw (g : Gang) (wide : Bool) (n l : Nat) : Nat := if wide then g.vp n l else g.v n l
def Gang.uw (g : Gang) (wide : Bool) (n : Nat) : Nat := if wide then g.up n else g.u n

/-- The absolute registers of an operand. -/
def regs (wide : Bool) (n : Nat) : List Nat := if wide then [n, n + 1] else [n]

/-- Writes of uniform registers, vector elements and mask registers. A write makes the element correctable again. -/
def Gang.setU (g : Gang) (n v : Nat) : Gang :=
  { g with sreg := g.sreg.put n (BitVec.ofNat 32 v), badU := g.badU.filter (fun x => x != n) }
def Gang.setV (g : Gang) (n l v : Nat) : Gang :=
  { g with vreg := g.vreg.put (32 * n + l) (BitVec.ofNat 32 v), badV := g.badV.filter (fun x => x != 32 * n + l) }
/-- A write naming m0 is discarded (R259). -/
def Gang.setM (g : Gang) (n v : Nat) : Gang :=
  if n = 0 then g else { g with mreg := g.mreg.put n (BitVec.ofNat 32 v), badM := g.badM.filter (fun x => x != n) }

/-! ### The plan of a register instruction -/

/-- What a register instruction names, reads, meets and writes.  `useV` and `useU` are the absolute registers whose
bounds R214 checks, `rdLanes` the lanes whose elements of `rdV` are read, `rdX` further elements read, as (lane, register,
element's lane), `cause` the TCAUSE bits it raises, `entries` the fault-record entries of a VOFF; `scalar` and `masks` mark what no vector ALU lane executes (R276). -/
structure Plan where
  useV : List Nat := []
  useU : List Nat := []
  rdV : List Nat := []
  rdU : List Nat := []
  rdM : List Nat := []
  rdLanes : Nat := 0
  rdX : List (Nat × Nat × Nat) := []
  cause : Nat := 0
  entries : List (Nat × Nat × Nat × Nat × Nat) := []
  flags : Nat := 0
  wV : List (Nat × Nat × Nat) := []
  wU : List (Nat × Nat) := []
  wM : List (Nat × Nat) := []
  deadsrc : Bool := false
  scalar : Bool := false
  masks : Bool := false
  deriving DecidableEq, Repr

/-- The writes of a plan, except those to lanes of `skip`. -/
def Gang.applyPlan (g : Gang) (p : Plan) (skip : Nat) : Gang :=
  let g := p.wV.foldl (fun g w => if bit skip w.2.1 then g else g.setV w.1 w.2.1 w.2.2) g
  let g := p.wU.foldl (fun g w => g.setU w.1 w.2) g
  let g := p.wM.foldl (fun g w => g.setM w.1 w.2) g
  if p.deadsrc then { g with deadsrc := true } else g

/-- A plan of which some lanes disagreed (R228), with `q` the same plan without them: their causes, flags and mask bits are left
out, and their results are not written. -/
def Plan.without (p q : Plan) (alu : Nat) : Plan :=
  { q with wV := p.wV.filter (fun w => !bit alu w.2.1) }

/-- The registers a plan names are within the allotment (R214). -/
def Gang.inBounds (g : Gang) (p : Plan) : Bool :=
  p.useV.all (fun n => decide (n < g.vLim)) && p.useU.all (fun n => decide (n < g.uLim))

/-- Writes of one value per lane to a single register or pair. -/
def wLane (wide : Bool) (n l v : Nat) : List (Nat × Nat × Nat) :=
  if wide then [(n, l, v % 2 ^ 32), (n + 1, l, v / 2 ^ 32 % 2 ^ 32)] else [(n, l, v % 2 ^ 32)]

/-- Writes of a uniform register or pair. -/
def wUni (wide : Bool) (n v : Nat) : List (Nat × Nat) :=
  if wide then [(n, v % 2 ^ 32), (n + 1, v / 2 ^ 32 % 2 ^ 32)] else [(n, v % 2 ^ 32)]

/-- One result per lane of act, and zeroes where MZ asks for them (R264). -/
def wVec (g : Gang) (f : Frag) (m : Modx) (wide : Bool) (n : Nat) (r : Nat → Nat) : List (Nat × Nat × Nat) :=
  (laneList (g.act f m)).flatMap (fun l => wLane wide n l (r l))
    ++ (laneList (g.zeroed f m)).flatMap (fun l => wLane wide n l 0)

/-- The masks a MODX reads. -/
def modxMasks (m : Modx) : List Nat := if m.men then [m.mreg] else []

/-- The slot of the fourth operand: OP4, or d (R264). -/
def op4Slot (m : Modx) (d : Nat) : Nat := if m.op4v then m.op4 else d

/-- A mask destination (R292): bits of act from `f`, zeroes where MZ asks, the others kept. -/
def maskWrite (g : Gang) (f : Frag) (m : Modx) (md : Nat) (b : Nat → Bool) : Nat :=
  let old := (g.mreg.get md).toNat
  (andNot old (g.act f m ||| g.zeroed f m)) ||| maskOfList ((laneList (g.act f m)).filter b)

/-! ### Integer values (R229, R231, R275) -/

/-- Type codes 0 S32, 1 N32, 2 S64, 3 N64: width and signedness (R275). -/
def tWidth (t : Nat) : Nat := if t = 2 ∨ t = 3 then 64 else 32
def tSigned (t : Nat) : Bool := t % 2 == 0
def tVal (t w : Nat) : Int := intVal (tSigned t) (tWidth t) w

/-- The result written: clamped under SAT, else modulo 2^n (R233, R278). -/
def tOut (t : Nat) (sat : Bool) (x : Int) : Nat :=
  wrapN (tWidth t) (if sat then satInt (tSigned t) (tWidth t) x else x)

/-- Leading zeros of an n-bit pattern. -/
def clzN (n x : Nat) : Nat := if x % 2 ^ n = 0 then n else n - 1 - Nat.log2 (x % 2 ^ n)

/-- One bits of an n-bit pattern. -/
def popN (n x : Nat) : Nat := (List.range n).foldl (fun a i => if bit x i then a + 1 else a) 0

/-- Pattern-wise operation on n bits of an integer. -/
def bitsOp (n : Nat) (op : Nat → Nat → Nat) (x y : Int) : Int := (op (wrapN n x) (wrapN n y) : Nat)

/-- exact(op, x, y) for the operations of R278; y is the shift amount for shifts. -/
inductive IntOp where
  | add | sub | mul | mulh | div | rem | and | or | xor | shl | shr | sra | min | max | clz | popc | abs
  deriving DecidableEq, Repr

def IntOp.exact (op : IntOp) (t : Nat) (x y : Int) : Int :=
  let n := tWidth t
  match op with
  | .add => x + y
  | .sub => x - y
  | .mul => x * y
  | .mulh => (x * y) / (2 ^ n : Nat)
  | .div => Int.tdiv x y
  | .rem => x - y * Int.tdiv x y
  | .and => bitsOp n (· &&& ·) x y
  | .or => bitsOp n (· ||| ·) x y
  | .xor => bitsOp n (· ^^^ ·) x y
  | .shl => x * (2 ^ y.toNat : Nat)
  | .shr => (wrapN n x : Int) / (2 ^ y.toNat : Nat)
  | .sra => sextN n (wrapN n x) / (2 ^ y.toNat : Nat)
  | .min => if x ≤ y then x else y
  | .max => if x ≤ y then y else x
  | .clz => (clzN n (wrapN n x) : Nat)
  | .popc => (popN n (wrapN n x) : Nat)
  | .abs => if x < 0 then -x else x

/-- Shift operations take their amount from one 32-bit register, modulo n (R278, R286). -/
def IntOp.isShift (op : IntOp) : Bool := op == .shl || op == .shr || op == .sra
/-- Operations with no second operand. -/
def IntOp.unary (op : IntOp) : Bool := op == .clz || op == .popc || op == .abs
/-- Operations that raise DIVZ on a zero divisor. -/
def IntOp.divides (op : IntOp) : Bool := op == .div || op == .rem

/-- The conditions of R279: 0 EQ, 1 NE, 2 LT, 3 LE, 4 GT, 5 GE. -/
def intCond (cc : Nat) (x y : Int) : Bool :=
  match cc with
  | 0 => x == y
  | 1 => x != y
  | 2 => decide (x < y)
  | 3 => decide (x ≤ y)
  | 4 => decide (y < x)
  | _ => decide (y ≤ x)

/-- An index extended for address formation (R281, R288): 0 sign-extended 32, 1 zero-extended 32, 2 a 64-bit pair. -/
def extIndex (t w : Nat) : Int := if t = 0 then sextN 32 w else if t = 1 then (w % 2 ^ 32 : Nat) else sextN 64 w

end Sys2Proof.Machine
end

