-- ==== Sys2Proof/Machine/Flags.lean ====
section
/-! DEFINITION. TCAUSE bits (R438), and every flag computation of the floating-point status (R237 to R239). -/

namespace Sys2Proof.Machine

/-- TCAUSE bit numbers (R438). -/
def cILLEGAL : Nat := 0
def cBOUNDS : Nat := 1
def cALIGN : Nat := 2
def cPAGEF : Nat := 3
def cOBJF : Nat := 4
def cPROT : Nat := 5
def cFPX : Nat := 6
def cDIVZ : Nat := 7
def cSTKOV : Nat := 8
def cREGDL : Nat := 9
def cREGMM : Nat := 10
def cLANEKILL : Nat := 11
def cALUERR : Nat := 12
def cENGF : Nat := 13
def cRECF : Nat := 14
def cTASKOV : Nat := 15
def cPEERLOST : Nat := 16
def cSYNCTO : Nat := 17
def cUNITABS : Nat := 18
def cTRAPI : Nat := 19
def cBRKPT : Nat := 20
def cHALTREQ : Nat := 21
def cPREEMPT : Nat := 22
def cSLICE : Nat := 23
def cHNDF : Nat := 24

/-- The synchronous causes: class 1 of R439. -/
def class1 : Nat := 0b11001110011111111111
/-- The causes of a class of R439. -/
def classBits (c : Nat) : Nat :=
  match c with
  | 1 => class1
  | 2 => 2 ^ cLANEKILL + 2 ^ cALUERR
  | 3 => 2 ^ cBRKPT + 2 ^ cHALTREQ
  | 4 => 2 ^ cPEERLOST + 2 ^ cSYNCTO
  | 5 => 2 ^ cPREEMPT
  | 6 => 2 ^ cSLICE
  | _ => 0
/-- The lowest class with a bit in P, 0 for none (R441). -/
def lowestClass (p : Nat) : Nat := ((List.range 7).find? (fun c => classBits c &&& p != 0)).getD 0

/-- The trap enables of FPCTL aligned with the flags of FPSTAT (R237). -/
def fpEnables (fpctl : Nat) : Nat := fld fpctl 8 5
/-- An instruction's flags raise FPX (R239). -/
def fpxRaised (fpctl flags : Nat) : Bool := fpEnables fpctl &&& flags != 0
/-- FPSTAT after an instruction with these flags (R238). -/
def Gang.orFlags (g : Gang) (flags : Nat) : Gang := { g with fpstat := g.fpstat ||| flags }
/-- Flags of several operations together (R238, R296). -/
def orAll (fs : List Nat) : Nat := fs.foldl (· ||| ·) 0
/-- FPCTL.F8OV (R237). -/
def f8ov (fpctl : Nat) : Bool := bit fpctl 15
/-- FPCTL after a write (R237): reserved bits stay zero, a reserved RM leaves RM. -/
def fpctlWrite (old v : Nat) : Nat :=
  (v &&& 0x9F00) ||| (if v % 8 < 5 then v % 8 else old % 8)

end Sys2Proof.Machine
end

