-- ==== Sys2Proof/Machine/Aes.lean ====
section
/-! DEFINITION. The line cipher of R153: AES-256 (FIPS 197) in the XTS mode of IEEE 1619.  Bytes are numbers below 256; a
number stands for its bytes, least significant first. -/

namespace Sys2Proof.Machine

/-! ### The field of 2^8 elements -/

def gfDouble (b : Nat) : Nat := if b < 128 then 2 * b else (2 * b) ^^^ 0x11B
def gfMul (a b : Nat) : Nat :=
  ((List.range 8).foldl (fun (acc : Nat × Nat) i => (if bit b i then acc.1 ^^^ acc.2 else acc.1, gfDouble acc.2)) (0, a)).1
/-- The inverse, 0 for 0: the power 254. -/
def gfInv (a : Nat) : Nat :=
  ((List.range 7).foldl (fun (acc : Nat × Nat) _ => let q := gfMul acc.2 acc.2; (gfMul acc.1 q, q)) (1, a)).1
def rotl8 (x n : Nat) : Nat := x * 2 ^ n % 256 + x / 2 ^ (8 - n)

def sbox (x : Nat) : Nat :=
  let y := gfInv x
  y ^^^ rotl8 y 1 ^^^ rotl8 y 2 ^^^ rotl8 y 3 ^^^ rotl8 y 4 ^^^ 0x63
def sboxInv (y : Nat) : Nat := gfInv (rotl8 y 1 ^^^ rotl8 y 3 ^^^ rotl8 y 6 ^^^ 0x05)

/-! ### AES-256 on a state of 16 bytes, column after column -/

def xorBytes (a b : List Nat) : List Nat := List.zipWith (· ^^^ ·) a b
/-- Rows shift by their number, times 1 forwards or 3 backwards. -/
def shiftRows (times : Nat) (st : List Nat) : List Nat :=
  (List.range 16).map (fun i => st.getD (4 * ((i / 4 + times * (i % 4)) % 4) + i % 4) 0)
/-- Columns times a circulant matrix, given by its first row. -/
def mixColumns (row : List Nat) (st : List Nat) : List Nat :=
  (List.range 16).map (fun i =>
    (List.range 4).foldl (fun a j => a ^^^ gfMul (st.getD (4 * (i / 4) + j) 0) (row.getD ((j + 4 - i % 4) % 4) 0)) 0)

/-- The 60 words of the key schedule. -/
def keyWords (key : List Nat) : List (List Nat) :=
  (List.range 52).foldl (fun ws j =>
    let i := j + 8
    let t := ws.getD (i - 1) []
    let t := if i % 8 = 0 then
        xorBytes ((t.drop 1 ++ t.take 1).map sbox) [2 ^ (i / 8 - 1), 0, 0, 0]
      else if i % 8 = 4 then t.map sbox else t
    ws ++ [xorBytes (ws.getD (i - 8) []) t])
    ((List.range 8).map (fun w => (key.drop (4 * w)).take 4))
def roundKey (ws : List (List Nat)) (r : Nat) : List Nat := ((ws.drop (4 * r)).take 4).flatten

def aesEnc (ws : List (List Nat)) (block : List Nat) : List Nat :=
  let st := (List.range 13).foldl (fun st r =>
    xorBytes (mixColumns [2, 3, 1, 1] (shiftRows 1 (st.map sbox))) (roundKey ws (r + 1))) (xorBytes block (roundKey ws 0))
  xorBytes (shiftRows 1 (st.map sbox)) (roundKey ws 14)
def aesDec (ws : List (List Nat)) (block : List Nat) : List Nat :=
  let st := (List.range 13).foldl (fun st r =>
    mixColumns [14, 11, 13, 9] (xorBytes ((shiftRows 3 st).map sboxInv) (roundKey ws (13 - r)))) (xorBytes block (roundKey ws 14))
  xorBytes ((shiftRows 3 st).map sboxInv) (roundKey ws 0)

/-! ### XTS over a line of eight blocks -/

def blockBytes (n v : Nat) : List Nat := (List.range n).map (fun i => v / 256 ^ i % 256)
def ofBytes (bs : List Nat) : Nat := bs.foldr (fun b a => b + 256 * a) 0
/-- The next tweak: times α in the field of 2^128 elements. -/
def tweakNext (t : Nat) : Nat := if t < 2 ^ 127 then 2 * t else (2 * t % 2 ^ 128) ^^^ 0x87

/-- A line enciphered or deciphered under the first key by one block function; `keys` are the two keys of R153, `a` the line's
physical address. -/
def xtsLine (block : List (List Nat) → List Nat → List Nat) (keys : Nat × Nat) (a data : Nat) : Nat :=
  let w1 := keyWords (blockBytes 32 keys.1)
  let w2 := keyWords (blockBytes 32 keys.2)
  ((List.range 8).foldl (fun (acc : Nat × Nat) j =>
    let t := blockBytes 16 acc.2
    let c := xorBytes (block w1 (xorBytes (blockBytes 16 (data / 2 ^ (128 * j))) t)) t
    (acc.1 + ofBytes c * 2 ^ (128 * j), tweakNext acc.2)) (0, ofBytes (aesEnc w2 (blockBytes 16 a)))).1
def xtsEnc (keys : Nat × Nat) (a data : Nat) : Nat := xtsLine aesEnc keys a data
def xtsDec (keys : Nat × Nat) (a data : Nat) : Nat := xtsLine aesDec keys a data

end Sys2Proof.Machine
end

