-- ==== Sys2Proof/Machine/Lines.lean ====
section
/-! DEFINITION. Lines and where they live: names and homes (R101, R104, R105), physical memory with its metadata and
keys (R110, R111, R153), recovery units (R182 to R188), copies in slices (R125), and the accesses that the device's own
engines and controllers make when no coherence transaction is open. -/

namespace Sys2Proof.Machine

/-! ### Placing -/

/-- Compute die of a core (log entry 8). -/
def dieOf (core : Nat) : Nat := core / 64

/-- Adds a message at the end of those waiting. -/
def State.push (s : State) (m : Msg) : State := { s with pending := s.pending ++ [m] }
/-- A message due n cycles from now. -/
def State.after (s : State) (n : Nat) (m : Msg) : State := { s with timers := s.timers ++ [(s.cycle + n, m)] }

/-- Physical addresses of populated memory (R33). -/
def populated (a : Nat) : Bool :=
  decide (a < Config.hbmSize) || decide (Config.ddrBase ≤ a ∧ a < Config.ddrBase + Config.ddrSize)
/-- A range lies wholly in one populated part. -/
def populatedRange (a n : Nat) : Bool :=
  decide (a + n ≤ Config.hbmSize) || decide (Config.ddrBase ≤ a ∧ a + n ≤ Config.ddrBase + Config.ddrSize)

/-- The I/O die whose stacks or channels hold an address (R108, R109). -/
def ioDieOf (a : Nat) : Nat :=
  if a < Config.ddrBase then (fld a 12 3 ^^^ fld a 15 3 ^^^ fld a 18 3) / 2
  else let o := a - Config.ddrBase; (fld o 12 4 ^^^ fld o 16 4) / 4

/-- A .O line of an object (R101). -/
def objLine (ident off key : Nat) : LineId := ⟨true, ident * 2 ^ 29 + off / 128 % 2 ^ 29, key⟩
def physLine (a key : Nat) : LineId := ⟨false, a / 128, key⟩
/-- Two names of one line: a .O line keeps its name when its object moves between this device, under the entry's key, and
another, under 0x3FF (R101, R132, R168). -/
def LineId.same (a b : LineId) : Bool :=
  a.obj == b.obj && a.name == b.name && (a.key == b.key || (a.obj && (a.key == 0x3FF || b.key == 0x3FF)))
def LineId.ident (l : LineId) : Nat := l.name / 2 ^ 29
def LineId.off (l : LineId) : Nat := l.name % 2 ^ 29 * 128

/-- The KV window that homes an object, if any (R105). -/
def State.kvWindow (s : State) (ident : Nat) : Option Nat :=
  s.dcb.kvw.find? (fun v => bit v 0 && fld v 36 28 == ident)

/-- The home slice of a line (R104, R105). -/
def State.home (s : State) (l : LineId) : Nat :=
  if l.obj then
    match s.kvWindow l.ident with
    | some v => (fld v 7 7 + l.off / 16512) % 128
    | none => (List.range 9).foldl (fun h i => h ^^^ fld l.name (7 * i) 7) 0
  else
    let a := l.name * 128
    fld a 7 7 ^^^ fld a 14 7 ^^^ fld a 21 7 ^^^ fld a 28 7 ^^^ fld a 35 7 ^^^ fld a 42 4

/-- The set of a line in its slice (R104, R105). -/
def State.setOf (s : State) (l : LineId) : Nat :=
  if l.obj then
    match s.kvWindow l.ident with
    | some _ => (l.off / 16512 * 129 + l.off % 16512 / 128) % 1024
    | none => (l.name ^^^ (l.name / 2 ^ 10) ^^^ (l.name / 2 ^ 20)) % 1024
  else
    let a := l.name * 128
    fld a 7 10 ^^^ fld a 17 10

/-- The compute die of the home slice, and the local slice of a die (R117). -/
def State.homeDie (s : State) (l : LineId) : Nat := s.home l / 32
def State.localSlice (s : State) (l : LineId) (d : Nat) : Nat :=
  if s.homeDie l = d then s.home l else 32 * d + s.home l % 32

/-! ### Line metadata and keys -/

def State.lm (s : State) (la : Nat) : LineMeta := (s.lmeta.get la).getD LineMeta.fresh
def State.setLm (s : State) (la : Nat) (m : LineMeta) : State := { s with lmeta := s.lmeta.set la m }

/-- What a key identifier enciphers under: the drawn key of identifier 0, or loaded material (R153). -/
def State.keyTag (s : State) (kid : Nat) : Nat :=
  if kid = 0 then 1 + 2 * s.host.resets
  else match s.dcb.keys.get kid with
    | some (k1, k2) => 2 + 2 * (k1 + 2 ^ 256 * k2)
    | none => 0

/-- The two keys of a tag. -/
def tagKeys (tag : Nat) : Nat × Nat :=
  if tag % 2 = 1 then Config.drawnKey (tag / 2) else ((tag / 2 - 1) % 2 ^ 256, (tag / 2 - 1) / 2 ^ 256)

/-- An identifier under which nothing can be accessed: empty, or never assigned (R132, R153). -/
def State.keyEmpty (s : State) (kid : Nat) : Bool := kid != 0 && !(s.dcb.keys.has kid)

/-- The bytes of a number, as numbers. -/
def byteList (n v : Nat) : List Nat := (List.range n).map (fun i => lineByte v i)

/-- The check value of a line (R145). -/
def chkOf (data : Nat) : Nat := crc32c (byteList 128 data)

/-- A line as memory delivers it under a key identifier (R110, R111, R153): the newest value on its way to memory or in a
durable queue (R186, R188), else the stored bytes, held as they were before they were enciphered.  Bytes written under another
key are deciphered by AES-XTS with the line's address as the tweak; nothing is defined of what a whole-device reset leaves
(R472). -/
def State.memLine (s : State) (la kid : Nat) : Nat × Bool :=
  match s.rcv.inflight.reverse.find? (fun e => e.2.1 == la) with
  | some (_, _, d, _, p) => (d, p)
  | none => match s.rcv.dq.reverse.find? (fun e => e.2.1 == la) with
    | some (_, _, d, _, p) => (d, p)
    | none =>
      let m := s.lm la
      let raw := Mem.load s.mem (la * 128) 128
      if (m.key = 0 ∧ s.host.resets = 0) ∨ m.key = s.keyTag kid then (raw, m.poison)
      else
        let d := if m.key = 0 ∨ s.keyTag kid = 0 then Config.decipher raw m.key (s.keyTag kid) la % 2 ^ 1024
          else xtsDec (tagKeys (s.keyTag kid)) (la * 128) (xtsEnc (tagKeys m.key) (la * 128) raw)
        (d, m.poison || (m.chkv && m.chk != chkOf d))

/-- A line written to memory with its metadata (R110, R146). -/
def State.memStore (s : State) (la kid data : Nat) (poison : Bool) (stamp : Nat) : State :=
  { s with mem := Mem.store s.mem (la * 128) 128 data
           lmeta := s.lmeta.set la ⟨stamp, poison, chkOf data, true, s.keyTag kid⟩ }

/-! ### Recovery regions and units -/

/-- Fields of RRD.n (R179). -/
def rrdEn (v : Nat) : Bool := bit v 0
def rrdBusy (v : Nat) : Bool := bit v 2
def rrdTpol (v : Nat) : Bool := bit v 3
def rrdBase (v : Nat) : Nat := fld v 16 16 * 2 ^ 30
def rrdSize (v : Nat) : Nat := fld v 32 16 * 2 ^ 30
def State.rrd (s : State) (n : Nat) : Nat := s.dcb.rrd.getD n 0

/-- The enabled region that holds an address (R181). -/
def State.regionOf (s : State) (a : Nat) : Option Nat :=
  (List.range 64).find? (fun n => rrdEn (s.rrd n) && decide (rrdBase (s.rrd n) ≤ a ∧ a < rrdBase (s.rrd n) + rrdSize (s.rrd n)))

/-- stamp(P) of R182. -/
def stampOf (p : Nat) : Nat := if p = 0 then 0 else (p - 1) % 65535 + 1

/-- k(a, d, s) of R185. -/
def contrib (a d st : Nat) : Nat := crc64 (byteList 8 a ++ byteList 128 d ++ byteList 2 st)

def xorAt (l : List Nat) (i v : Nat) : List Nat := l.set i (l.getD i 0 ^^^ v)
def xorAll (l : List Nat) : Nat := l.foldl (· ^^^ ·) 0

/-- The newest accepted data and poison of a line (R186): in the durable queue, else in memory. -/
def State.accLine (s : State) (la : Nat) : Nat × Bool :=
  match s.rcv.dq.reverse.find? (fun e => e.2.1 == la) with
  | some (_, _, d, _, p) => (d, p)
  | none => (Mem.load s.mem (la * 128) 128, (s.lm la).poison)

/-- The region of a line with its record, and the open and the committed point that the line's I/O die acts for: one that has
closed the open point acts for the next (R190). -/
def State.pointsOf (s : State) (la : Nat) : Option (Nat × Rcpt × Nat × Nat) :=
  (s.regionOf (la * 128)).bind (fun n => (s.rcv.rcpt.get n).map (fun r =>
    let k := if bit ((s.rcv.closing.get n).getD 0) (ioDieOf (la * 128)) then 1 else 0
    (n, r, r.opt + k, r.cpt + k)))
/-- A containment scan of a region is in progress. -/
def State.scanning (s : State) (n : Nat) : Bool := match s.rcv.rcpt.get n with | some r => bit r.flags 1 | none => false

/-- Acceptance of a line by its recovery unit (R186): digests, stamp and durable queue in one step. -/
def State.rcvAccept (s : State) (la data kid : Nat) (poison : Bool) : State :=
  let a := la * 128
  let io := ioDieOf a
  let old := s.accLine la
  let stampNow := (s.lm la).stamp
  match s.pointsOf la with
  | none => { s with rcv := { s.rcv with dq := s.rcv.dq ++ [(io, la, data, stampNow, poison)] }
                     lmeta := s.lmeta.set la { s.lm la with key := s.keyTag kid } }
  | some (n, r, o, c) =>
      let so := stampOf o
      let sc := stampOf c
      let r := if stampNow = so then { r with odig := xorAt r.odig io (contrib a old.1 so) }
        else if stampNow = sc ∧ 1 ≤ c then { r with ldig := xorAt r.ldig io (contrib a old.1 sc) } else r
      let r := { r with odig := xorAt r.odig io (contrib a data so) }
      { s with rcv := { s.rcv with rcpt := s.rcv.rcpt.set n r, dq := s.rcv.dq ++ [(io, la, data, so, poison)] }
               lmeta := s.lmeta.set la { s.lm la with stamp := so, key := s.keyTag kid } }

/-- A line's new value leaves for memory: to the recovery unit for a line of a region (R187), else written. -/
def State.memPut (s : State) (die la kid data : Nat) (poison : Bool) : State :=
  match s.regionOf (la * 128) with
  | some _ =>
    ({ s with rcv := { s.rcv with inflight := s.rcv.inflight ++ [(die, la, data, kid, poison)] } }).push
      (.durableAccept (ioDieOf (la * 128)))
  | none => s.memStore la kid data poison (s.lm la).stamp

/-! ### Copies in slices -/

/-- The copy of a line at a die. -/
def State.sl (s : State) (d : Nat) (l : LineId) : Option SLine :=
  s.coh.lines.find? (fun x => x.die == d && x.line == l)
/-- The coherence state of a die's copy. -/
def State.slSt (s : State) (d : Nat) (l : LineId) : Moesi :=
  match s.sl d l with | some x => x.st | none => .i
def State.dropSl (s : State) (d : Nat) (l : LineId) : State :=
  { s with coh := { s.coh with lines := s.coh.lines.filter (fun x => !(x.die == d && x.line == l)) } }
def State.putSl (s : State) (x : SLine) : State :=
  { s with coh := { s.coh with
      lines := s.coh.lines.filter (fun y => !(y.die == x.die && y.line == x.line)) ++ [x] } }

def State.dirOf (s : State) (l : LineId) : DirEnt :=
  (s.coh.dir.find? (fun e => e.line == l)).getD ⟨l, 0, none, false, 0, 0⟩
/-- Writes a directory entry; one that records nothing is freed (R126). -/
def State.putDir (s : State) (e : DirEnt) : State :=
  let rest := s.coh.dir.filter (fun x => x.line != e.line)
  { s with coh := { s.coh with
      dir := if e.pres = 0 ∧ !e.ps ∧ e.hlo = 0 ∧ e.hhi = 0 then rest else rest ++ [e] } }

/-- Adds or removes a die in PRES; the owner as given. -/
def DirEnt.withDie (e : DirEnt) (d : Nat) (own : Bool) : DirEnt :=
  { e with pres := e.pres ||| 2 ^ d
           own := if own then some d else if e.own = some d then none else e.own }
def DirEnt.without (e : DirEnt) (d : Nat) : DirEnt :=
  { e with pres := if bit e.pres d then e.pres - 2 ^ d else e.pres
           own := if e.own = some d then none else e.own }

/-! ### Object table (R20 to R25) -/

/-- Bytes [o, o + n) of a number. -/
def byteField (v o n : Nat) : Nat := v / 256 ^ o % 256 ^ n

/-- The newest value of a physical line under a key: a dirty copy, any copy, else memory. -/
def State.physNow (s : State) (l : LineId) : Nat × Bool :=
  match s.coh.lines.find? (fun x => x.line == l && (x.st == .m || x.st == .o || x.st == .wb)) with
  | some x => (x.data, x.poison)
  | none => match s.coh.lines.find? (fun x => x.line == l && x.st != .i) with
    | some x => (x.data, x.poison)
    | none => s.memLine l.name l.key

/-- n bytes of physical memory from a, read under a key identifier, and whether a line was poisoned. -/
def State.physRead (s : State) (kid a n : Nat) : Nat × Bool :=
  let first := a / 128
  let cnt := (a % 128 + n + 127) / 128
  let r := (List.range cnt).foldl (fun (acc : Nat × Bool) i =>
    let x := s.physNow ⟨false, first + i, kid⟩
    (acc.1 + x.1 * 256 ^ (128 * i), acc.2 || x.2)) (0, false)
  (r.1 / 256 ^ (a % 128) % 256 ^ n, r.2)

/-- Table-base fields (R462). -/
def tabBase (v : Nat) : Nat := fld v 8 38 * 256
def tabK (v : Nat) : Nat := fld v 0 5

def oteIdent (e : Nat) : Nat := byteField e 0 8 / 2 ^ 36
def oteSize (e : Nat) : Nat := byteField e 8 8
def oteFlags (e : Nat) : Nat := byteField e 16 2
def otePin (e : Nat) : Bool := bit (oteFlags e) 0
def oteRec (e : Nat) : Bool := bit (oteFlags e) 1
def oteCol (e : Nat) : Bool := bit (oteFlags e) 2
def oteTier (e : Nat) : Nat := fld (oteFlags e) 3 2
def oteColid (e : Nat) : Nat := byteField e 18 2
def oteMgen (e : Nat) : Nat := byteField e 20 1
def oteNext (e : Nat) : Nat := byteField e 21 1
def oteKey (e : Nat) : Nat := byteField e 22 2 % 1024
def oteMigst (e : Nat) : Nat := byteField e 32 32
def extBase (x : Nat) : Nat := fld x 16 30 * 2 ^ 16
def extLsz (x : Nat) : Nat := fld x 0 6
def oteExts (e : Nat) : List Nat := (List.range (min (oteNext e) 16)).map (fun k => byteField e (64 + 8 * k) 8)

/-- The address and contents of entry i of a table of 256-byte entries. -/
def State.oteAt (s : State) (i : Nat) : Nat := (s.physRead 0 (tabBase s.dcb.otb + 256 * i) 256).1
/-- Home index of a search (R23, R49). -/
def homeIndex (ident k : Nat) : Nat := (ident % 2 ^ 20 ^^^ (ident / 2 ^ 20 * 2 ^ 12)) % 2 ^ k

/-- A search of up to n probes from index i of a table of 2^k entries: the matching index, a free one, or neither. -/
def probe (get : Nat → Nat) (isFree : Nat → Bool) (isHit : Nat → Bool) (k : Nat) : Nat → Nat → Option (Nat × Bool)
  | 0, _ => none
  | n + 1, i =>
    let e := get (i % 2 ^ k)
    if isHit e then some (i % 2 ^ k, true)
    else if isFree e then some (i % 2 ^ k, false)
    else probe get isFree isHit k n (i + 1)

/-- x enters a set-associative structure, newest first; when its set already holds `ways` others, the oldest leaves. -/
def setPut {α : Type} (ways : Nat) (inSet : α → Bool) (l : List α) (x : α) : List α :=
  if (l.filter inSet).length < ways then x :: l else x :: (l.reverse.eraseP inSet).reverse

/-- The object table's entry for an object: index and contents (R23). -/
def State.oteFind (s : State) (ident : Nat) : Option (Nat × Nat) :=
  if tabK s.dcb.otb < 10 then none else
  match probe s.oteAt (fun e => byteField e 0 8 == 0) (fun e => byteField e 0 8 == ident * 2 ^ 36) (tabK s.dcb.otb) 32
      (homeIndex ident (tabK s.dcb.otb)) with
  | some (i, true) => some (i, s.oteAt i)
  | _ => none

/-- The memory controller of an address: one for each stack, then one for each DDR-5 channel (R108, R109). -/
def memCtl (a : Nat) : Nat :=
  if a < Config.ddrBase then fld a 12 3 ^^^ fld a 15 3 ^^^ fld a 18 3
  else let o := a - Config.ddrBase; 8 + (fld o 12 4 ^^^ fld o 16 4)
/-- The physical address of an offset, walking the extent list (R20). -/
def extAddr : List Nat → Nat → Option Nat
  | [], _ => none
  | x :: rest, off => if off < 2 ^ extLsz x then some (extBase x + off) else extAddr rest (off - 2 ^ extLsz x)

/-- The memory controller that serves an offset of an entry (log entry 62). -/
def oteCtl (e off : Nat) : Option Nat := (extAddr (oteExts e) off).map memCtl
/-- The copy of an entry that serves an offset: one held by the controller to which it leads (R25, log entry 62). -/
def State.otcHit (s : State) (ident off : Nat) : Option OtcEnt :=
  s.fab.otc.find? (fun c => c.ident == ident && oteCtl c.entry off == some c.mc)
/-- The entry an access to an offset is translated under (R25): its controller's copy, else the table's. -/
def State.oteFor (s : State) (ident off : Nat) : Option (Nat × Nat) :=
  match s.otcHit ident off with
  | some c => some (c.index, c.entry)
  | none => s.oteFind ident

/-- The controllers' copies of entry i, and of an object about to have it, go (R25). -/
def State.otcDrop (s : State) (i ident : Nat) : State :=
  { s with fab := { s.fab with otc := s.fab.otc.filter (fun c => c.index != i && c.ident != ident) } }

/-- Entry i of a table of n-byte entries. -/
def State.entAt (s : State) (base n i : Nat) : Nat := (s.physRead 0 (tabBase base + n * i) n).1
/-- IDENT as a table holds it: the pointer with OFFSET 0. -/
def identPtr (ident : Nat) : Nat := ident * 2 ^ 36
/-- The index of an object's entry in a table (R23). -/
def State.tabFind (s : State) (base n ident : Nat) : Option Nat :=
  if tabK base < 10 then none else
  match probe (s.entAt base n) (fun e => byteField e 0 8 == 0) (fun e => byteField e 0 8 == identPtr ident) (tabK base) 32
      (homeIndex ident (tabK base)) with
  | some (i, true) => some i
  | _ => none
/-- The registry's entry of an object born here (R49): index and contents. -/
def State.regFind (s : State) (ident : Nat) : Option (Nat × Nat) :=
  (s.tabFind s.dcb.rgb 32 ident).map (fun i => (i, s.entAt s.dcb.rgb 32 i))
/-- STATE of a registry entry in use; every value but LIVE and FREED, or a reserved byte set, is BADOTE, given as 3 (R9, R49). -/
def regState (e : Nat) : Nat :=
  if byteField e 11 1 ≠ 0 ∨ byteField e 20 12 ≠ 0 ∨ (byteField e 10 1 ≠ 1 ∧ byteField e 10 1 ≠ 2) then 3 else byteField e 10 1

/-- Extents lie in one enabled region, or in none (R24, R181). -/
def State.extRegion (s : State) (b sz : Nat) : Option Nat :=
  (List.range 64).find? (fun n => rrdEn (s.rrd n) &&
    decide (rrdBase (s.rrd n) ≤ b ∧ b + sz ≤ rrdBase (s.rrd n) + rrdSize (s.rrd n)))
def State.touchesRegion (s : State) (b sz : Nat) : Bool :=
  (List.range 64).any (fun n => rrdEn (s.rrd n) &&
    decide (rrdBase (s.rrd n) < b + sz ∧ b < rrdBase (s.rrd n) + rrdSize (s.rrd n)))

/-- A malformed entry (R24). -/
def State.oteBad (s : State) (e : Nat) : Bool :=
  let xs := oteExts e
  let rs := xs.map (fun x => s.extRegion (extBase x) (2 ^ extLsz x))
  oteNext e == 0 || decide (16 < oteNext e) || xs.any (fun x => decide (extLsz x < 16 ∨ 36 < extLsz x))
  || xs.any (fun x => !populated (extBase x))
  || decide (xs.foldl (fun a x => a + 2 ^ extLsz x) 0 < oteSize e)
  || (if oteRec e then rs.any Option.isNone || rs.any (fun r => r != rs.headD none)
      else xs.any (fun x => s.touchesRegion (extBase x) (2 ^ extLsz x)))
  || fld (oteFlags e) 5 11 != 0 || decide (1 < oteTier e) || fld (byteField e 22 2) 10 6 != 0
  || byteField e 24 8 != 0 || byteField e 192 64 != 0
  || decide (4 < oteMigst e / 2 ^ 232 % 8) || fld (oteMigst e / 2 ^ 232) 5 3 != 0 || byteField e 63 1 != 0
  || (List.range 4).any (fun j => fld (byteField e (32 + 4 * j) 4) 16 7 != 0)
  || xs.any (fun x => fld x 46 18 != 0 || fld x 6 10 != 0)
  || byteField e (64 + 8 * min (oteNext e) 16) (128 - 8 * min (oteNext e) 16) != 0

/-- Owner-side translation of an offset (R19 step 4, R24, R20): 0x13 BADOTE, 0x11 RANGE, 256 for the absent tier (R5).  Of an entry that
names an absent tier and is malformed besides, the spec does not say which comes first: the tier does (DESIGN CHOICE, log entry 83). -/
def State.oteAddr (s : State) (e off : Nat) : Except Nat Nat :=
  if oteTier e = 1 ∧ Config.ddrSize = 0 then .error 256
  else if s.oteBad e then .error 0x13
  else if oteSize e ≤ off then .error 0x11
  else match extAddr (oteExts e) off with
    | some a => if populated a then .ok a else .error 0x13
    | none => .error 0x13

/-- The physical line behind a line of this device, if there is one. -/
def State.backing (s : State) (l : LineId) : Option Nat :=
  if l.obj then
    match s.oteFor l.ident l.off with
    | some (_, e) => match s.oteAddr e l.off with | .ok a => some (a / 128) | .error _ => none
    | none => none
  else some l.name

/-- The line is of a region (R181): recovery-class. -/
def State.recLine (s : State) (l : LineId) : Bool :=
  match s.backing l with | some la => (s.regionOf (la * 128)).isSome | none => false

/-- A write to an object here is sent but not yet durable (R187, R188). -/
def State.objInflight (s : State) (ident : Nat) : Bool :=
  match s.oteFind ident with
  | none => false
  | some (_, e) => s.rcv.inflight.any (fun q => (oteExts e).any (fun x =>
      decide (extBase x ≤ 128 * q.2.1 ∧ 128 * q.2.1 < extBase x + 2 ^ extLsz x)))

/-- The newest value of any line of this device. -/
def State.lineNow (s : State) (l : LineId) : Nat × Bool :=
  match s.coh.lines.find? (fun x => x.line == l && (x.st == .m || x.st == .o || x.st == .wb)) with
  | some x => (x.data, x.poison)
  | none => match s.coh.lines.find? (fun x => x.line == l && x.st != .i) with
    | some x => (x.data, x.poison)
    | none => match s.backing l with
      | some la => s.memLine la l.key
      | none => (0, false)

/-- An error counter one up, saturating (R468). -/
def errInc (n : Nat) : Nat := min (n + 1) (2 ^ 64 - 1)
/-- An error counter or FPST changes, which raises MSI-X vector 3 (R465). -/
def State.errEvent (s : State) (h : Dcb → Dcb) : State := { s with dcb := { h s.dcb with msix := s.dcb.msix ||| 8 } }

/-- The check value fails at this receipt (R146): the line is poisoned and counted. -/
def State.chkReceipt (s : State) (l : LineId) (x : Nat × Bool) : State × (Nat × Bool) :=
  if s.coh.chkBad.contains l then
    (({ s with coh := { s.coh with chkBad := s.coh.chkBad.filter (· != l) } } : State).errEvent
      (fun d => { d with chkm := errInc d.chkm }), (x.1, true))
  else (s, x)

/-- A fault of an uncorrectable read is counted (R111, R468). -/
def State.countMunc (s : State) : State := s.errEvent fun d => { d with munc := errInc d.munc }

/-- A line of this device is read from memory (R111): a read that finds it uncorrectable, or whose check value fails, marks
its metadata and is counted. -/
def State.memMet (s : State) (l : LineId) (bad : Bool) : State :=
  if !bad || s.coh.lines.any (fun x => x.line == l && x.st != .i) then s else
  match s.backing l with
  | some la => (if (s.lm la).poison then s else s.setLm la { s.lm la with poison := true }).countMunc
  | none => s

/-- Lines of physical memory are read by the device for itself: what is uncorrectable there is marked and counted (R111). -/
def State.physMet (s : State) (kid a n : Nat) : State :=
  (List.range ((a % 128 + n + 127) / 128)).foldl (fun s i =>
    let l : LineId := ⟨false, a / 128 + i, kid⟩
    s.memMet l (s.physNow l).2) s

/-- An entry of a table of n-byte entries is read (R111). -/
def State.tabMet (s : State) (base n i : Nat) : State := s.physMet 0 (tabBase base + n * i) n

/-- An access fills the translation cache of its controller, of 256 sets of four ways (R25). -/
def State.otcFill (s : State) (ident off : Nat) : State :=
  if (s.otcHit ident off).isSome then s else
  match s.oteFind ident with
  | none => s
  | some (i, e) =>
    let s := s.tabMet s.dcb.otb 256 i
    match oteCtl e off with
    | none => s
    | some m => { s with fab := { s.fab with
        otc := setPut 4 (fun c => c.mc == m && c.ident % 256 == ident % 256) s.fab.otc ⟨m, ident, i, e⟩ } }

/-- NAPs whose watched line is written look again (R349): every waiting NAP fragment is woken, and reads its word;
dependences are evaluated again likewise (R423). -/
def State.wakeNaps (s0 : State) : State :=
  let s := s0.sched.depWait.foldl (fun s q =>
    if s.pending.contains (.dependenceWake q) then s else s.push (.dependenceWake q)) s0
  s.gangs.foldl (fun s kg => kg.2.frags.foldl (fun s kf =>
    match kf.2.wait with
    | .nap st => if s.pending.contains (.napWake kg.1 kf.1 st) then s else s.push (.napWake kg.1 kf.1 st)
    | _ => s) s) s

/-- A line leaves for memory; the memory controller checks its value at the receipt (R146). -/
def State.toMem (s : State) (die : Nat) (l : LineId) (data : Nat) (poison : Bool) : State :=
  match s.backing l with
  | some la => (s.chkReceipt l (data, poison)).1.memPut die la l.key (s.chkReceipt l (data, poison)).2.1 (s.chkReceipt l (data, poison)).2.2
  | none => s

/-- A line's new value performed at its home with every other copy gone: the effect of RDO by the home slice followed by
the write (R129, R187). -/
def State.lineSet (s : State) (l : LineId) (data : Nat) (poison : Bool) : State :=
  let s := { s with coh := { s.coh with lines := s.coh.lines.filter (fun x => x.line != l) } }
  let e := s.dirOf l
  let s := s.putDir { e with pres := 0, own := none }
  (s.toMem (s.homeDie l) l data poison).wakeNaps

/-- Bytes written by the device or an engine to physical memory, line by line. -/
def State.physWrite (s : State) (kid a n v : Nat) : State :=
  let first := a / 128
  let cnt := (a % 128 + n + 127) / 128
  (List.range cnt).foldl (fun s i =>
    let l : LineId := ⟨false, first + i, kid⟩
    let lo := if i = 0 then a % 128 else 0
    let hi := min 128 (a % 128 + n - 128 * i)
    let part := if i = 0 then v else v / 256 ^ (128 * i - a % 128)
    let old := s.physNow l
    let whole := lo == 0 && hi == 128
    (if whole then s else s.memMet l old.2).lineSet l (linePut old.1 lo (hi - lo) part) (old.2 && !whole)) s

end Sys2Proof.Machine
end

