-- ==== Sys2Proof/Machine/Walk.lean ====
section
/-! DEFINITION. The device virtual space: page-table entries, walks and cached translations (R34 to R41). -/

namespace Sys2Proof.Machine

/-- Subcodes of memory faults (R43). -/
def subNOTMAP : Nat := 0x01
def subWRPROT : Nat := 0x02
def subNOEXEC : Nat := 0x03
def subBADPTE : Nat := 0x04
def subNOPHYS : Nat := 0x05
def subNONCANON : Nat := 0x06
def subBADPTR : Nat := 0x10
def subRANGE : Nat := 0x11
def subNOOBJ : Nat := 0x12
def subBADOTE : Nat := 0x13
def subKSTORE : Nat := 0x20
def subNOKEY : Nat := 0x21
def subSPACE : Nat := 0x30
def subALIGN : Nat := 0x40
def subPLACE : Nat := 0x50
def subNOREG : Nat := 0x51
def subTASK : Nat := 0x52
def subLOSTW : Nat := 0x53
/-- TRet may re-issue after it (R43). -/
def replayable (sub : Nat) : Bool := decide (1 ≤ sub ∧ sub ≤ 3)

/-- Fields of a page-table entry (R35). -/
def pteV (e : Nat) : Bool := bit e 0
def pteL (e : Nat) : Bool := bit e 1
def pteGl (e : Nat) : Bool := bit e 2
def pteW (e : Nat) : Bool := bit e 3
def pteX (e : Nat) : Bool := bit e 4
def pteA (e : Nat) : Bool := bit e 5
def pteD (e : Nat) : Bool := bit e 6
def pteG64 (e : Nat) : Bool := bit e 7
def pteRc (e : Nat) : Bool := bit e 8
def ptePpn (e : Nat) : Nat := fld e 12 34 * 2 ^ 12
def pteKey (e : Nat) : Nat := fld e 46 10
def pteRsv (e : Nat) : Bool := fld e 9 3 != 0 || fld e 56 8 != 0

/-- First virtual-address bit below a level's index, and the bits of its index (R34). -/
def lvlShift (lv : Nat) : Nat := 12 + 9 * lv
def lvlIndex (lv va : Nat) : Nat := if lv = 3 then fld va 39 18 else fld va (lvlShift lv) 9
/-- Size of a leaf page at a level (R34, R37). -/
def leafSize (lv : Nat) (g64 : Bool) : Nat := if lv = 0 then (if g64 then 2 ^ 16 else 2 ^ 12) else 2 ^ lvlShift lv

/-- The check of one entry at a level for an access kind 0 read, 1 write or atomic, 2 fetch (R36). -/
def pteCheck (lv kind e : Nat) : Option Nat :=
  if !pteV e then some subNOTMAP
  else if pteRsv e then some subBADPTE
  else if !pteL e then
    if lv = 0 then some subBADPTE
    else if pteKey e != 0 || pteRc e || pteG64 e || pteD e || pteA e || pteX e || pteW e || pteGl e then some subBADPTE
    else none
  else if lv = 3 then some subBADPTE
  else if lv != 0 && pteG64 e then some subBADPTE
  else if lv != 0 && ptePpn e % leafSize lv false != 0 then some subBADPTE
  else if kind = 1 ∧ !pteW e then some subWRPROT
  else if kind = 2 ∧ !pteX e then some subNOEXEC
  else none

/-- An ended walk: the leaf's address, the leaf, its level, and the tables met on the way as (level, table). -/
structure WalkEnd where
  addr : Nat
  pte : Nat
  lv : Nat
  tables : List (Nat × Nat)
  deriving DecidableEq, Repr

/-- The walk from a table of level lv − 1 downwards (R36): read under key identifier 0 (R39); a poisoned read is BADPTE
(R451), an entry outside populated memory NOPHYS.  A failure names the entry that was poisoned, if one was. -/
def State.walkFrom (s : State) (kind va : Nat) : Nat → Nat → List (Nat × Nat) → Except (Nat × Option Nat) WalkEnd
  | 0, _, _ => .error (subBADPTE, none)
  | lv + 1, table, seen =>
    let a := table + 8 * lvlIndex lv va
    if !populated a then .error (subNOPHYS, none) else
    let r := s.physRead 0 a 8
    if r.2 then .error (subBADPTE, some a) else
    match pteCheck lv kind r.1 with
    | some sub => .error (sub, none)
    | none =>
      if pteL r.1 then .ok ⟨a, r.1, lv, (lv, table) :: seen⟩
      else walkFrom s kind va lv (ptePpn r.1) ((lv, table) :: seen)

/-- The translation a leaf gives (R35, R37). -/
def tlbOf (asid va : Nat) (w : WalkEnd) (d : Bool) : TlbEnt :=
  let sz := leafSize w.lv (pteG64 w.pte)
  ⟨asid, va / sz * sz, sz, ptePpn w.pte / sz * sz, pteKey w.pte, pteRc w.pte, d, pteX w.pte, pteW w.pte, pteGl w.pte⟩

/-- The recovery class of a .D write agrees with its page (R181). -/
def State.placeOk (s : State) (t : TlbEnt) : Bool :=
  if t.rc then (s.extRegion t.pa t.size).isSome else !s.touchesRegion t.pa t.size

/-- Set of a page in a translation cache of n sets: its number, in pages of its own size (log entry 63). -/
def tlbSet (n : Nat) (t : TlbEnt) : Nat := t.va / t.size % n

/-- Installs a translation in a cache of `sets` sets of `ways` ways, dropping an entry for the same page (R40). -/
def tlbPut (sets ways : Nat) (l : List TlbEnt) (t : TlbEnt) : List TlbEnt :=
  setPut ways (fun x => tlbSet sets x == tlbSet sets t)
    (l.filter (fun x => !(x.va == t.va && x.size == t.size && x.asid == t.asid))) t

/-- Installs a translation in a die's TLB of 2 048 sets of 16 ways (R40). -/
def dtlbPut (l : List (Nat × TlbEnt)) (die : Nat) (t : TlbEnt) : List (Nat × TlbEnt) :=
  setPut 16 (fun x => x.1 == die && tlbSet 2048 x.2 == tlbSet 2048 t)
    (l.filter (fun x => !(x.1 == die && x.2.va == t.va && x.2.size == t.size && x.2.asid == t.asid))) (die, t)

/-- Set of a walk-cache entry of 128 sets. -/
def walkSet (w : WalkEnt) : Nat := w.va / 2 ^ lvlShift (w.level + 1) % 128
/-- Installs a table in a die's walk cache of 128 sets of eight ways (R40). -/
def wcPut (die : Nat) (l : List (Nat × WalkEnt)) (w : WalkEnt) : List (Nat × WalkEnt) :=
  if l.contains (die, w) then l
  else setPut 8 (fun x => x.1 == die && walkSet x.2 == walkSet w) l (die, w)

/-- A walk with its effects (R36 to R40): the translation, the A and D bits set, and the walk cache of the die filled.  For an
access that faults on its page's key or recovery class (R153, R181) the walk ends with that fault: A and D stay, and
nothing is installed (R38).  A write of the device's own (`dev`), under key identifier 0, is refused on neither ground. -/
def State.walk (s : State) (die asid root va kind : Nat) (dev : Bool := false) : State × Except Nat TlbEnt :=
  if 2 ^ 57 ≤ va then (s, .error subNONCANON) else
  let cached := s.coh.wcache.filterMap (fun c =>
    if c.1 = die ∧ c.2.asid = asid ∧ c.2.va = va / 2 ^ lvlShift (c.2.level + 1) * 2 ^ lvlShift (c.2.level + 1)
    then some (c.2.level, c.2.table) else none)
  let start := cached.foldl (fun (b : Nat × Nat) c => if c.1 < b.1 then c else b) (3, root)
  match s.walkFrom kind va (start.1 + 1) start.2 [] with
  | .error e => (match e.2 with | some a => s.physMet 0 a 8 | none => s, .error e.1)
  | .ok w =>
    let t := tlbOf asid va w (pteD w.pte || kind == 1)
    let pa := t.pa + (va - t.va)
    if !populated pa then (s, .error subNOPHYS)
    else
      let news := w.tables.filterMap (fun lt => if lt.1 < 3 then
        some (⟨lt.1, va / 2 ^ lvlShift (lt.1 + 1) * 2 ^ lvlShift (lt.1 + 1), asid, lt.2⟩ : WalkEnt) else none)
      let s := { s with coh := { s.coh with wcache := news.foldl (wcPut die) s.coh.wcache } }
      if !dev && s.keyEmpty t.key then (s, .error subNOKEY)
      else if !dev ∧ kind = 1 ∧ !s.placeOk t then (s, .error subPLACE)
      else
        let want := w.pte ||| 2 ^ 5 ||| (if kind = 1 then 2 ^ 6 else 0)
        (if want = w.pte then s else s.physWrite 0 w.addr 8 want, .ok t)

/-- A cached translation serves an access: address, ASID unless global, and the right it needs; a write needs W and a D
already set (R38, R39). -/
def TlbEnt.serves (t : TlbEnt) (asid va kind : Nat) : Bool :=
  decide (t.va ≤ va ∧ va < t.va + t.size) && (t.gl || t.asid == asid)
    && (if kind = 1 then t.w && t.d else if kind = 2 then t.x else true)

/-- The entries a TLBINV keeps (R41): `all` ignores the page, `anyAsid` the ASID. -/
def TlbEnt.kept (t : TlbEnt) (va size asid : Nat) (allVa anyAsid : Bool) : Bool :=
  !((allVa || decide (t.va < va + size ∧ va < t.va + t.size)) && (anyAsid || t.gl || t.asid == asid))

/-- A core's state. -/
def State.core (s : State) (c : Nat) : CoreSt := (s.cores.get c).getD CoreSt.fresh
def State.putCore (s : State) (c : Nat) (x : CoreSt) : State := { s with cores := s.cores.set c x }

/-- A translation made at once through a die's TLB and walkers, as the engines make theirs (R40); `dev` as for the walk. -/
def State.dieTranslate (s : State) (die asid root va kind : Nat) (dev : Bool := false) : State × Except Nat TlbEnt :=
  match s.coh.dtlb.find? (fun e => e.1 == die && e.2.serves asid va kind) with
  | some e => (s, .ok e.2)
  | none =>
    match s.walk die asid root va kind dev with
    | (s, .ok t) => ({ s with coh := { s.coh with dtlb := dtlbPut s.coh.dtlb die t } }, .ok t)
    | (s, .error e) => (s, .error e)

end Sys2Proof.Machine
end

