-- ==== Sys2Proof/Machine/Ops.lean ====
section
/-! DEFINITION. The operations every instruction shares: the gang that issues, launches and blocks, fragments and their
grouping (R212), record rings (R448, R463), lane and gang kills (R452, R454), raising a cause (R440), taking an exception
(R441) and returning from one (R358), and the step of a register instruction. -/

namespace Sys2Proof.Machine

/-! ### Gangs, blocks, launches -/

def State.gang (s : State) (k : Nat) : Option Gang := s.gangs.get k
def State.putGang (s : State) (k : Nat) (g : Gang) : State := { s with gangs := s.gangs.set k g }
/-- A number no operation of the gang has, and none has had. -/
def Gang.newOp (g : Gang) : Nat := g.ops.foldl (fun a ko => max a (ko.1 + 1)) g.nextOp
/-- Core and slot of a gang key. -/
def coreOf (k : Nat) : Nat := k / 128
def slotOf (k : Nat) : Nat := k % 128

def State.launch (s : State) (lk : Nat) : Option Launch := s.sched.launches.get lk
def State.putLaunch (s : State) (lk : Nat) (l : Launch) : State :=
  { s with sched := { s.sched with launches := s.sched.launches.set lk l } }
def State.block (s : State) (b : Nat) : Option Block := s.sched.blocks.get b
def State.putBlock (s : State) (b : Nat) (x : Block) : State :=
  { s with sched := { s.sched with blocks := s.sched.blocks.set b x } }

/-- n bytes at an offset of a launch record (R422). -/
def Launch.at (l : Launch) (o n : Nat) : Nat :=
  (List.range n).foldr (fun i a => l.image.getD (o + i) 0 + 256 * a) 0
/-- The line behind an offset of the constant window. -/
def Launch.constLine (l : Launch) (off : Nat) : Option LineId :=
  let va := l.at 40 8 % 4096 + off
  (l.constAt[va / 4096]?).map (fun p => ⟨false, (p.1 + va % 4096) / 128, p.2⟩)
def Launch.root (l : Launch) : Nat := l.at 8 8
def Launch.frb (l : Launch) : Nat := l.at 24 8
def Launch.csize (l : Launch) : Nat := l.at 48 4
def Launch.nblk (l : Launch) : Nat := l.at 52 4
def Launch.asid (l : Launch) : Nat := l.at 56 2
def Launch.gcount (l : Launch) : Nat := l.at 58 2
def Launch.rectW (l : Launch) : Nat := l.at 60 1 % 16 + 1
def Launch.rectH (l : Launch) : Nat := l.at 60 1 / 16 + 1
def Launch.prio (l : Launch) : Nat := l.at 61 1 % 8
def Launch.cor (l : Launch) : Bool := bit (l.at 62 1) 0
def Launch.lpb (l : Launch) : Nat := l.at 72 4
def Launch.sto (l : Launch) : Nat := l.at 91 1
def Launch.tsl (l : Launch) : Nat := l.at 90 1
def Launch.drb (l : Launch) : Nat := l.at 92 4
def Launch.savb (l : Launch) : Nat := l.at 96 8
/-- Rounded allocations of a block on each core (R426): shared, A-, C- and W-store. -/
def roundUp (n g : Nat) : Nat := (n + g - 1) / g * g
def Launch.shBytes (l : Launch) : Nat := roundUp (l.at 68 4) 8192
def Launch.aBytes (l : Launch) : Nat := roundUp (l.at 76 4) 4096
def Launch.cBytes (l : Launch) : Nat := roundUp (l.at 80 4) 4096
def Launch.wBytes (l : Launch) : Nat := roundUp (l.at 84 4) 16384
def Launch.nbins (l : Launch) : Nat := l.at 88 2

/-- The address space of a gang: ASID and root table (R39). -/
def State.space (s : State) (g : Gang) : Nat × Nat :=
  match s.launch g.launch with | some l => (l.asid, l.root) | none => (0, 0)

/-- DEVNUM.DEV (R466). -/
def State.devNum (s : State) : Nat := fld s.dcb.devnum 0 7

/-! ### Launch queues (R421) -/

def lqEn (c : Nat) : Bool := bit c 0
def lqPrio (c : Nat) : Nat := fld c 1 3
def lqSize (c : Nat) : Nat := 2 ^ (fld c 4 4 + 4)
def lqBase (c : Nat) : Nat := fld c 8 38 * 256
def lqHead (p : Nat) : Nat := fld p 0 32
def lqTail (p : Nat) : Nat := fld p 32 32

/-- The head of a queue moves on (R424). -/
def State.moveHead (s : State) (n : Nat) : State :=
  let p := s.dcb.lqptr.getD n 0
  ({ s with dcb := { s.dcb with lqptr := s.dcb.lqptr.set n (lqTail p * 2 ^ 32 + (lqHead p + 1) % 2 ^ 32) } }).push .launchAccept

/-- A launch ends early with a status code (R195, R424): its unplaced blocks are not placed, and its queue goes on. -/
def State.stopLaunch (s : State) (lk code : Nat) : State :=
  match s.launch lk with
  | none => s
  | some l =>
    if l.code ≠ 0 then s
    else
      let s := s.putLaunch lk { l with code := code }
      if l.placed < l.nblk then s.moveHead l.queue else s

/-! ### Record rings -/

/-- Base and record count of a ring register (R463). -/
def ringBase (v : Nat) : Nat := fld v 12 34 * 4096
def ringSize (v : Nat) : Nat := 2 ^ fld v 0 5
/-- A number from (offset, value) parts in bytes. -/
def packBytes (ps : List (Nat × Nat)) : Nat := ps.foldl (fun a p => a + p.2 * 256 ^ p.1) 0

/-- Posts a record to the host trap ring (R448). -/
def State.postHtr (s : State) (r : Nat) : State :=
  let n := ringSize s.dcb.htrb
  if (s.dcb.hthd + 1) % n = s.dcb.httl then { s with dcb := { s.dcb with htdrop := s.dcb.htdrop + 1 } }
  else
    let s := s.physWrite 0 (ringBase s.dcb.htrb + 64 * s.dcb.hthd) 64 r
    { s with dcb := { s.dcb with hthd := (s.dcb.hthd + 1) % n, msix := s.dcb.msix ||| 4 } }

/-- Posts a record to the event ring of the migration engine, of 32 bytes (R71). -/
def State.postMer (s : State) (r : Nat) : State :=
  let n := ringSize s.dcb.merb
  if (s.dcb.mehd + 1) % n = s.dcb.metl then { s with dcb := { s.dcb with medrop := (s.dcb.medrop + 1) % 2 ^ 32 } }
  else
    let s := s.physWrite 0 (ringBase s.dcb.merb + 32 * s.dcb.mehd) 32 r
    { s with dcb := { s.dcb with mehd := (s.dcb.mehd + 1) % n, msix := s.dcb.msix ||| 1 } }

/-- Posts a record to the containment ring (R197). -/
def State.postCr (s : State) (r : Nat) : State :=
  let n := ringSize s.dcb.crb
  if (s.dcb.crhd + 1) % n = s.dcb.crtl then { s with dcb := { s.dcb with crdrop := s.dcb.crdrop + 1 } }
  else
    let s := s.physWrite 0 (ringBase s.dcb.crb + 64 * s.dcb.crhd) 64 r
    { s with dcb := { s.dcb with crhd := (s.dcb.crhd + 1) % n, msix := s.dcb.msix ||| 2 } }

/-- The record of a kill or halt (R448). -/
def State.htrRecord (s : State) (k : Nat) (g : Gang) (kind reason cause pc : Nat) : Nat :=
  let q := match s.launch g.launch with | some l => l.queue | none => 0
  let ix := match s.launch g.launch with | some l => l.index | none => 0
  packBytes [(0, kind), (1, reason), (4, cause), (8, coreOf k), (9, slotOf k), (12, g.g % 2 ^ 32), (16, q), (20, ix % 2 ^ 32),
    (24, pc % 2 ^ 64), (32, s.cycle % 2 ^ 64), (40, g.dl)]

/-! ### Fragments -/

/-- PC of a fragment: that of its lowest slice. -/
def Gang.pcOf (g : Gang) (f : Frag) : Nat :=
  match (List.range 8).find? (fun s => bit f.slices s) with
  | some s => (g.slice s).pc
  | none => 0

/-- Sets every slice of a slice mask by a function. -/
def Gang.mapSlices (g : Gang) (m : Nat) (h : Nat → Slice → Slice) : Gang :=
  { g with slices := g.slices.mapIdx (fun i x => if bit m i then h i x else x) }

/-- The fragment record after a bundle has issued. -/
def Frag.issued (f : Frag) (cyc : Nat) : Frag :=
  { f with wait := .ready, last := cyc, walkFails := [], bars := none, timed := none }

/-- Moves every slice of a fragment to one address: the advance past a bundle.  A replay of the program's, and a
breakpoint it is to skip, survive the handler, whose fragment has a number of its own (R46, R450). -/
def Gang.advance (g : Gang) (fr pc cyc : Nat) : Gang :=
  match g.frags.get fr with
  | none => g
  | some f =>
    let g := g.mapSlices f.slices (fun _ x => { x with pc := pc })
    { g with frags := g.frags.set fr (f.issued cyc)
             skipBrk := if bit g.skipBrk fr && !g.hm then g.skipBrk - 2 ^ fr else g.skipBrk
             replay := if g.hm then g.replay else g.replay.filter (fun r => r.frag != fr) }

/-- The lowest fragment number not in use. -/
def freeFrag (fs : Tab Frag) : Nat := ((List.range 8).find? (fun n => !fs.has n)).getD 8

/-- Gives each further PC group of a split fragment the lowest free number, in ascending order of its lowest slice. -/
def splitGroups (f : Frag) : List Nat → Tab Frag → Tab Frag
  | [], fs => fs
  | m :: rest, fs => splitGroups f rest (fs.set (freeFrag fs) { f with slices := m })

/-- R212: groups a fragment's slices by PC; finished and dead slices leave it (R211); the group of the lowest slice keeps its
number, each other group becomes a new fragment. -/
def Gang.regroup (g : Gang) (fr : Nat) : Gang :=
  match g.frags.get fr with
  | none => g
  | some f =>
    let mine := (List.range 8).filter (fun s => bit f.slices s && g.sliceAlive s)
    let pcs := (mine.map (fun s => (g.slice s).pc)).dedup
    let firsts := mine.filter (fun s => (mine.find? (fun t => (g.slice t).pc == (g.slice s).pc)) == some s)
    let groups := firsts.map (fun s => maskOfList (mine.filter (fun t => (g.slice t).pc == (g.slice s).pc)))
    match groups with
    | [] => { g with frags := g.frags.erase fr }
    | m :: rest =>
      if pcs.length = 0 then g
      else { g with frags := splitGroups f rest (g.frags.set fr { f with slices := m }) }

/-- Removes dead and finished slices from every fragment, and fragments left without slices (R211, R221), of the program too,
whose TFPC then reads as 0 (R360). -/
def Gang.dropDead (g : Gang) : Gang :=
  let alive := g.aliveSlices
  let fs := (g.frags.map (fun kf => (kf.1, { kf.2 with slices := kf.2.slices &&& alive }))).filter (fun kf => kf.2.slices != 0)
  let sh := g.shadow.map (fun x =>
    let lives := maskOfList ((List.range 8).filter (fun n => g.sliceLives n (x.slices.getD n ⟨0, 0, []⟩)))
    let fs : Tab Frag := (x.frags.map (fun (kf : Nat × Frag) => (kf.1, { kf.2 with slices := kf.2.slices &&& lives }))).filter (fun kf => kf.2.slices != 0)
    { x with frags := fs, tfpc := x.tfpc.filter (fun kp => fs.has kp.1) })
  { g with frags := fs, shadow := sh
           slices := g.slices.mapIdx (fun i x => if bit alive i then x else { x with stk := [] }) }

/-! ### Groups (R222, R224) -/

/-- The gang of index gi of a launch, if its block is resident or saved. -/
def State.gangOfIndex (s : State) (lk gi : Nat) : Option (Nat × Gang) :=
  s.gangs.find? (fun kg => kg.2.launch == lk && kg.2.g == gi)

/-- Gang gi of a launch has retired: it is marked so, or its placed block has left. -/
def State.gangRetired (s : State) (lk gi : Nat) : Bool :=
  match s.launch lk with
  | none => true
  | some l =>
    let b := gi / max l.gcount 1
    match s.gangOfIndex lk gi with
    | some (_, g) => g.retired
    | none => decide (b < l.placed) && !l.saved.contains b

/-- A member has arrived: every live unfinished slice has, or it was killed (mark 0x100), or it has retired (R224). -/
def State.arrived (s : State) (lk : Nat) (x : Group) (gi : Nat) : Bool :=
  let m := ((x.arrived.find? (fun a => a.1 == gi)).map (·.2)).getD 0
  bit m 8 || s.gangRetired lk gi ||
    match s.gangOfIndex lk gi with
    | some (_, g) => g.aliveSlices != 0 && andNot g.aliveSlices m == 0
    | none => false

/-- Completes the phases whose members have all arrived (R224, R174). -/
def State.groupStep (s : State) (lk : Nat) : State :=
  match s.launch lk with
  | none => s
  | some l =>
    let gs := l.groups.map (fun x =>
      if !x.members.isEmpty && x.members.all (fun gi => s.arrived lk x gi) && !x.arrived.isEmpty then
        let killed := x.arrived.filter (fun a => bit a.2 8)
        { x with phase := (x.phase + 1) % 2 ^ 32, degraded := x.degraded || !killed.isEmpty, arrived := killed }
      else x)
    s.putLaunch lk { l with groups := gs }

/-- Marks a killed gang as arrived at every phase of its groups. -/
def State.groupKill (s : State) (lk gi : Nat) : State :=
  match s.launch lk with
  | none => s
  | some l =>
    (s.putLaunch lk { l with groups := l.groups.map (fun x =>
      if x.members.contains gi then { x with arrived := x.arrived.filter (fun a => a.1 != gi) ++ [(gi, 0x1FF)] } else x) }).groupStep lk

/-- A retired gang with nothing of its own under way; a NAP it was in counts for nothing. -/
def Gang.spent (g : Gang) : Bool := g.retired && g.ops.all (fun ko => ko.2.cls == 8)

/-- A block whose gangs have all retired with nothing outstanding asks to retire (R425). -/
def State.checkBlock (s : State) (bk : Nat) : State :=
  match s.block bk with
  | none => s
  | some b =>
    if b.gangs.all (fun k => match s.gang k with | some g => g.spent | none => true)
        && !s.pending.contains (.blockRetire bk)
    then s.push (.blockRetire bk) else s

/-! ### Kills and retirement -/

/-- Kill reasons (R448). -/
def rHNDF : Nat := 1
def rNOLANE : Nat := 2
def rUREG : Nat := 3
def rSCALAR : Nat := 4
def rFETCH : Nat := 5
def rDIERESET : Nat := 6

/-- Address reported for a gang: the issuing bundle, else TFPC or the PC of the lowest program fragment. -/
def Gang.reportPc (g : Gang) : Nat :=
  match g.shadow with
  | some x => (x.tfpc.headD (0, 0)).2
  | none => match g.frags with
    | kf :: _ => g.pcOf kf.2
    | [] => 0

/-- Discards the held commands of a gang that ends: each completes with CANCEL (R366, R368). -/
def Gang.cancelHeld (g : Gang) : Gang :=
  (g.ops.filter (fun ko => ko.2.held)).foldl (fun g ko =>
    { g.setU ko.2.stReg 0x50000000 with
      ops := g.ops.erase ko.1, ctr := g.ctr.set ko.2.cls (g.ctr.getD ko.2.cls 0 - 1) }) g

/-- Completed commands that stood behind cancelled ones are presented (R331, R368). -/
def State.presentRest (s : State) (k : Nat) : State :=
  match s.gang k with
  | none => s
  | some g => g.ops.foldl (fun s ko =>
      if ko.2.done && decide (2 ≤ ko.2.cls) && decide (ko.2.cls ≤ 5) then s.push (.engineCompletion k ko.1) else s) s

/-- The tile queue without a gang's held commands. -/
def State.unqueueHeld (s : State) (k : Nat) (g : Gang) : State :=
  let keep := s.eng.tileQ.filter (fun q => !(q.2.1 == k && (match g.ops.get q.2.2 with | some x => x.held | none => true)))
  let s' := { s with eng := { s.eng with tileQ := keep } }
  if keep.length = s.eng.tileQ.length then s' else s'.push (.tilePassStart (coreOf k))

/-- Kills a gang (R454): it retires at once, is counted, posts a KILL record, counts as arrived everywhere; held commands
are cancelled (R368), its version is discarded, and what it issued otherwise goes on with nothing to return to. -/
def State.killGang (s : State) (k reason pc : Nat) : State :=
  match s.gang k with
  | none => s
  | some g =>
    if g.retired then s else
    let cause := g.tcause ||| (if reason = rHNDF then 2 ^ cHNDF else 0)
    let s := s.postHtr (s.htrRecord k g 1 reason cause pc)
    let s := s.unqueueHeld k g
    let s := s.putGang k { g.cancelHeld with retired := true, killed := true, spec := [], frags := [], halted := false }
    let s := match s.launch g.launch with
      | some l => s.putLaunch g.launch { l with nkill := min (l.nkill + 1) (2 ^ 24 - 1) }
      | none => s
    ((s.presentRest k).groupKill g.launch g.g).checkBlock g.blk

/-- Retires a gang whose slices have all finished (R211).  A version that is still open then is discarded: R354 names no such
end (DESIGN CHOICE, log entry 69). -/
def State.retireGang (s : State) (k : Nat) : State :=
  match s.gang k with
  | none => s
  | some g =>
    ((((s.unqueueHeld k g).putGang k { g.cancelHeld with retired := true, frags := [], spec := [] }).presentRest k).groupStep
      g.launch).checkBlock g.blk

/-- After lanes have died or ended: the gang is killed when no lane lives, in a handler at its TRET (R444), and retires when
every slice is done (R211, R221). -/
def State.settleGang (s : State) (k : Nat) : State :=
  match s.gang k with
  | none => s
  | some g =>
    if g.retired then s
    else if g.live = 0 ∧ !g.hm then s.killGang k rNOLANE g.reportPc
    else if g.aliveSlices = 0 then s.retireGang k
    else s.groupStep g.launch

/-! ### Raising a cause -/

/-- The gang has an enabled pending cause and may be stopped for it (R440). -/
def Gang.trapWanted (g : Gang) : Bool :=
  (g.tcause &&& g.tmask) != 0 && !g.hm && !g.halted && !g.retired

/-- Asks for the entry once every fragment has stopped; fragments stop between bundles, so at once (R440). -/
def State.trapDue (s : State) (k : Nat) : State :=
  match s.gang k with
  | none => s
  | some g => if g.trapWanted && !g.entryDue then (s.putGang k { g with entryDue := true }).push (.trapEntry k) else s

/-- A cause raised outside the instruction stream sets its bit and waits (R440, R447). -/
def State.raiseAsync (s : State) (k bits : Nat) : State :=
  match s.gang k with
  | none => s
  | some g => if g.retired then s else (s.putGang k { g with tcause := g.tcause ||| bits }).trapDue k

/-- Causes of a bundle at pc become pending: the first such bundle is the one that a kill or halt reports (R448). -/
def Gang.addCause (g : Gang) (bits pc : Nat) : Gang :=
  { g with tcause := g.tcause ||| bits, raisePc := match g.raisePc with | some p => some p | none => some pc }

/-- The record kept for an entry: that of the lowest-numbered fragment (R45). -/
def keepRec (old new : Option FRec) : Option FRec :=
  match old, new with
  | none, n => n
  | some o, none => some o
  | some o, some n => if n.frag < o.frag then some n else some o

/-- A synchronous cause raised by a bundle of fragment fr at pc (R440, R11), noted for R442 if it is of class 1; in the handler it kills the gang (R445). -/
def State.raise (s : State) (k fr pc bits : Nat) (r : Option FRec) : State :=
  match s.gang k with
  | none => s
  | some g =>
    if g.retired then s
    else if g.hm then s.killGang k rHNDF pc
    else
      let fs := match g.frags.get fr with
        | some f => g.frags.set fr { f with walkFails := [], wait := .ready, last := s.cycle }
        | none => g.frags
      let raised := if bits &&& class1 = 0 then g.raised else g.raised ||| 2 ^ fr
      (s.putGang k { g.addCause bits pc with raised := raised, frec := keepRec g.frec r, frags := fs }).trapDue k

/-- A cause met after issue by an operation (R446): attributed to its fragment and bundle; a handler fault when the handler
issued it.  Its record is the entry's when class 1 is taken at once; otherwise, while a handler runs, the cause is masked
or its class comes later, the record is kept until the entry that takes the cause. -/
def State.raiseLate (s : State) (k : Nat) (o : Op) (bits : Nat) (r : Option FRec) : State :=
  match s.gang k with
  | none => s
  | some g =>
    if g.retired then s
    else if g.hm && o.hm then s.killGang k rHNDF o.pc
    else if g.hm || bits &&& g.tmask &&& class1 == 0 then
      (s.putGang k { g with tcause := g.tcause ||| bits, late := g.late ++ [(bits, o.frag, r)] }).trapDue k
    else
      (s.putGang k { g.addCause bits o.pc with raised := g.raised ||| 2 ^ o.frag, frec := keepRec g.frec r }).trapDue k

/-- Kills lanes: DLMASK at once, dead slices leave their fragments, and the cause is raised (R452, R447); a gang without a live
lane is killed, and reported at the address it stood at (R221, R448). -/
def State.killLanes (s : State) (k lanes bits : Nat) : State :=
  match s.gang k with
  | none => s
  | some g =>
    if lanes = 0 ∨ g.retired then s
    else
      let h := { g with dl := g.dl ||| lanes, tcause := g.tcause ||| bits }
      if h.live = 0 then (s.putGang k h).killGang k rNOLANE g.reportPc
      else ((s.putGang k h.dropDead).settleGang k).trapDue k

/-! ### Taking an exception and returning from it -/

/-- The bytes of a fault record (R44). -/
def FRec.bytes (r : FRec) : Nat :=
  packBytes ([(0, r.pc % 2 ^ 64), (8, r.done), (12, r.fault), (16, r.cause), (17, r.flags), (18, r.entries.length), (19, r.frag)]
    ++ (r.entries.zipIdx.flatMap (fun (e, i) =>
      let b := 128 + 16 * i
      [(b, e.1 % 2 ^ 64), (b + 8, e.2.1), (b + 9, e.2.2.1), (b + 10, e.2.2.2.1), (b + 11, e.2.2.2.2)])))

/-- Writes one 128-byte part of a fault record at a virtual address, under key identifier 0 (R42, R44): a write of the device's
own, which no recovery class refuses (R181); an address outside populated memory faults (R33). -/
def State.writeRecLine (s : State) (die asid root va v : Nat) : State × Bool :=
  match s.dieTranslate die asid root va 1 true with
  | (s, .ok t) =>
    let pa := t.pa + (va - t.va)
    if populated pa then (s.physWrite 0 pa 128 v, true) else (s, false)
  | (s, .error _) => (s, false)

/-- Writes a gang's fault record (R44, R45); false when the record's own address faults. -/
def State.writeRec (s : State) (k : Nat) (g : Gang) (r : FRec) : State × Bool :=
  match s.launch g.launch with
  | none => (s, true)
  | some l =>
    let base := l.frb + 640 * g.g
    (List.range 5).foldl (fun (acc : State × Bool) i =>
      if acc.2 then acc.1.writeRecLine (dieOf (coreOf k)) l.asid l.root (base + 128 * i) (byteField r.bytes (128 * i) 128)
      else acc) (s, true)

/-- A wait that an entry leaves unperformed: the fragment will issue again; a blocking instruction already issued stays
awaited (R440, R394). -/
def Frag.unwait (f : Frag) : Frag :=
  match f.wait with
  | .blocked _ => f
  | _ => { f with wait := .ready, walkFails := [], timed := none }

/-- Waits of NAPs end at an entry: each issues again (R349). -/
def Gang.dropNaps (g : Gang) : Gang := { g with ops := g.ops.filter (fun ko => ko.2.cls != 8) }

/-- The state saved at an entry (R441). -/
def Gang.takeShadow (g : Gang) : Shadow :=
  ⟨g.slices, g.frags.map (fun kf => (kf.1, kf.2.unwait)), g.frags.map (fun kf => (kf.1, g.pcOf kf.2))⟩

/-- Program fragments that raised a class-1 cause of p: at once, or late (R442, R446). -/
def Gang.raisedIn (g : Gang) (p : Nat) : Nat :=
  g.late.foldl (fun a x => if x.1 &&& p &&& class1 != 0 then a ||| 2 ^ x.2.1 else a) g.raised

/-- The record an entry of class c writes (R441): for class 1 the one kept for it, else the first held late one of a cause taken
(R446), else the one of an earlier entry whose cause is still pending.  PEERLOST, of class 4, has one too (log entry 64). -/
def Gang.entryRec (g : Gang) (c : Nat) : Option FRec :=
  let p := g.tcause &&& g.tmask &&& classBits c
  let held := (g.late.find? (fun x => x.1 &&& p != 0 && x.2.2.isSome)).bind (·.2.2)
  if c = 1 then
    match g.frec, held with
    | some r, _ => some r
    | none, some r => some r
    | none, none => g.wrec.filter (fun r => bit p r.cause)
  else if c = 4 then held else none

/-- The gang as R441 and R442 leave it at the first bundle of its handler: P in class c taken at cycle cyc. -/
def Gang.entered (g : Gang) (c cyc : Nat) : Gang :=
  let p := g.tcause &&& g.tmask &&& classBits c
  let alive := g.laneSlices
  let g' : Gang := { g with
    shadow := some g.takeShadow
    hm := true
    entryDue := false
    slices := g.slices.mapIdx (fun i x => if bit alive i then ⟨g.tvec, fld g.liveUnf (4 * i) 4, []⟩ else { x with mask := 0, stk := [] })
    frags := [(0, ⟨alive, g.av - 16, g.asz - 32, .ready, cyc, cyc, 0, 0, [], none, none⟩)]
    dlPrev := g.dl
    raised := 0
    frec := none
    wrec := if c = 1 then g.entryRec 1 else g.wrec
    raisePc := none
    late := g.late.filter (fun x => x.1 &&& p == 0)
    hentry := cyc
    asked := if (c = 5 ∨ c = 6) ∧ g.asked = 1 then 3 else g.asked }
  ((g'.setU (g.asz - 32) p).setU (g.asz - 31) (g.raisedIn p)).setU (g.asz - 30) (andNot g.dl g.dlPrev)

/-- Taking an exception (R441, R442): a debug halt for class 3, a kill without a handler, else the fault record, the saved
state and the handler. -/
def State.enter (s : State) (k : Nat) : State :=
  match s.gang k with
  | none => s
  | some g0 =>
    let g := { g0 with entryDue := false }
    let s := s.putGang k g
    if !g.trapWanted ∨ (s.block g.blk).isNone then s else
    let c := lowestClass (g.tcause &&& g.tmask)
    let pc := g.raisePc.getD g.reportPc
    if c = 3 then
      let s := s.postHtr (s.htrRecord k g 2 (if bit g.tcause cBRKPT && bit g.tmask cBRKPT then 1 else 2) g.tcause pc)
      s.putGang k { g.dropNaps with halted := true, raisePc := none, frags := g.frags.map (fun (kf : Nat × Frag) => (kf.1, kf.2.unwait)) }
    else if g.tvec = 0 then s.killGang k rHNDF pc
    else
      let w := match g.entryRec c with | some r => s.writeRec k g r | none => (s, true)
      if w.2 then
        (w.1.putGang k (g.dropNaps.entered c s.cycle)).after 65536 (.handlerPreempt k s.cycle)
      else w.1.killGang k rHNDF pc

/-- A gang's program fragments restored at their TFPC (R358, R444): dead slices have left, and a replay stays for a fragment that
issues its bundle again (R46). -/
def Gang.returned (g : Gang) (cyc : Nat) : Gang :=
  match g.shadow with
  | none => g
  | some x =>
    let pcFor (i : Nat) : Option Nat :=
      (x.frags.find? (fun kf => bit kf.2.slices i)).bind (fun kf => x.tfpc.get kf.1)
    let sl := x.slices.mapIdx (fun i y => match pcFor i with | some p => { y with pc := p } | none => y)
    ({ g with hm := false, shadow := none, slices := sl
              frags := x.frags.map (fun (kf : Nat × Frag) => (kf.1, { kf.2 with last := cyc }))
              replay := g.replay.filter (fun r => x.tfpc.get r.frag == some r.pc)
              asked := if g.asked = 3 then 2 else g.asked }).dropDead

/-! ### Recorders (R456 to R459) -/

/-- A sample taken by a recorder (R458). -/
def Recorder.sample (r : Recorder) (v0 : Nat) : Recorder :=
  let v := min v0 (2 ^ 32 - 1)
  let b := if v = 0 then 0 else min 31 (Nat.log2 v + 1)
  { r with mn := min r.mn v, mx := max r.mx v, cnt := min (r.cnt + 1) (2 ^ 32 - 1)
           bins := r.bins.put b (BitVec.ofNat 32 (min ((r.bins.get b).toNat + 1) (2 ^ 32 - 1))) }

/-- A sample of an event of a gang on its core (R457, R459). -/
def State.sample (s : State) (k evt v : Nat) : State :=
  match s.gang k with
  | none => s
  | some g =>
    let c := s.core (coreOf k)
    if c.recs.all (fun r => !r.en) then s
    else s.putCore (coreOf k) { c with recs := c.recs.map (fun r =>
      if r.en && r.evt == evt && (r.flt == 0 || (r.owner == g.launch && (r.flt == 1 || (r.flt == 2 && r.gang == g.g))))
      then r.sample v else r) }

/-! ### A gang at its start -/

/-- The state of a gang when its block is placed (R205 to R207, R237, R361, R362, R422). -/
def Gang.fresh (lk blk gi j av asz pc tvec : Nat) (chk : Bool) (upre : SMap 32) (cyc : Nat) : Gang where
  launch := lk
  blk := blk
  g := gi
  j := j
  av := av
  asz := asz
  slices := List.replicate 8 ⟨pc, 15, []⟩
  frags := [(0, ⟨255, 0, 0, .ready, cyc, cyc, 0, 0, [], none, none⟩)]
  vreg := []
  sreg := upre
  mreg := []
  fin := 0
  dl := 0
  ctr := [0, 0, 0, 0, 0, 0]
  deadsrc := false
  peerlost := false
  chk := chk
  task := false
  hm := false
  tcause := 0
  tmask := 0x1FFFFFF
  tvec := tvec
  fpctl := 0
  fpstat := 0
  taskid := 0
  prog := 0xFFFFFFFF
  shadow := none
  trec := ⟨0, 0, 0, 0, 0, 0, false, []⟩
  spec := []
  ops := []
  nextOp := 0
  frec := none
  wrec := none
  late := []
  dlPrev := 0
  raised := 0
  raisePc := none
  entryDue := false
  halted := false
  skipBrk := 0
  hentry := 0
  asked := 0
  replay := []
  fused := 0
  lrbsel := []
  badV := []
  badU := []
  badM := []
  badW := false
  retired := false
  killed := false

/-! ### The issuing fragment -/

/-- Runs a meaning with the bundle, gang and fragment that issue it. -/
def withIssue (s : State) (f : Issue → Gang → Frag → Out) : Out :=
  match s.issue with
  | none => .fault .noIssuer
  | some i =>
    match s.gang i.key with
    | none => .fault .noIssuer
    | some g =>
      match g.frags.get i.frag with
      | none => .fault .noIssuer
      | some fr => f i g fr

/-- The hints of the bundle's HNT (R266, R432): demotion, stall, and the prefetch of the next instruction line. -/
def State.hint (s : State) (i : Issue) : State :=
  match i.hnt with
  | none => s
  | some h =>
    let s := match s.gang i.key with
      | none => s
      | some g =>
        match g.frags.get i.frag with
        | none => s
        | some f =>
          let f := if bit h 19 then { f with demoted := s.cycle + 16 } else f
          let f := if fld h 20 4 = 0 then f else { f with notBefore := s.cycle + 1 + fld h 20 4 }
          s.putGang i.key { g with frags := g.frags.set i.frag f }
    if bit h 16 then s.push (.ibufFill i.key 8 ((i.base / 128 + 1) * 128 % 2 ^ 64)) else s

/-- The bundle has been performed: the gang as left by it, its fragment past the bundle. -/
def State.finish (s : State) (i : Issue) (g : Gang) : State :=
  (s.putGang i.key (g.advance i.frag ((i.base + 4) % 2 ^ 64) s.cycle)).hint i

/-- The bundle raises causes and is not performed (R11). -/
def State.trap (s : State) (i : Issue) (bits : Nat) (r : Option FRec) : State := s.raise i.key i.frag i.pc bits r

/-- The fragment waits.  What it waits for in its bundle has issued; what keeps a bundle from issuing, a full counter or queue, a
register still awaited or a walk, leaves the time of its last issue as it was (R226, R431). -/
def State.hold (s : State) (i : Issue) (g : Gang) (w : Wait) : State :=
  match g.frags.get i.frag with
  | none => s
  | some f =>
    let unissued : Bool := match w with | .room => true | .walk _ => true | .fetch _ => true | _ => false
    let f' : Frag := { f with
      wait := w
      since := if f.wait = w ∧ w ≠ .room then f.since else s.cycle
      last := if unissued ∨ f.wait = w then f.last else s.cycle }
    s.putGang i.key { g with frags := g.frags.set i.frag f' }

/-! ### Register instructions -/

/-- The lanes that read an uncorrectable vector element by a plan (R451). -/
def Gang.badLanes (g : Gang) (p : Plan) : Nat :=
  maskOfList ((laneList p.rdLanes).filter (fun l => p.rdV.any (fun n => g.badV.contains (32 * n + l))))
    ||| maskOfList ((p.rdX.filter (fun x => g.badV.contains (32 * x.2.1 + x.2.2))).map (·.1))

/-- A uniform or mask register the plan reads, or the window state, is uncorrectable (R451). -/
def Gang.badUniform (g : Gang) (p : Plan) : Bool :=
  p.rdU.any (fun n => g.badU.contains n) || p.rdM.any (fun n => g.badM.contains n) || g.badW

/-- A register the plan names will be written by an engine command that has not been presented (R366, R276). -/
def Gang.awaits (g : Gang) (p : Plan) : Bool :=
  g.ops.any (fun ko => decide (2 ≤ ko.2.cls ∧ ko.2.cls ≤ 5) && (ko.2.stReg :: ko.2.res).any (fun r => p.useU.contains r))

/-- Lanes of a checked-issue gang whose results disagree on a core with faulty ALU lanes (R228): in a vector ALU operation,
also one that forms addresses or store data (R227). -/
def State.aluLanes (s : State) (k : Nat) (g : Gang) (p : Plan) : Nat :=
  if g.chk && !p.scalar && !p.masks then
    p.rdLanes &&& maskOfList ((s.core (coreOf k)).aluBad.flatMap (fun a => [a % 32, (a + 31) % 32]))
  else 0

/-- A passing disagreement of the two executions of a checked instruction: its retry agrees and is counted (R228, R468). -/
def State.aluRetry (s : State) (k : Nat) (g : Gang) (p : Plan) : State :=
  let c := s.core (coreOf k)
  if g.chk && (p.scalar || p.rdLanes != 0) && !p.masks && c.aluOnce != 0 then
    (s.putCore (coreOf k) { c with aluOnce := c.aluOnce - 1 }).errEvent fun d => { d with cicor := errInc d.cicor }
  else s

/-- The checks of two executions that a bundle's operands meet before its effect (R227, R228): a lasting scalar disagreement
kills the gang, also one of a cross-lane result that goes to a uniform register (DEDUCED, log entry 70). -/
def State.aluScalar (s : State) (k : Nat) (g : Gang) (p : Plan) : Bool :=
  g.chk && ((p.scalar && (s.core (coreOf k)).slBad) || (!p.wU.isEmpty && s.aluLanes k g p != 0))

/-- A register instruction whose plan has passed its checks: what it raises or writes, and the lanes it kills: those that read an
uncorrectable element and those of a lasting disagreement. -/
def State.applyStep (s : State) (i : Issue) (g : Gang) (p : Plan) (bad alu : Nat) : Out :=
  if p.cause ≠ 0 then
    .next (s.trap i p.cause (if p.entries.isEmpty then none
      else some ⟨i.pc, 0, maskOfList (p.entries.map (fun e => e.2.1)), cOBJF, 0, i.frag, p.entries⟩))
  else if fpxRaised g.fpctl p.flags then
    .next ((s.putGang i.key (g.orFlags p.flags)).trap i (2 ^ cFPX) none)
  else
    let s' := s.finish i ((g.applyPlan p bad).orFlags p.flags)
    .next (if bad ||| alu = 0 then s'
      else (s'.killLanes i.key bad (2 ^ cLANEKILL)).killLanes i.key alu (2 ^ cALUERR))

/-- The step of a register instruction: bounds (R214), uncorrectable registers (R451), checked issue (R228), then its own
causes, flags and writes.  Lanes that are killed take no part, and other lanes may still read their registers. -/
def regStep (s : State) (plan : Gang → Frag → Plan) : Out :=
  withIssue s fun i g f =>
    let p := plan g f
    if !g.inBounds p then .next (s.trap i (2 ^ cBOUNDS) none)
    else if g.awaits p then .next (s.hold i g .room)
    else if g.badUniform p then .next (s.killGang i.key rUREG i.pc)
    else if s.aluScalar i.key g p then .next (s.killGang i.key rSCALAR i.pc)
    else
      let bad := g.badLanes p
      let alu := s.aluLanes i.key g p
      let but (m : Nat) : Plan := if m = 0 then p else plan { g with fin := g.fin ||| m } f
      (s.aluRetry i.key g p).applyStep i g (if alu = 0 then but bad else (but bad).without (but (bad ||| alu)) alu) bad alu

end Sys2Proof.Machine
end

