-- ==== Sys2Proof/Machine/Coh.lean ====
section
/-! DEFINITION. Coherence between the dies (R125 to R131), the L1s with their release records and drains (R101, R102,
R119 to R124), and the host's and the switch's part of it (R133 to R136, R148 to R150): the operations that the events of
this level perform. -/

namespace Sys2Proof.Machine

/-! ### L1 (R101, R102) -/

/-- An L1 line that loads and stores other than .K find under a name; the tag holds the key (R101, R151). -/
def L1Line.named (x : L1Line) (l : LineId) : Bool := !x.ro && x.line.same l
def CoreSt.l1Find (c : CoreSt) (l : LineId) : Option L1Line := c.l1.find? (fun x => x.named l)
def CoreSt.l1Drop (c : CoreSt) (l : LineId) : CoreSt := { c with l1 := c.l1.filter (fun x => !x.named l) }
/-- Set of a line in the L1. -/
def l1Set (l : LineId) : Nat := if l.obj then (l.name % 128) ^^^ (l.name / 128 % 128) else l.name % 128
/-- A hit makes its line the newest of its set (R102, log entry 65). -/
def State.l1Touch (s : State) (core : Nat) (l : LineId) : State :=
  let c := s.core core
  match c.l1Find l with
  | some x => s.putCore core { c with l1 := c.l1.filter (fun y => y != x) ++ [x] }
  | none => s

/-- Writes back a dirty L1 line under a drain. -/
def State.writeBack (s : State) (core : Nat) (x : L1Line) (drain : Nat) : State :=
  s.push (.l1Writeback core x.line x.data x.dirty x.poison drain)
/-- A new record of writes that a core waits for: a drain, or one line that leaves its L1. -/
def State.newDrain (s : State) (d : Drain) : State :=
  let id := s.coh.nextDrain + 1
  { s with coh := { s.coh with nextDrain := id, drains := s.coh.drains.set id d } }
/-- Writes back a dirty L1 line that leaves outside a drain (R102). -/
def State.evictL1 (s : State) (core : Nat) (x : L1Line) : State :=
  (s.newDrain ⟨core, 0, 1, [], false, true⟩).writeBack core x (s.coh.nextDrain + 1)

/-- Installs x in place of the lines found under l, evicting the oldest of a full set; the ways not gated serve (R102,
R115). -/
def State.l1Put (s : State) (core : Nat) (l : LineId) (x : L1Line) : State :=
  let c := (s.core core).l1Drop l
  let same := c.l1.filter (fun y => l1Set y.line == l1Set x.line)
  let ways := 16 - 4 * c.l1Gated
  match (if ways ≤ same.length then same.head? else none) with
  | none => s.putCore core { c with l1 := c.l1 ++ [x] }
  | some v =>
    let s := s.putCore core { c with l1 := c.l1.filter (fun y => y != v) ++ [x] }
    if v.dirty = 0 then s else s.evictL1 core v

/-- A whole line from the slice, its check value tested (R146), merged under the L1's own valid bytes: the stored bytes win
(R102). -/
def State.l1Fill (s0 : State) (core : Nat) (l : LineId) (data : Nat) (poison : Bool) : State :=
  let (s, d) := s0.chkReceipt l (data, poison)
  match (s.core core).l1Find l with
  | some x => s.l1Put core l { x with data := lineMerge d.1 x.data x.valid, valid := lineFull, poison := d.2 }
  | none => s.l1Put core l ⟨l, d.1, lineFull, 0, d.2, false⟩

/-- A read of the constant window through the L1 (R85, R102): a hit makes the line the newest, a miss fills it. -/
def State.l1Const (s : State) (core : Nat) (l : LineId) (data : Nat) : State :=
  let c := s.core core
  match c.l1.find? (fun x => x.ro && x.line == l) with
  | some x => s.putCore core { c with l1 := c.l1.filter (fun y => y != x) ++ [x] }
  | none =>
    let same := c.l1.filter (fun y => l1Set y.line == l1Set l)
    match (if 16 - 4 * c.l1Gated ≤ same.length then same.head? else none) with
    | none => s.putCore core { c with l1 := c.l1 ++ [⟨l, data, lineFull, 0, false, true⟩] }
    | some v =>
      let s := s.putCore core { c with l1 := c.l1.filter (fun y => y != v) ++ [⟨l, data, lineFull, 0, false, true⟩] }
      if v.dirty = 0 then s else s.evictL1 core v

/-- Cycles after which a core drains that has held dirty bytes (log entry 66). -/
def l1Age : Nat := 2 ^ 16

/-- A plain store held by the L1 (R102, R331).  The first dirty line of a core starts the time after which it drains of
itself, as it may at any moment (R124), so that every store is seen in a finite time (R167 rule 5). -/
def State.l1Store (s0 : State) (core : Nat) (l : LineId) (off n v : Nat) : State :=
  let m := maskOf off n
  let c := s0.core core
  let s := if c.l1.all (fun x => x.dirty == 0) then s0.after l1Age (.drn l (dieOf core) core c.rsn) else s0
  match c.l1Find l with
  | some x => s.l1Put core l { x with data := linePut x.data off n v, valid := x.valid ||| m, dirty := x.dirty ||| m }
  | none => s.l1Put core l ⟨l, linePut 0 off n v, m, m, false, false⟩

/-- The clean bytes of one line leave the L1: an access past it has met or made newer ones (R167 rule 1, R175). -/
def State.l1Stale (s : State) (core : Nat) (l : LineId) : State :=
  let c := s.core core
  s.putCore core { c with l1 := c.l1.filterMap (fun x =>
    if !x.named l then some x else if x.dirty = 0 then none else some { x with valid := x.dirty }) }

/-- Self-invalidation (R120): clean .O and .D lines go, bytes not dirty become invalid; .K lines stay. -/
def State.selfInvalidate (s : State) (core : Nat) : State :=
  let c := s.core core
  s.putCore core { c with l1 := c.l1.filterMap (fun x =>
    if x.ro then some x else if x.dirty = 0 then none else some { x with valid := x.dirty }) }

/-! ### Drains (R121 to R124) -/

/-- A drain whose write-backs are acknowledged ends once no earlier write of its core is owed (R122, R144, R166). -/
def State.drainNext (s : State) (core : Nat) : State :=
  match s.coh.drains.find? (fun kd => kd.2.core == core) with
  | some kd => if kd.2.left = 0 && !s.pending.contains (.drainDone kd.1) then s.push (.drainDone kd.1) else s
  | none => s

/-- Starts a drain of a core for the operations it serves: every dirty line is written back (R122 steps 1 and 2). -/
def State.startDrain (s : State) (core : Nat) (serves : List (Nat × Nat)) : State :=
  let c := s.core core
  let dirty := c.l1.filter (fun x => x.dirty != 0)
  let id := s.coh.nextDrain + 1
  let s := s.putCore core { c with lazy := 0, l1 := c.l1.map (fun x => { x with dirty := 0 }) }
  let s := s.newDrain ⟨core, c.rsn, dirty.length, serves, false, false⟩
  (dirty.foldl (fun s x => s.writeBack core x id) s).drainNext core

/-- A write-back of a drain has been acknowledged (R122 step 3). -/
def State.ackDrain (s : State) (id : Nat) : State :=
  match s.coh.drains.get id with
  | none => s
  | some d =>
    let ds := if d.evict then s.coh.drains.erase id else s.coh.drains.set id { d with left := d.left - 1 }
    ({ s with coh := { s.coh with drains := ds } }).drainNext d.core

/-- A drain of a core in progress covers a release number. -/
def State.drainCovers (s : State) (core rsn : Nat) : Bool :=
  s.coh.drains.any (fun kd => kd.2.core == core && !kd.2.evict && decide ((kd.2.d + 256 - rsn) % 256 < 128))

/-- Asks the recorded cores other than `except` to drain (R123); true when none is recorded. -/
def State.askDrains (s : State) (x : SLine) (except : Option Nat) : State × Bool :=
  let others := x.slots.filter (fun e => some (64 * x.die + e.1) != except)
  (others.foldl (fun s e =>
    if s.pending.contains (.drn x.line x.die (64 * x.die + e.1) e.2) then s
    else s.push (.drn x.line x.die (64 * x.die + e.1) e.2)) s, others.isEmpty)

/-- Clears the slots that name a core with a covered release number (R122 step 4). -/
def State.clearSlots (s : State) (die c d : Nat) : State :=
  { s with coh := { s.coh with lines := s.coh.lines.map (fun x =>
      if x.die = die then { x with slots := x.slots.filter (fun e => !(e.1 == c && decide ((d + 256 - e.2) % 256 < 128))) } else x) } }

/-- Entries of a line's set of its slice's release-record table, of 128 sets of eight ways (R121, log entry 65). -/
def State.recWays (s : State) (x : SLine) : Nat :=
  (s.coh.lines.filter (fun y => y.die == x.die && !y.slots.isEmpty && s.localSlice y.line x.die == s.localSlice x.line x.die
    && s.setOf y.line % 128 == s.setOf x.line % 128)).length
/-- A lazy release of a core can be recorded at a line (R120, R121): in a slot that names it, or a free one, of an entry that
exists or finds a way; `counted` tells that the release is already among the 64 that may be made since a drain. -/
def State.canRecord (s : State) (core : Nat) (x : SLine) (counted : Bool) : Bool :=
  (counted || decide ((s.core core).lazy < 64)) && (x.slots.any (fun e => e.1 == core % 64)
    || (decide (x.slots.length < 4) && (!x.slots.isEmpty || decide (s.recWays x < 8))))
/-- The release number of a lazy release: one for all the lines of its own access (R121). -/
def State.nextRsn (s : State) (core : Nat) : State × Nat :=
  let c := s.core core
  let rsn := (c.rsn + 1) % 256
  (s.putCore core { c with rsn := rsn, lazy := c.lazy + 1 }, rsn)
/-- Records a lazy release at a line of its own access. -/
def State.record (s : State) (core rsn : Nat) (x : SLine) : State :=
  s.putSl { x with slots := x.slots.filter (fun e => e.1 != core % 64) ++ [(core % 64, rsn)] }

/-! ### Messages out of the device -/

/-- w(p) of R139, and the plane of a name over live planes. -/
def planeWeight (x p : Nat) : Nat := crc32c (byteList 8 x ++ [p])
def planeOf (live x : Nat) : Option Nat :=
  (List.range 18).foldl (fun (b : Option Nat) p =>
    if !bit live p then b else match b with
      | none => some p
      | some q => if planeWeight x q < planeWeight x p then some p else b) none
/-- The planes of a pod map that this part has a port for (R4, R6). -/
def livePlanes (plive : Nat) : Nat := plive % 2 ^ Config.nport
/-- The plane of a name on the pod map in force; 0 when no plane is live, and then nothing arrives. -/
def State.planeFor (s : State) (x : Nat) : Nat := (planeOf (livePlanes s.dcb.plive) x).getD 0

/-- The value x by which a message chooses its plane (R139, R396).  An answer travels on the plane of the message it answers
(`State.planeIn`). -/
def planeName (tgt : Nat) (kind : Instr) (args : List Nat) : Nat :=
  let a (i : Nat) : Nat := args.getD i 0
  if kind = .oreq ∨ kind = .ofwd then a 0 * 2 ^ 29 + a 1 / 128 % 2 ^ 29
  else if kind = .mcpy ∨ kind = .mcpa then a 0 * 2 ^ 29 + 32 * a 1
  else if kind = .rdur then a 1 * 2 ^ 32 + a 0
  else if kind = .rdura then tgt * 2 ^ 32 + a 0
  else if kind = .collectiveContribution then a 0 * 2 ^ 32 + a 1
  else if kind = .pinv ∨ kind = .piack ∨ kind = .psi ∨ kind = .psia ∨ kind = .psclr then a 0
  else a 0 * 2 ^ 29

/-- The fabric port of a plane carries messages (R466, R467). -/
def State.portUp (s : State) (plane : Nat) : Bool := bit s.dcb.fpst plane
/-- A message leaves by the port of a plane; one for a port that is down is lost, as on a lost plane (R467).  The host (254) is not
behind a port. -/
def State.leave1 (s : State) (m : OutMsg) : State :=
  { s with fab := { s.fab with outbox := if m.tgt = 254 ∨ s.portUp m.plane then s.fab.outbox ++ [m] else s.fab.outbox } }
/-- A message that takes no sequence number, on a plane. -/
def State.sendAt (s : State) (plane tgt : Nat) (kind : Instr) (args : List Nat) : State := s.leave1 ⟨tgt, kind, args, 0, plane⟩
/-- A message of a line with name x, or chosen by x, that takes no sequence number. -/
def State.sendOn (s : State) (x tgt : Nat) (kind : Instr) (args : List Nat) : State := s.sendAt (s.planeFor x) tgt kind args
/-- A message that expects no answer, to a device, the switch chips (255) or the host (254). -/
def State.sendOut (s : State) (tgt : Nat) (kind : Instr) (args : List Nat) : State :=
  s.sendOn (planeName tgt kind args) tgt kind args

def State.peerOut (s : State) (dev : Nat) : PeerOut := (s.fab.peersOut.get dev).getD ⟨0, [], []⟩
def State.putPeer (s : State) (dev : Nat) (p : PeerOut) : State :=
  { s with fab := { s.fab with peersOut := s.fab.peersOut.set dev p } }
/-- An OREQ of an atomic: its operation stands in the sixth place of its fields. -/
def OutMsg.atomic (m : OutMsg) : Bool := m.kind == .oreq && m.args.getD 5 0 == 2
/-- At most 4 096 requests to a device are unacknowledged, and at most 64 of them atomics (R141). -/
def PeerOut.room (p : PeerOut) (m : OutMsg) : Bool :=
  decide (p.unacked.length < 4096) && (!m.atomic || decide ((p.unacked.filter (fun u => u.2.2.atomic)).length < 64))
/-- A packet leaves with the next sequence number of its pair (R141): an OREQ to the switch of its plane (R134), any other to
its device; one that is answered is kept until then. -/
def State.emit (s : State) (dev : Nat) (m0 : OutMsg) (r : Option ObjReq) (answered : Bool) : State :=
  let p := s.peerOut dev
  let m := { m0 with seq := p.seq, plane := s.planeFor (planeName dev m0.kind m0.args) }
  let s := s.putPeer dev { p with seq := (p.seq + 1) % 2 ^ 32
                                  unacked := if answered then p.unacked ++ [(p.seq, s.cycle, m)] else p.unacked }
  let s := match r with
    | some r => if s.portUp m.plane then s.push (.podDirOreq { r with seq := m.seq } dev) else s
    | none => s.leave1 m
  if !answered then s else
    let s := s.after s.dcb.frto (.frtoExpiry dev m.seq)
    if s.timers.any (fun t => t.2 == .peerTimeout dev) then s else s.after s.dcb.pto (.peerTimeout dev)
/-- A packet concerns a line with a request unanswered on another plane than its own: it leaves after that one (R143). -/
def State.planeOwed (s : State) (dev : Nat) (m : OutMsg) : Bool :=
  let x := planeName dev m.kind m.args
  (s.peerOut dev).unacked.any (fun u => planeName dev u.2.2.kind u.2.2.args == x && u.2.2.plane != s.planeFor x)
/-- Queues a packet for another device: one beyond the limits, or behind one that waits, waits here. -/
def State.sendPacket (s : State) (dev : Nat) (kind : Instr) (args : List Nat) (r : Option ObjReq) (answered : Bool) : State :=
  let p := s.peerOut dev
  let m : OutMsg := ⟨dev, kind, args, if answered then 1 else 0, 0⟩
  if p.hold.isEmpty && (!answered || p.room m) && !s.planeOwed dev m then s.emit dev m r answered
  else s.putPeer dev { p with hold := p.hold ++ [(m, r)] }
/-- Packets that waited leave, in order, as far as the limits allow. -/
def State.sendHeld (s : State) (dev : Nat) : State :=
  (s.peerOut dev).hold.foldl (fun s _ =>
    let p := s.peerOut dev
    match p.hold with
    | [] => s
    | h :: rest =>
      if (h.1.seq = 0 || p.room h.1) && !s.planeOwed dev h.1 then (s.putPeer dev { p with hold := rest }).emit dev h.1 h.2 (h.1.seq != 0) else s) s
/-- Queues a request for another device, kept until answered (R141). -/
def State.sendDev (s : State) (dev : Nat) (kind : Instr) (args : List Nat) : State := s.sendPacket dev kind args none true
/-- A message of a pair that no answer of its target acknowledges: it only takes the next sequence number (R58). -/
def State.sendSeq (s : State) (dev : Nat) (kind : Instr) (args : List Nat) : State := s.sendPacket dev kind args none false
/-- A message of the object space to a device, which may be this one. -/
def State.sendTo (s : State) (dev : Nat) (m : Msg) (args : List Nat) : State :=
  if dev = s.devNum then s.push m else s.sendDev dev m.kind args
/-- An answer to a device: it is not itself retransmitted. -/
def State.answerTo (s : State) (dev : Nat) (m : Msg) (args : List Nat) : State :=
  if dev = s.devNum then s.push m else s.sendOut dev m.kind args

/-! ### Home transactions (R129) -/

def State.txn (s : State) (l : LineId) : Option Txn := s.coh.busy.find? (fun t => t.line == l)
def State.dropTxn (s : State) (l : LineId) : State :=
  { s with coh := { s.coh with busy := s.coh.busy.filter (fun t => t.line != l) } }
def State.putTxn (s : State) (t : Txn) : State :=
  { s with coh := { s.coh with busy := s.coh.busy.filter (fun x => x.line != t.line) ++ [t] } }

/-- The halves a byte mask touches: bit 0 the lower, bit 1 the upper. -/
def halvesOf (mask : Nat) : Nat := (if mask % 2 ^ 64 = 0 then 0 else 1) + (if mask / 2 ^ 64 % 2 ^ 64 = 0 then 0 else 2)

/-- The halves of a line that the host holds in a state the access must change, and whether the half goes (R149): `inv` the
halves written or given up; any other half is only filled. -/
def hostHalves (e : DirEnt) (inv : Nat) : List (Nat × Bool) :=
  [(0, e.hlo), (1, e.hhi)].filterMap (fun h =>
    if bit inv h.1 ∧ h.2 ≠ 0 then some (h.1, true) else if h.2 = 2 then some (h.1, false) else none)
/-- The host holds no half that a write touches. -/
def hostFree (e : DirEnt) (halves : Nat) : Bool := (!bit halves 0 || e.hlo == 0) && (!bit halves 1 || e.hhi == 0)

/-- Sends a BISnp for a half and starts its timeout (R149). -/
def State.sendBisnp (s : State) (l : LineId) (half : Nat) (inv : Bool) : State :=
  let s := { s with host := { s.host with bisnp := s.host.bisnp ++ [(⟨l, half, inv, s.cycle⟩ : BiSnp)] } }
  (s.sendOut 254 .bisnpAnswer [l.name, half, if inv then 1 else 0]).after s.dcb.hbto (.hbtoExpiry l half s.cycle)

/-- Dies of PRES other than one. -/
def DirEnt.others (e : DirEnt) (die : Nat) : List Nat := (List.range 4).filter (fun d => bit e.pres d && d != die)

/-- The host's state of a half (R126). -/
def DirEnt.setHalf (e : DirEnt) (half v : Nat) : DirEnt := if half = 0 then { e with hlo := v } else { e with hhi := v }
/-- Requesters 8 and above are the host's: half and the number of its request (R148). -/
def hostDie (half id : Nat) : Nat := 8 + half + 2 * id

/-- The host's request is answered: its half of the line, its check value tested (R146), and the state it now holds it in (R148,
R149). -/
def State.completeHost (s : State) (t : Txn) : State :=
  let e := s.dirOf t.line
  let half := t.die % 2
  let (s, x) := s.chkReceipt t.line (match t.data with | some d => d | none => s.lineNow t.line)
  let s := if t.data.isNone then s.memMet t.line x.2 else s
  let s := { s with host := { s.host with answers := s.host.answers ++ [((t.die - 8) / 2, lineGet x.1 (64 * half) 64)] } }
  let s := if t.kind = 0 then s.putDir (if half = 0 ∧ e.hlo = 0 ∨ half = 1 ∧ e.hhi = 0 then e.setHalf half 1 else e)
    else
      let s := match t.data with
        | some d => s.toMem (s.homeDie t.line) t.line d.1 d.2
        | none => s
      s.putDir ({ e with pres := 0, own := none, ps := false }.setHalf half 2)
  s.dropTxn t.line

/-- Ends a transaction whose answers are all in: data or a grant to the requester, or the entry freed (R129, R131). -/
def State.completeTxn (s : State) (t : Txn) : State :=
  if 8 ≤ t.die then s.completeHost t else
  let e := s.dirOf t.line
  let held := s.slSt t.die t.line != .i && bit e.pres t.die
  match t.kind with
  | 0 =>
    let clean := e.hlo = 0 ∧ e.hhi = 0 ∧ !e.ps
    let alone := (e.others t.die).isEmpty && clean && t.line.key != 0x3FF
      && (!s.recLine t.line || t.die == s.homeDie t.line)
    let s := s.putTxn { t with granted := true }
    if held then s.push (.data t.line t.die 0 false .s)
    else if t.granted then s.putDir (e.withDie t.die false)
    else
      let x := match t.data with | some d => d | none => s.lineNow t.line
      let (s, x) := s.chkReceipt t.line x
      let s := if t.data.isNone then s.memMet t.line x.2 else s
      (s.putDir (e.withDie t.die alone)).push (.data t.line t.die x.1 x.2 (if alone then .e else .s))
  | 1 =>
    let x := match t.data with | some d => d | none => s.lineNow t.line
    let s := s.putTxn { t with granted := true }
    let s := s.putDir { e with pres := 2 ^ t.die, own := some t.die, ps := false }
    let (s, x) := s.chkReceipt t.line x
    let s := if t.data.isNone then s.memMet t.line x.2 else s
    s.push (.data t.line t.die x.1 x.2 .m)
  | 2 =>
    let s := s.putTxn { t with granted := true }
    (s.putDir { e with pres := 2 ^ t.die, own := some t.die, ps := false }).push (.gnt t.line t.die)
  | _ =>
    let s := match t.data with
      | some d => s.toMem (s.homeDie t.line) t.line d.1 d.2
      | none => s
    (s.putDir { e with pres := 0, own := none, hlo := 0, hhi := 0, ps := false }).dropTxn t.line

/-- Opens a request at the home: the snoops of R129, the host's halves (R149) and the pod directory (R135). -/
def State.openTxn (s : State) (l : LineId) (kind0 die touched : Nat) : State :=
  let e := s.dirOf l
  let kind := if kind0 = 2 ∧ (!bit e.pres die ∨ s.slSt die l == .i ∨ s.slSt die l == .wb) then 1 else kind0
  let write := kind != 0
  let halves := if 8 ≤ die then [] else hostHalves e (if kind = 0 then 0 else if kind = 3 then 3 else touched)
  let s := halves.foldl (fun s h => s.sendBisnp l h.1 h.2) s
  let psi := write && e.ps
  let s := if psi then s.push (.psi l.name s.devNum) else s
  let snoops := if kind = 0 then (match e.own with | some k => if k = die then [] else [k] | none => []) else
    if kind = 3 then (List.range 4).filter (fun d => bit e.pres d) else e.others die
  let s := snoops.foldl (fun s k => s.push
    (if kind = 0 then .snps l k die else if kind = 3 then .binv l k else .snpi l k die)) s
  let left := halves.length + (if psi then 1 else 0) + snoops.length
  let t : Txn := ⟨l, kind, die, left, none, false⟩
  let s := s.putTxn t
  if left = 0 then s.completeTxn t else s

/-- An entry that occupies a way: someone other than the home die holds the line (R126). -/
def DirEnt.outside (e : DirEnt) (home : Nat) : Bool :=
  andNot e.pres (2 ^ home) != 0 || e.ps || e.hlo != 0 || e.hhi != 0
/-- Set of a line in a directory of 2 048 sets (log entry 65). -/
def dirSet (l : LineId) : Nat := (l.name ^^^ (l.name / 2 ^ 11)) % 2048
/-- The entries of a line's directory set, least recently written first. -/
def State.dirPeers (s : State) (l : LineId) : List DirEnt :=
  s.coh.dir.filter (fun e => e.line != l && dirSet e.line == dirSet l && s.home e.line == s.home l && e.outside (s.homeDie e.line))
/-- A request of a die needs a directory way and all 16 of the set are taken (R126, R131). -/
def State.dirFull (s : State) (l : LineId) (die : Nat) : Bool :=
  die != s.homeDie l && !(s.dirOf l).outside (s.homeDie l) && decide (16 ≤ (s.dirPeers l).length)

/-- A directory entry of a line's full set is evicted, unless one is (R131). -/
def State.evictDir (s : State) (l : LineId) : State :=
  if (s.dirPeers l).any (fun e => s.coh.busy.any (fun t => t.kind == 3 && t.line == e.line)) then s
  else match (s.dirPeers l).find? (fun e => (s.txn e.line).isNone) with
    | some e => s.openTxn e.line 3 4 3
    | none => s

/-- Begins a request at the home; one that needs the way of another entry waits at the head of its line's requests while that
entry is evicted (R131). -/
def State.beginTxn (s : State) (l : LineId) (kind die touched : Nat) : State :=
  if kind ≠ 3 ∧ s.dirFull l die then
    ({ s with coh := { s.coh with queue := (l, kind, die, touched) :: s.coh.queue } }).evictDir l
  else s.openTxn l kind die touched

/-- A request reaches the home: one at a time for a line, in arrival order (R129). -/
def State.reqLine (s : State) (l : LineId) (kind die touched : Nat) : State :=
  if (s.txn l).isSome || s.coh.queue.any (fun q => q.1 == l) then
    { s with coh := { s.coh with queue := s.coh.queue ++ [(l, kind, die, touched)] } }
  else s.beginTxn l kind die touched

/-- The next queued request of a line. -/
def State.nextOne (s : State) (l : LineId) : State :=
  match s.coh.queue.find? (fun q => q.1 == l) with
  | none => s
  | some q =>
    let s := { s with coh := { s.coh with queue := s.coh.queue.erase q } }
    s.beginTxn q.1 q.2.1 q.2.2.1 q.2.2.2
/-- The queued requests of a line go on until one is open. -/
def State.nextTxn (s : State) (l : LineId) : State :=
  s.coh.queue.foldl (fun s _ => if (s.txn l).isSome then s else s.nextOne l) s

/-- A transaction has ended: requests that wait for a directory way look again (R131). -/
def State.kickTxns (s : State) : State :=
  (s.coh.queue.map (·.1)).dedup.foldl (fun s l => s.nextTxn l) s

/-- One answer of a transaction has arrived. -/
def State.ansTxn (s : State) (l : LineId) (data : Option (Nat × Bool)) (fwd : Bool) : State :=
  match s.txn l with
  | none => s
  | some t =>
    let t := { t with left := t.left - 1, data := match data with | some d => some d | none => t.data
                      granted := t.granted || fwd }
    let s := s.putTxn t
    if t.left = 0 then
      let s := s.completeTxn t
      if t.kind = 3 ∨ 8 ≤ t.die then (s.nextTxn l).kickTxns else s
    else s

/-- Speculative lines of one set of a slice (R103, R107): each is tagged with the version, the gang, that holds it. -/
def State.specWays (s : State) (slice set : Nat) : Nat :=
  s.gangs.foldl (fun a kg => a + (kg.2.spec.filter (fun x => x.slice == slice && x.set == set)).length) 0

/-- A die's copies that share the set of a line, least recently used first. -/
def State.setLines (s : State) (die : Nat) (l : LineId) : List SLine :=
  s.coh.lines.filter (fun x => x.die == die && x.st != .wb
    && s.localSlice x.line die == s.localSlice l die && s.setOf x.line == s.setOf l)
/-- The ways of a line's set that are neither gated nor speculative (R103, R115). -/
def State.waysFor (s : State) (die : Nat) (l : LineId) : Nat :=
  let slice := s.localSlice l die
  16 - 2 * ((s.coh.gated.find? (fun g => g.1 == slice)).map (·.2)).getD 0 - s.specWays slice (s.setOf l)

/-- A full set gives up its least recently used line that is not held; one with release records goes once they are drained (R103,
R124). -/
def State.trimOne (s : State) (die : Nat) (l : LineId) (but : Bool) : State :=
  let same := s.setLines die l
  match same.find? (fun x => !x.held && !(but && x.line == l) && (s.txn x.line).isNone) with
    | none => s
    | some v =>
      if !v.slots.isEmpty then (s.askDrains v none).1
      else if v.st == .m || v.st == .o then (s.putSl { v with st := .wb }).push (.wbd v.line die v.data v.poison)
      else (s.dropSl die v.line).push (.evc v.line die)

/-- A set with more lines than ways gives up one for each that is too many. -/
def State.trimSet (s : State) (die : Nat) (l : LineId) (but : Bool) : State :=
  (List.range ((s.setLines die l).length - s.waysFor die l)).foldl (fun s _ => s.trimOne die l but) s

/-- A die's copy installed (R125). -/
def State.install (s : State) (die : Nat) (l : LineId) (st : Moesi) (data : Nat) (poison : Bool) : State :=
  let old := s.sl die l
  (s.putSl ⟨die, l, st, data, poison, chkOf data, (old.map (·.held)).getD false, (old.map (·.slots)).getD []⟩).trimSet die l true

/-- A migration of this device in COPY notes a write to a chunk already sent (R73). -/
def State.noteWrite (s : State) (l : LineId) : State :=
  if !l.obj then s else
  match s.fab.migs.get l.ident with
  | none => s
  | some m =>
    let c := l.off / 4096
    if m.phase = 1 ∧ m.sent.contains c ∧ !m.dirty.contains c then
      { s with fab := { s.fab with migs := s.fab.migs.set l.ident { m with dirty := m.dirty ++ [c] } } }
    else s

/-- New bytes performed at a die's copy held in M or E (R129); a recovery-class line goes to its recovery unit and the copy
stays clean (R187).  The merge checks the old value (R146); a whole-line write clears poison (R111). -/
def State.sliceWrite (s : State) (die : Nat) (l : LineId) (data mask : Nat) (poison : Bool) : State :=
  match s.sl die l with
  | none => s
  | some x =>
    let (s, old) := s.chkReceipt l (x.data, x.poison)
    let d := lineMerge old.1 data mask
    let p := poison || (old.2 && mask != lineFull)
    let s := (s.noteWrite l).wakeNaps
    if s.recLine l then
      (s.toMem (s.homeDie l) l d p).putSl { x with st := .e, data := d, poison := p, chk := chkOf d }
    else s.putSl { x with st := .m, data := d, poison := p, chk := chkOf d }

/-- The die at which a write to a line is performed: its home for a recovery-class line, else the writer's (R187, R328). -/
def State.writeDie (s : State) (die : Nat) (l : LineId) : Nat := if s.recLine l then s.homeDie l else die

/-- A die's copy allows a write. -/
def State.writable (s : State) (die : Nat) (l : LineId) : Bool := s.slSt die l == .m || s.slSt die l == .e

/-- It allows one of the bytes of a mask: the host holds no half that they touch (R149). -/
def State.canWrite (s : State) (die : Nat) (l : LineId) (mask : Nat) : Bool :=
  s.writable die l && hostFree (s.dirOf l) (halvesOf mask)

/-- A request of a die for a line is on its way or at the home. -/
def State.asked (s : State) (die : Nat) (l : LineId) : Bool :=
  s.pending.any (fun m => match m with
      | .rds l' d => l' == l && d == die
      | .rdo l' d _ => l' == l && d == die
      | .upg l' d _ => l' == l && d == die
      | _ => false)
    || s.timers.any (fun m => match m.2 with
      | .rds l' d => l' == l && d == die
      | .rdo l' d _ => l' == l && d == die
      | _ => false)
    || s.coh.queue.any (fun q => q.1 == l && q.2.2.1 == die) || s.coh.busy.any (fun t => t.line == l && t.die == die)

/-- Asks for a readable copy (R127). -/
def State.askS (s : State) (die : Nat) (l : LineId) : State := if s.asked die l then s else s.push (.rds l die)

/-- Asks for M, and for the halves a write touches: UPG from a copy that is held, RDO otherwise (R127, R149). -/
def State.askM (s : State) (die : Nat) (l : LineId) (mask : Nat) : State :=
  if s.asked die l then s
  else if s.slSt die l == .i || s.slSt die l == .wb then s.push (.rdo l die (halvesOf mask)) else s.push (.upg l die (halvesOf mask))

/-- Performs the L1 write-backs that wait for M at a die (R122); one whose half the host still holds asks for it. -/
def State.flushWb (s : State) (die : Nat) (l : LineId) : State :=
  if !s.writable die l then s else
  let ok (w : WbWait) : Bool := w.die == die && w.line == l && hostFree (s.dirOf l) (halvesOf w.mask)
  let mine := s.coh.wbw.filter ok
  let s := { s with coh := { s.coh with wbw := s.coh.wbw.filter (fun w => !ok w) } }
  let s := mine.foldl (fun s w => (s.sliceWrite die l w.data w.mask false).ackDrain w.drain) s
  match s.coh.wbw.find? (fun w => w.die == die && w.line == l) with
  | some w => s.askM die l w.mask
  | none => s

/-! ### Quiet coherence -/

/-- No transaction, host copy, pod-directory record or release record is outstanding. -/
def State.isQuiet (s : State) : Bool :=
  s.coh.busy.isEmpty && s.coh.queue.isEmpty && s.coh.wbw.isEmpty
    && s.coh.dir.all (fun e => e.hlo == 0 && e.hhi == 0 && !e.ps) && s.coh.lines.all (fun x => x.slots.isEmpty && x.st != .wb)

/-- Brings coherence to rest: recorded cores drain (R123), entries that the host or the pod directory shares are evicted
(R131). Both may happen at any time. -/
def State.settle (s : State) : State :=
  let s := s.coh.lines.foldl (fun s x => (s.askDrains x none).1) s
  s.coh.dir.foldl (fun s e =>
    if (e.hlo != 0 || e.hhi != 0 || e.ps) && (s.txn e.line).isNone then s.openTxn e.line 3 4 3 else s) s

/-- An event whose effect touches lines as one step waits until coherence is at rest; no bundle issues meanwhile, so that
this comes (log entry 9). -/
def whenQuiet (s : State) (m : Msg) (k : State → State) : State :=
  if s.isQuiet then k s
  else
    let s := s.settle.after 16 m
    { s with coh := { s.coh with calm := s.cycle + 17 } }

end Sys2Proof.Machine
end

