-- ==== Sys2Proof/WellFormed.lean ====
section
/-! DEFINITION. The decode-time checks on an instruction's fields (R258 to R260, R263 to R265, R320, R327 and the
entries), each failure named.  Decoding raises ILLEGAL for every one of them (R268). -/

namespace Sys2Proof

/-- Why an instruction is not well formed. -/
inductive IllFormed where
  /-- A field does not fit its place in the format (R257). -/
  | fieldRange
  /-- A pair field is odd (R259). -/
  | oddPair
  /-- A W128 vector field is not a multiple of 4 (R320). -/
  | oddQuad
  /-- A mask field is 16 or more (R259). -/
  | maskField
  /-- A reserved type, format code or sub-field. -/
  | typeReserved
  /-- A reserved condition or scale. -/
  | conditionReserved
  /-- A field the entry does not use is non-zero (R258). -/
  | unusedOperand
  /-- An immediate outside the form's range (R260). -/
  | immRange
  /-- A MODX field the entry does not accept, or an inconsistent one (R264, R265). -/
  | modxField
  /-- An ordering or scope the instruction may not carry (R163, R264). -/
  | modxOrder
  /-- A space the family refuses (R13, R16). -/
  | spaceRefused
  /-- A width the row refuses (R320). -/
  | widthRefused
  /-- A mode the row refuses (R320). -/
  | modeRefused
  /-- HOLD or SYNC on a command that does not accept it (R363). -/
  | optionRefused
  /-- A CSR number no entry assigns (R359). -/
  | csrNumber
  deriving DecidableEq, Repr

/-- The first failure of a list of checks. -/
def firstBad : List (Option IllFormed) → Option IllFormed
  | [] => none
  | some e :: _ => some e
  | none :: rest => firstBad rest

/-- A check that passes when `b` holds. -/
def need (b : Bool) (e : IllFormed) : Option IllFormed := if b then none else some e

/-- A register slot of six bits, even when it names a pair (R259). -/
def field (pair : Bool) (f : Nat) : Option IllFormed :=
  if f < 64 then (if pair && f % 2 == 1 then some .oddPair else none) else some .fieldRange

/-- A field that names a mask register (R259). -/
def maskField (f : Nat) : Option IllFormed := need (decide (f < 16)) .maskField

/-- A type or format code below `n`. -/
def typeBelow (n t : Nat) : Option IllFormed := need (decide (t < n)) .typeReserved

/-- Types S64 and N64 of R275. -/
def isWide (t : Nat) : Bool := t == 2 || t == 3
/-- Index type S64 of R281, R288 and R289. -/
def isLong (t : Nat) : Bool := t == 2
/-- Type F64 of R298, R303, R307 and the W64 type bit of the shuffles. -/
def isF64 (t : Nat) : Bool := t == 1
/-- 64-bit types of R315. -/
def isWideXl (t : Nat) : Bool := t == 2 || t == 3 || t == 5
/-- 64-bit register type codes of R310. -/
def isWideCode (x : Nat) : Bool := x == 0 || x == 6 || x == 7
/-- Integer codes of R310. -/
def isIntCode (x : Nat) : Bool := x == 4 || x == 5 || x == 6 || x == 7
/-- 8-bit narrow codes of R310. -/
def isByteCode (x : Nat) : Bool := x == 2 || x == 3 || x == 4 || x == 5

/-- CSR numbers that R360 and R456 assign. -/
def csrAssigned (n : Nat) : Bool :=
  decide (n ≤ 4) || decide (0x10 ≤ n ∧ n ≤ 0x18) || n == 0x20 || n == 0x21 || decide (0x30 ≤ n ∧ n ≤ 0x34)
    || n == 0x40 || n == 0x41 || n == 0x50 || decide (0x100 ≤ n ∧ n ≤ 0x17F)

/-- The 64-bit CSRs TVEC and TFPC.0 to TFPC.7 (R360). -/
def csrWide (n : Nat) : Bool := n == 4 || decide (0x10 ≤ n ∧ n ≤ 0x17)

/-- Which MODX fields an entry accepts (R265). -/
structure ModxAcc where
  mask : Bool
  zero : Bool
  rnd  : Bool
  sat  : Bool
  op4  : Bool
  ord  : Bool
  deriving DecidableEq, Repr

/-- The MODX checks of R264 and R265 under an entry's acceptance; `pair4` when the fourth operand is a pair. -/
def modxCheck (k : ModxAcc) (pair4 : Bool) (x : Modx) : Option IllFormed :=
  firstBad [
    need (decide (x.mreg < 16 ∧ x.rnd < 6 ∧ x.op4 < 64 ∧ x.ord < 4 ∧ x.scope < 5)) .modxField,
    need (k.mask || (x.mreg == 0 && !x.men)) .modxField,
    need (k.zero || !x.mz) .modxField,
    need (x.men || (x.mreg == 0 && !x.mz)) .modxField,
    need (k.rnd || x.rnd == 0) .modxField,
    need (k.sat || !x.sat) .modxField,
    need (k.op4 || !x.op4v) .modxField,
    need (x.op4v || x.op4 == 0) .modxField,
    need (!(pair4 && x.op4 % 2 == 1)) .oddPair,
    need (k.ord || (x.ord == 0 && x.scope == 0)) .modxOrder,
    need (x.ord != 0 || x.scope == 0) .modxOrder]

/-- The seven M-format instructions. -/
inductive MemKind where
  | vld | vst | vprf | sld | sst | slda | sstr
  deriving DecidableEq, Repr

/-- Spaces each M-format family accepts at decode (R16, R320). -/
def MemKind.spaceOk : MemKind → Nat → Bool
  | .vld, sp | .vst, sp => decide (sp < 7)
  | .vprf, sp => decide (sp < 2)
  | _, sp => decide (sp < 3) || sp == 6

/-- Widths each row accepts (R320). -/
def MemKind.widthOk : MemKind → Nat → Bool
  | .vld, w | .vprf, w => decide (w < 7)
  | .vst, w => decide (w < 5)
  | .sld, w | .slda, w => decide (w < 4) || w == 5 || w == 6
  | .sst, w | .sstr, w => decide (w < 4)

/-- Scalar forms have mode 10 only (R320). -/
def MemKind.scalar : MemKind → Bool
  | .vld | .vst | .vprf => false
  | _ => true

/-- Orderings each row may carry in a space (R163, R265). -/
def MemKind.ordOk (k : MemKind) (sp ord : Nat) : Bool :=
  match k with
  | .vld | .sld => ord == 0 || (ord == 1 && decide (sp < 3))
  | .vst | .sst => ord == 0 || (ord == 2 && decide (sp < 3))
  | .vprf => ord == 0
  | .slda => ord == 1
  | .sstr => ord == 2

/-- The decode checks of R320 on an M-format word. -/
def memCheck (k : MemKind) (x : MemOp) : Option IllFormed :=
  firstBad [
    need (k.spaceOk x.sp) .spaceRefused,
    need (k.widthOk x.w) .widthRefused,
    need (if k.scalar then x.mode == 2 else decide (x.mode < 4)) .modeRefused,
    (if k = .vprf then need (decide (x.d < 2)) .immRange
      else if x.w = 4 then firstBad [field true x.d, need (x.d % 4 == 0) .oddQuad] else field (x.w == 3) x.d),
    field true x.a, field false x.b,
    need (k.ordOk x.sp x.m.ord) .modxOrder,
    modxCheck ⟨!k.scalar, k = .vld, false, false, false, true⟩ false x.m]

/-- The decode-time checks of R258 to R260, R263 to R265 and of each entry on the fields of an instruction;
`none` is a legal instruction.  An event has no encoding and no field check. -/
def Instr.check : Instr → Option IllFormed
  | .sadd x => firstBad [typeBelow 4 x.t, field (isWide x.t) x.d, field (isWide x.t) x.a, field (isWide x.t) x.b, modxCheck ⟨false, false, false, true, false, false⟩ (false) x.m]
  | .ssub x => firstBad [typeBelow 4 x.t, field (isWide x.t) x.d, field (isWide x.t) x.a, field (isWide x.t) x.b, modxCheck ⟨false, false, false, true, false, false⟩ (false) x.m]
  | .smul x => firstBad [typeBelow 4 x.t, field (isWide x.t) x.d, field (isWide x.t) x.a, field (isWide x.t) x.b, modxCheck ⟨false, false, false, true, false, false⟩ (false) x.m]
  | .smulh x => firstBad [typeBelow 4 x.t, field (isWide x.t) x.d, field (isWide x.t) x.a, field (isWide x.t) x.b, modxCheck ⟨false, false, false, false, false, false⟩ (false) x.m]
  | .sdiv x => firstBad [typeBelow 4 x.t, field (isWide x.t) x.d, field (isWide x.t) x.a, field (isWide x.t) x.b, modxCheck ⟨false, false, false, false, false, false⟩ (false) x.m]
  | .srem x => firstBad [typeBelow 4 x.t, field (isWide x.t) x.d, field (isWide x.t) x.a, field (isWide x.t) x.b, modxCheck ⟨false, false, false, false, false, false⟩ (false) x.m]
  | .sand x => firstBad [typeBelow 4 x.t, field (isWide x.t) x.d, field (isWide x.t) x.a, field (isWide x.t) x.b, modxCheck ⟨false, false, false, false, false, false⟩ (false) x.m]
  | .sor x => firstBad [typeBelow 4 x.t, field (isWide x.t) x.d, field (isWide x.t) x.a, field (isWide x.t) x.b, modxCheck ⟨false, false, false, false, false, false⟩ (false) x.m]
  | .sxor x => firstBad [typeBelow 4 x.t, field (isWide x.t) x.d, field (isWide x.t) x.a, field (isWide x.t) x.b, modxCheck ⟨false, false, false, false, false, false⟩ (false) x.m]
  | .sshl x => firstBad [typeBelow 4 x.t, field (isWide x.t) x.d, field (isWide x.t) x.a, field (false) x.b, modxCheck ⟨false, false, false, true, false, false⟩ (false) x.m]
  | .sshr x => firstBad [typeBelow 4 x.t, field (isWide x.t) x.d, field (isWide x.t) x.a, field (false) x.b, modxCheck ⟨false, false, false, false, false, false⟩ (false) x.m]
  | .ssra x => firstBad [typeBelow 4 x.t, field (isWide x.t) x.d, field (isWide x.t) x.a, field (false) x.b, modxCheck ⟨false, false, false, false, false, false⟩ (false) x.m]
  | .smin x => firstBad [typeBelow 4 x.t, field (isWide x.t) x.d, field (isWide x.t) x.a, field (isWide x.t) x.b, modxCheck ⟨false, false, false, false, false, false⟩ (false) x.m]
  | .smax x => firstBad [typeBelow 4 x.t, field (isWide x.t) x.d, field (isWide x.t) x.a, field (isWide x.t) x.b, modxCheck ⟨false, false, false, false, false, false⟩ (false) x.m]
  | .sclz x => firstBad [typeBelow 4 x.t, field (isWide x.t) x.d, field (isWide x.t) x.a, field (false) x.b, need (x.b == 0) .unusedOperand, modxCheck ⟨false, false, false, false, false, false⟩ (false) x.m]
  | .spopc x => firstBad [typeBelow 4 x.t, field (isWide x.t) x.d, field (isWide x.t) x.a, field (false) x.b, need (x.b == 0) .unusedOperand, modxCheck ⟨false, false, false, false, false, false⟩ (false) x.m]
  | .scmp x => firstBad [typeBelow 4 x.t, field (false) x.d, field (isWide x.t) x.a, field (isWide x.t) x.b, need (decide (x.cc < 6)) .conditionReserved, modxCheck ⟨false, false, false, false, false, false⟩ (false) x.m]
  | .ssel x => firstBad [typeBelow 4 x.t, field (isWide x.t) x.d, field (isWide x.t) x.a, field (isWide x.t) x.b, modxCheck ⟨false, false, false, false, true, false⟩ (false) x.m]
  | .smov x => firstBad [typeBelow 4 x.t, field (isWide x.t) x.d, field (isWide x.t) x.a, field (false) x.b, need (x.b == 0) .unusedOperand, modxCheck ⟨false, false, false, false, false, false⟩ (false) x.m]
  | .slea x => firstBad [typeBelow 3 x.t, field (true) x.d, field (true) x.a, field (isLong x.t) x.b, need (decide (x.cc < 5)) .conditionReserved, modxCheck ⟨false, false, false, false, false, false⟩ (false) x.m]
  | .saddS32Imm x => firstBad [field false x.d, field false x.a, need (decide (-2147483648 ≤ x.imm ∧ x.imm ≤ 4294967295)) .immRange, modxCheck ⟨false, false, false, true, false, false⟩ false x.m]
  | .smulS32Imm x => firstBad [field false x.d, field false x.a, need (decide (-2147483648 ≤ x.imm ∧ x.imm ≤ 4294967295)) .immRange, modxCheck ⟨false, false, false, true, false, false⟩ false x.m]
  | .sandS32Imm x => firstBad [field false x.d, field false x.a, need (decide (-2147483648 ≤ x.imm ∧ x.imm ≤ 4294967295)) .immRange, modxCheck ⟨false, false, false, false, false, false⟩ false x.m]
  | .sorS32Imm x => firstBad [field false x.d, field false x.a, need (decide (-2147483648 ≤ x.imm ∧ x.imm ≤ 4294967295)) .immRange, modxCheck ⟨false, false, false, false, false, false⟩ false x.m]
  | .sxorS32Imm x => firstBad [field false x.d, field false x.a, need (decide (-2147483648 ≤ x.imm ∧ x.imm ≤ 4294967295)) .immRange, modxCheck ⟨false, false, false, false, false, false⟩ false x.m]
  | .sshlS32Imm x => firstBad [field false x.d, field false x.a, need (decide (0 ≤ x.imm ∧ x.imm ≤ 31)) .immRange, modxCheck ⟨false, false, false, true, false, false⟩ false x.m]
  | .sshrS32Imm x => firstBad [field false x.d, field false x.a, need (decide (0 ≤ x.imm ∧ x.imm ≤ 31)) .immRange, modxCheck ⟨false, false, false, false, false, false⟩ false x.m]
  | .ssraS32Imm x => firstBad [field false x.d, field false x.a, need (decide (0 ≤ x.imm ∧ x.imm ≤ 31)) .immRange, modxCheck ⟨false, false, false, false, false, false⟩ false x.m]
  | .sminS32Imm x => firstBad [field false x.d, field false x.a, need (decide (-2147483648 ≤ x.imm ∧ x.imm ≤ 2147483647)) .immRange, modxCheck ⟨false, false, false, false, false, false⟩ false x.m]
  | .smaxS32Imm x => firstBad [field false x.d, field false x.a, need (decide (-2147483648 ≤ x.imm ∧ x.imm ≤ 2147483647)) .immRange, modxCheck ⟨false, false, false, false, false, false⟩ false x.m]
  | .sminN32Imm x => firstBad [field false x.d, field false x.a, need (decide (0 ≤ x.imm ∧ x.imm ≤ 4294967295)) .immRange, modxCheck ⟨false, false, false, false, false, false⟩ false x.m]
  | .smaxN32Imm x => firstBad [field false x.d, field false x.a, need (decide (0 ≤ x.imm ∧ x.imm ≤ 4294967295)) .immRange, modxCheck ⟨false, false, false, false, false, false⟩ false x.m]
  | .scmpEqS32Imm x => firstBad [field false x.d, field false x.a, need (decide (-2147483648 ≤ x.imm ∧ x.imm ≤ 4294967295)) .immRange, modxCheck ⟨false, false, false, false, false, false⟩ false x.m]
  | .scmpLtS32Imm x => firstBad [field false x.d, field false x.a, need (decide (-2147483648 ≤ x.imm ∧ x.imm ≤ 2147483647)) .immRange, modxCheck ⟨false, false, false, false, false, false⟩ false x.m]
  | .scmpLtN32Imm x => firstBad [field false x.d, field false x.a, need (decide (0 ≤ x.imm ∧ x.imm ≤ 4294967295)) .immRange, modxCheck ⟨false, false, false, false, false, false⟩ false x.m]
  | .saddS64Imm x => firstBad [field true x.d, field true x.a, need (decide (-144115188075855872 ≤ x.imm ∧ x.imm ≤ 144115188075855871)) .immRange, modxCheck ⟨false, false, false, true, false, false⟩ false x.m]
  | .sli x => firstBad [field x.w64 x.d, need (if x.w64 then decide (-9223372036854775808 ≤ x.imm ∧ x.imm ≤ 18446744073709551615) else decide (-2147483648 ≤ x.imm ∧ x.imm ≤ 4294967295)) .immRange]
  | .setxv base => firstBad [need (base % 8 == 0 && decide (base ≤ 248)) .immRange]
  | .setxs base => firstBad [need (base % 8 == 0 && decide (base ≤ 1016)) .immRange]
  | .rdx d k => firstBad [field false d, need (decide (k < 5)) .immRange]
  | .vadd x => firstBad [typeBelow 4 x.t, field (isWide x.t) x.d, field (isWide x.t) x.a, field (isWide x.t) x.b, modxCheck ⟨true, true, false, false, false, false⟩ (false) x.m]
  | .vsub x => firstBad [typeBelow 4 x.t, field (isWide x.t) x.d, field (isWide x.t) x.a, field (isWide x.t) x.b, modxCheck ⟨true, true, false, false, false, false⟩ (false) x.m]
  | .vmul x => firstBad [typeBelow 4 x.t, field (isWide x.t) x.d, field (isWide x.t) x.a, field (isWide x.t) x.b, modxCheck ⟨true, true, false, true, false, false⟩ (false) x.m]
  | .vmulh x => firstBad [typeBelow 4 x.t, field (isWide x.t) x.d, field (isWide x.t) x.a, field (isWide x.t) x.b, modxCheck ⟨true, true, false, false, false, false⟩ (false) x.m]
  | .vmad x => firstBad [typeBelow 4 x.t, field (isWide x.t) x.d, field (isWide x.t) x.a, field (isWide x.t) x.b, modxCheck ⟨true, true, false, true, true, false⟩ (isWide x.t) x.m]
  | .vdiv x => firstBad [typeBelow 4 x.t, field (isWide x.t) x.d, field (isWide x.t) x.a, field (isWide x.t) x.b, modxCheck ⟨true, true, false, false, false, false⟩ (false) x.m]
  | .vrem x => firstBad [typeBelow 4 x.t, field (isWide x.t) x.d, field (isWide x.t) x.a, field (isWide x.t) x.b, modxCheck ⟨true, true, false, false, false, false⟩ (false) x.m]
  | .vadds x => firstBad [typeBelow 4 x.t, field (isWide x.t) x.d, field (isWide x.t) x.a, field (isWide x.t) x.b, modxCheck ⟨true, true, false, true, false, false⟩ (false) x.m]
  | .vsubs x => firstBad [typeBelow 4 x.t, field (isWide x.t) x.d, field (isWide x.t) x.a, field (isWide x.t) x.b, modxCheck ⟨true, true, false, true, false, false⟩ (false) x.m]
  | .vmin x => firstBad [typeBelow 4 x.t, field (isWide x.t) x.d, field (isWide x.t) x.a, field (isWide x.t) x.b, modxCheck ⟨true, true, false, false, false, false⟩ (false) x.m]
  | .vmax x => firstBad [typeBelow 4 x.t, field (isWide x.t) x.d, field (isWide x.t) x.a, field (isWide x.t) x.b, modxCheck ⟨true, true, false, false, false, false⟩ (false) x.m]
  | .vabs x => firstBad [typeBelow 4 x.t, field (isWide x.t) x.d, field (isWide x.t) x.a, field (false) x.b, need (x.b == 0) .unusedOperand, modxCheck ⟨true, true, false, true, false, false⟩ (false) x.m]
  | .vand x => firstBad [typeBelow 4 x.t, field (isWide x.t) x.d, field (isWide x.t) x.a, field (isWide x.t) x.b, modxCheck ⟨true, true, false, false, false, false⟩ (false) x.m]
  | .vor x => firstBad [typeBelow 4 x.t, field (isWide x.t) x.d, field (isWide x.t) x.a, field (isWide x.t) x.b, modxCheck ⟨true, true, false, false, false, false⟩ (false) x.m]
  | .vxor x => firstBad [typeBelow 4 x.t, field (isWide x.t) x.d, field (isWide x.t) x.a, field (isWide x.t) x.b, modxCheck ⟨true, true, false, false, false, false⟩ (false) x.m]
  | .vshl x => firstBad [typeBelow 4 x.t, field (isWide x.t) x.d, field (isWide x.t) x.a, field (false) x.b, modxCheck ⟨true, true, false, true, false, false⟩ (false) x.m]
  | .vshr x => firstBad [typeBelow 4 x.t, field (isWide x.t) x.d, field (isWide x.t) x.a, field (false) x.b, modxCheck ⟨true, true, false, false, false, false⟩ (false) x.m]
  | .vsra x => firstBad [typeBelow 4 x.t, field (isWide x.t) x.d, field (isWide x.t) x.a, field (false) x.b, modxCheck ⟨true, true, false, false, false, false⟩ (false) x.m]
  | .vclz x => firstBad [typeBelow 4 x.t, field (isWide x.t) x.d, field (isWide x.t) x.a, field (false) x.b, need (x.b == 0) .unusedOperand, modxCheck ⟨true, true, false, false, false, false⟩ (false) x.m]
  | .vpopc x => firstBad [typeBelow 4 x.t, field (isWide x.t) x.d, field (isWide x.t) x.a, field (false) x.b, need (x.b == 0) .unusedOperand, modxCheck ⟨true, true, false, false, false, false⟩ (false) x.m]
  | .vlea x => firstBad [typeBelow 3 x.t, field (true) x.d, field (true) x.a, field (isLong x.t) x.b, need (decide (x.cc < 4)) .conditionReserved, modxCheck ⟨true, true, false, false, false, false⟩ (false) x.m]
  | .vleaX16 x => firstBad [typeBelow 3 x.t, field (true) x.d, field (true) x.a, field (isLong x.t) x.b, modxCheck ⟨true, true, false, false, false, false⟩ (false) x.m]
  | .voff x => firstBad [typeBelow 3 x.t, need (x.t != 1) .typeReserved, field (true) x.d, field (true) x.a, field (isLong x.t) x.b, modxCheck ⟨true, true, false, false, false, false⟩ (false) x.m]
  | .vaddS32Imm x => firstBad [field false x.d, field false x.a, need (decide (-2147483648 ≤ x.imm ∧ x.imm ≤ 4294967295)) .immRange, modxCheck ⟨true, true, false, false, false, false⟩ false x.m]
  | .vmulS32Imm x => firstBad [field false x.d, field false x.a, need (decide (-2147483648 ≤ x.imm ∧ x.imm ≤ 4294967295)) .immRange, modxCheck ⟨true, true, false, true, false, false⟩ false x.m]
  | .vandS32Imm x => firstBad [field false x.d, field false x.a, need (decide (-2147483648 ≤ x.imm ∧ x.imm ≤ 4294967295)) .immRange, modxCheck ⟨true, true, false, false, false, false⟩ false x.m]
  | .vorS32Imm x => firstBad [field false x.d, field false x.a, need (decide (-2147483648 ≤ x.imm ∧ x.imm ≤ 4294967295)) .immRange, modxCheck ⟨true, true, false, false, false, false⟩ false x.m]
  | .vxorS32Imm x => firstBad [field false x.d, field false x.a, need (decide (-2147483648 ≤ x.imm ∧ x.imm ≤ 4294967295)) .immRange, modxCheck ⟨true, true, false, false, false, false⟩ false x.m]
  | .vshlS32Imm x => firstBad [field false x.d, field false x.a, need (decide (0 ≤ x.imm ∧ x.imm ≤ 31)) .immRange, modxCheck ⟨true, true, false, true, false, false⟩ false x.m]
  | .vshrS32Imm x => firstBad [field false x.d, field false x.a, need (decide (0 ≤ x.imm ∧ x.imm ≤ 31)) .immRange, modxCheck ⟨true, true, false, false, false, false⟩ false x.m]
  | .vsraS32Imm x => firstBad [field false x.d, field false x.a, need (decide (0 ≤ x.imm ∧ x.imm ≤ 31)) .immRange, modxCheck ⟨true, true, false, false, false, false⟩ false x.m]
  | .vminS32Imm x => firstBad [field false x.d, field false x.a, need (decide (-2147483648 ≤ x.imm ∧ x.imm ≤ 2147483647)) .immRange, modxCheck ⟨true, true, false, false, false, false⟩ false x.m]
  | .vmaxS32Imm x => firstBad [field false x.d, field false x.a, need (decide (-2147483648 ≤ x.imm ∧ x.imm ≤ 2147483647)) .immRange, modxCheck ⟨true, true, false, false, false, false⟩ false x.m]
  | .vminN32Imm x => firstBad [field false x.d, field false x.a, need (decide (0 ≤ x.imm ∧ x.imm ≤ 4294967295)) .immRange, modxCheck ⟨true, true, false, false, false, false⟩ false x.m]
  | .vmaxN32Imm x => firstBad [field false x.d, field false x.a, need (decide (0 ≤ x.imm ∧ x.imm ≤ 4294967295)) .immRange, modxCheck ⟨true, true, false, false, false, false⟩ false x.m]
  | .vaddsS32Imm x => firstBad [field false x.d, field false x.a, need (decide (-4294967295 ≤ x.imm ∧ x.imm ≤ 4294967295)) .immRange, modxCheck ⟨true, true, false, true, false, false⟩ false x.m]
  | .vaddsN32Imm x => firstBad [field false x.d, field false x.a, need (decide (-4294967295 ≤ x.imm ∧ x.imm ≤ 4294967295)) .immRange, modxCheck ⟨true, true, false, true, false, false⟩ false x.m]
  | .vaddS64Imm x => firstBad [field true x.d, field true x.a, need (decide (-144115188075855872 ≤ x.imm ∧ x.imm ≤ 144115188075855871)) .immRange, modxCheck ⟨true, true, false, false, false, false⟩ false x.m]
  | .voffS64Imm x => firstBad [field true x.d, field true x.a, need (decide (-34359738368 ≤ x.imm ∧ x.imm ≤ 68719476735)) .immRange, modxCheck ⟨true, true, false, false, false, false⟩ false x.m]
  | .mand x => firstBad [maskField x.d, maskField x.a, maskField x.b, modxCheck ⟨true, true, false, false, false, false⟩ false x.m]
  | .mor x => firstBad [maskField x.d, maskField x.a, maskField x.b, modxCheck ⟨true, true, false, false, false, false⟩ false x.m]
  | .mxor x => firstBad [maskField x.d, maskField x.a, maskField x.b, modxCheck ⟨true, true, false, false, false, false⟩ false x.m]
  | .mnot x => firstBad [maskField x.d, maskField x.a, need (x.b == 0) .unusedOperand, modxCheck ⟨true, true, false, false, false, false⟩ false x.m]
  | .mcnt x => firstBad [field false x.d, maskField x.a, maskField x.b, modxCheck ⟨true, true, false, false, false, false⟩ false x.m]
  | .mffs x => firstBad [field false x.d, maskField x.a, maskField x.b, modxCheck ⟨true, true, false, false, false, false⟩ false x.m]
  | .mmovMm x => firstBad [maskField x.d, maskField x.a, need (x.b == 0) .unusedOperand, modxCheck ⟨true, true, false, false, false, false⟩ false x.m]
  | .mmovMs x => firstBad [maskField x.d, field false x.a, need (x.b == 0) .unusedOperand, modxCheck ⟨true, true, false, false, false, false⟩ false x.m]
  | .mmovSm x => firstBad [field false x.d, maskField x.a, need (x.b == 0) .unusedOperand, modxCheck ⟨true, true, false, false, false, false⟩ false x.m]
  | .mset x => firstBad [maskField x.d, field false x.a, need (x.b == 0) .unusedOperand, modxCheck ⟨true, true, false, false, false, false⟩ false x.m]
  | .vmovW32 x => firstBad [field false x.d, field false x.a, need (x.b == 0) .unusedOperand, modxCheck ⟨true, true, false, false, false, false⟩ false x.m]
  | .vmovW64 x => firstBad [field true x.d, field true x.a, need (x.b == 0) .unusedOperand, modxCheck ⟨true, true, false, false, false, false⟩ false x.m]
  | .vbcstW32 x => firstBad [field false x.d, field false x.a, need (x.b == 0) .unusedOperand, modxCheck ⟨true, true, false, false, false, false⟩ false x.m]
  | .vbcstW64 x => firstBad [field true x.d, field true x.a, need (x.b == 0) .unusedOperand, modxCheck ⟨true, true, false, false, false, false⟩ false x.m]
  | .vselW32 x => firstBad [field false x.d, field false x.a, field false x.b, modxCheck ⟨true, true, false, false, true, false⟩ false x.m]
  | .vselW64 x => firstBad [field true x.d, field true x.a, field true x.b, modxCheck ⟨true, true, false, false, true, false⟩ true x.m]
  | .vlane x => firstBad [field false x.d, need (x.a == 0) .unusedOperand, need (x.b == 0) .unusedOperand, modxCheck ⟨true, true, false, false, false, false⟩ false x.m]
  | .vgetW32 x => firstBad [field false x.d, field false x.a, field false x.b, modxCheck ⟨false, false, false, false, false, false⟩ false x.m]
  | .vgetW64 x => firstBad [field true x.d, field true x.a, field false x.b, modxCheck ⟨false, false, false, false, false, false⟩ false x.m]
  | .vputW32 x => firstBad [field false x.d, field false x.a, field false x.b, modxCheck ⟨true, true, false, false, false, false⟩ false x.m]
  | .vputW64 x => firstBad [field true x.d, field true x.a, field false x.b, modxCheck ⟨true, true, false, false, false, false⟩ false x.m]
  | .vfadd x => firstBad [typeBelow 4 x.t, field (isF64 x.t) x.d, field (isF64 x.t) x.a, field (isF64 x.t) x.b, modxCheck ⟨true, true, true, true, false, false⟩ (false) x.m]
  | .vfsub x => firstBad [typeBelow 4 x.t, field (isF64 x.t) x.d, field (isF64 x.t) x.a, field (isF64 x.t) x.b, modxCheck ⟨true, true, true, true, false, false⟩ (false) x.m]
  | .vfmul x => firstBad [typeBelow 4 x.t, field (isF64 x.t) x.d, field (isF64 x.t) x.a, field (isF64 x.t) x.b, modxCheck ⟨true, true, true, true, false, false⟩ (false) x.m]
  | .vffma x => firstBad [typeBelow 4 x.t, field (isF64 x.t) x.d, field (isF64 x.t) x.a, field (isF64 x.t) x.b, modxCheck ⟨true, true, true, true, true, false⟩ (isF64 x.t) x.m]
  | .vffms x => firstBad [typeBelow 4 x.t, field (isF64 x.t) x.d, field (isF64 x.t) x.a, field (isF64 x.t) x.b, modxCheck ⟨true, true, true, true, true, false⟩ (isF64 x.t) x.m]
  | .vfnfma x => firstBad [typeBelow 4 x.t, field (isF64 x.t) x.d, field (isF64 x.t) x.a, field (isF64 x.t) x.b, modxCheck ⟨true, true, true, true, true, false⟩ (isF64 x.t) x.m]
  | .vfmin x => firstBad [typeBelow 4 x.t, field (isF64 x.t) x.d, field (isF64 x.t) x.a, field (isF64 x.t) x.b, modxCheck ⟨true, true, false, false, false, false⟩ (false) x.m]
  | .vfmax x => firstBad [typeBelow 4 x.t, field (isF64 x.t) x.d, field (isF64 x.t) x.a, field (isF64 x.t) x.b, modxCheck ⟨true, true, false, false, false, false⟩ (false) x.m]
  | .vfabs x => firstBad [typeBelow 4 x.t, field (isF64 x.t) x.d, field (isF64 x.t) x.a, field (isF64 x.t) x.b, need (x.b == 0) .unusedOperand, modxCheck ⟨true, true, false, false, false, false⟩ (false) x.m]
  | .vfneg x => firstBad [typeBelow 4 x.t, field (isF64 x.t) x.d, field (isF64 x.t) x.a, field (isF64 x.t) x.b, need (x.b == 0) .unusedOperand, modxCheck ⟨true, true, false, false, false, false⟩ (false) x.m]
  | .vfdiv x => firstBad [typeBelow 4 x.t, field (isF64 x.t) x.d, field (isF64 x.t) x.a, field (isF64 x.t) x.b, modxCheck ⟨true, true, true, true, false, false⟩ (false) x.m]
  | .vfsqrt x => firstBad [typeBelow 4 x.t, field (isF64 x.t) x.d, field (isF64 x.t) x.a, field (isF64 x.t) x.b, need (x.b == 0) .unusedOperand, modxCheck ⟨true, true, true, true, false, false⟩ (false) x.m]
  | .vfclass x => firstBad [typeBelow 2 x.t, field (false) x.d, field (isF64 x.t) x.a, field (false) x.b, need (x.b == 0) .unusedOperand, modxCheck ⟨true, true, false, false, false, false⟩ (false) x.m]
  | .vfsgn x => firstBad [typeBelow 4 x.t, field (isF64 x.t) x.d, field (isF64 x.t) x.a, field (isF64 x.t) x.b, modxCheck ⟨true, true, false, false, false, false⟩ (false) x.m]
  | .vfldx x => firstBad [typeBelow 2 x.t, field (isF64 x.t) x.d, field (isF64 x.t) x.a, field (false) x.b, modxCheck ⟨true, true, true, true, false, false⟩ (false) x.m]
  | .sfadd x => firstBad [typeBelow 2 x.t, field (isF64 x.t) x.d, field (isF64 x.t) x.a, field (isF64 x.t) x.b, modxCheck ⟨false, false, true, true, false, false⟩ (false) x.m]
  | .sfmul x => firstBad [typeBelow 2 x.t, field (isF64 x.t) x.d, field (isF64 x.t) x.a, field (isF64 x.t) x.b, modxCheck ⟨false, false, true, true, false, false⟩ (false) x.m]
  | .sffma x => firstBad [typeBelow 2 x.t, field (isF64 x.t) x.d, field (isF64 x.t) x.a, field (isF64 x.t) x.b, modxCheck ⟨false, false, true, true, true, false⟩ (isF64 x.t) x.m]
  | .sfcmp x => firstBad [typeBelow 2 x.t, field (false) x.d, field (isF64 x.t) x.a, field (isF64 x.t) x.b, need (decide (x.cc < 8)) .conditionReserved, modxCheck ⟨false, false, false, false, false, false⟩ (false) x.m]
  | .sfcvt x => firstBad [typeBelow 8 x.x, typeBelow 8 x.y, need (x.x != x.y) .typeReserved, field (isWideCode x.x) x.d, field (isWideCode x.y) x.a, need (x.b == 0) .unusedOperand, modxCheck ⟨false, false, !(isIntCode x.x && isIntCode x.y), true, false, false⟩ false x.m]
  | .vcmp x => firstBad [typeBelow 4 x.t, maskField x.d, field (false) x.d, field (isWide x.t) x.a, field (isWide x.t) x.b, need (decide (x.cc < 6)) .conditionReserved, modxCheck ⟨true, true, false, false, false, false⟩ (false) x.m]
  | .vfcmp x => firstBad [typeBelow 2 x.t, maskField x.d, field (false) x.d, field (isF64 x.t) x.a, field (isF64 x.t) x.b, need (decide (x.cc < 8)) .conditionReserved, modxCheck ⟨true, true, false, false, false, false⟩ (false) x.m]
  | .vex2s x => firstBad [field false x.d, field false x.a, field false x.b, modxCheck ⟨true, true, false, false, true, false⟩ false x.m]
  | .vlg2 x => firstBad [field false x.d, field false x.a, need (x.b == 0) .unusedOperand, modxCheck ⟨true, true, false, false, false, false⟩ false x.m]
  | .vrcp x => firstBad [typeBelow 2 x.t, field (isF64 x.t) x.d, field (isF64 x.t) x.a, field (false) x.b, need (x.b == 0) .unusedOperand, modxCheck ⟨true, true, false, false, false, false⟩ (false) x.m]
  | .vrsq x => firstBad [typeBelow 2 x.t, field (isF64 x.t) x.d, field (isF64 x.t) x.a, field (false) x.b, need (x.b == 0) .unusedOperand, modxCheck ⟨true, true, false, false, false, false⟩ (false) x.m]
  | .vsin x => firstBad [field false x.d, field false x.a, need (x.b == 0) .unusedOperand, modxCheck ⟨true, true, false, false, false, false⟩ false x.m]
  | .vcos x => firstBad [field false x.d, field false x.a, need (x.b == 0) .unusedOperand, modxCheck ⟨true, true, false, false, false, false⟩ false x.m]
  | .vcvt x => firstBad [typeBelow 8 x.x, typeBelow 8 x.y, need (x.x != x.y) .typeReserved, field (isWideCode x.x) x.d, field (isWideCode x.y) x.a, need (x.b == 0) .unusedOperand, modxCheck ⟨true, true, !(isIntCode x.x && isIntCode x.y), true, false, false⟩ false x.m]
  | .vpack x => firstBad [typeBelow 8 x.x, need (decide (x.y < 2) && (x.y == 0 || isByteCode x.x)) .typeReserved, field false x.d, field false x.a, field false x.b, modxCheck ⟨true, true, !(isIntCode x.x), true, false, false⟩ false x.m]
  | .vunpk x => firstBad [typeBelow 8 x.x, need (decide (x.y < if isByteCode x.x then 4 else 2)) .typeReserved, field false x.d, field false x.a, need (x.b == 0) .unusedOperand, modxCheck ⟨true, true, false, false, false, false⟩ false x.m]
  | .vdeq x => firstBad [need (x.x == 0) .typeReserved, typeBelow 8 x.y, field false x.d, field false x.a, field false x.b, modxCheck ⟨true, true, true, false, true, false⟩ false x.m]
  | .vshf x => firstBad [typeBelow 2 x.t, field (isF64 x.t) x.d, field (isF64 x.t) x.a, field (false) x.b, modxCheck ⟨true, true, false, false, false, false⟩ (false) x.m]
  | .vshfu x => firstBad [typeBelow 2 x.t, field (isF64 x.t) x.d, field (isF64 x.t) x.a, field (false) x.b, modxCheck ⟨true, true, false, false, false, false⟩ (false) x.m]
  | .vshfd x => firstBad [typeBelow 2 x.t, field (isF64 x.t) x.d, field (isF64 x.t) x.a, field (false) x.b, modxCheck ⟨true, true, false, false, false, false⟩ (false) x.m]
  | .vshfx x => firstBad [typeBelow 2 x.t, field (isF64 x.t) x.d, field (isF64 x.t) x.a, field (false) x.b, modxCheck ⟨true, true, false, false, false, false⟩ (false) x.m]
  | .vvoteAny x => firstBad [field false x.d, field false x.a, need (x.b == 0) .unusedOperand, modxCheck ⟨true, false, false, false, false, false⟩ false x.m]
  | .vvoteAll x => firstBad [field false x.d, field false x.a, need (x.b == 0) .unusedOperand, modxCheck ⟨true, false, false, false, false, false⟩ false x.m]
  | .vvoteUni x => firstBad [field false x.d, field false x.a, need (x.b == 0) .unusedOperand, modxCheck ⟨true, false, false, false, false, false⟩ false x.m]
  | .vvoteBal x => firstBad [field false x.d, field false x.a, need (x.b == 0) .unusedOperand, modxCheck ⟨true, false, false, false, false, false⟩ false x.m]
  | .vvoteCnt x => firstBad [field false x.d, field false x.a, need (x.b == 0) .unusedOperand, modxCheck ⟨true, false, false, false, false, false⟩ false x.m]
  | .vrsum x => firstBad [typeBelow 6 x.t, field (isWideXl x.t) x.d, field (isWideXl x.t) x.a, field (false) x.b, need (x.b == 0) .unusedOperand, modxCheck ⟨true, false, x.t == 4 || x.t == 5, false, false, false⟩ false x.m]
  | .vrmin x => firstBad [typeBelow 6 x.t, field (isWideXl x.t) x.d, field (isWideXl x.t) x.a, field (false) x.b, need (x.b == 0) .unusedOperand, modxCheck ⟨true, false, false, false, false, false⟩ (false) x.m]
  | .vrmax x => firstBad [typeBelow 6 x.t, field (isWideXl x.t) x.d, field (isWideXl x.t) x.a, field (false) x.b, need (x.b == 0) .unusedOperand, modxCheck ⟨true, false, false, false, false, false⟩ (false) x.m]
  | .vscanAdd x => firstBad [typeBelow 6 x.t, field (isWideXl x.t) x.d, field (isWideXl x.t) x.a, field (false) x.b, need (x.b == 0) .unusedOperand, modxCheck ⟨true, true, x.t == 4 || x.t == 5, false, false, false⟩ false x.m]
  | .vscanMin x => firstBad [typeBelow 6 x.t, field (isWideXl x.t) x.d, field (isWideXl x.t) x.a, field (false) x.b, need (x.b == 0) .unusedOperand, modxCheck ⟨true, true, false, false, false, false⟩ (false) x.m]
  | .vscanMax x => firstBad [typeBelow 6 x.t, field (isWideXl x.t) x.d, field (isWideXl x.t) x.a, field (false) x.b, need (x.b == 0) .unusedOperand, modxCheck ⟨true, true, false, false, false, false⟩ (false) x.m]
  | .vld x => firstBad [memCheck .vld x]
  | .vst x => firstBad [memCheck .vst x]
  | .vprf x => firstBad [memCheck .vprf x]
  | .sld x => firstBad [memCheck .sld x]
  | .sst x => firstBad [memCheck .sst x]
  | .slda x => firstBad [memCheck .slda x]
  | .sstr x => firstBad [memCheck .sstr x]
  | .vatmSwap x => firstBad [field x.w64 x.d, field true x.a, field x.w64 x.b, need (decide (x.sp < 3)) .spaceRefused, modxCheck ⟨true, true, false, false, false, true⟩ x.w64 x.m]
  | .vatmAdd x => firstBad [field x.w64 x.d, field true x.a, field x.w64 x.b, need (decide (x.sp < 3)) .spaceRefused, modxCheck ⟨true, true, false, false, false, true⟩ x.w64 x.m]
  | .vatmAnd x => firstBad [field x.w64 x.d, field true x.a, field x.w64 x.b, need (decide (x.sp < 3)) .spaceRefused, modxCheck ⟨true, true, false, false, false, true⟩ x.w64 x.m]
  | .vatmOr x => firstBad [field x.w64 x.d, field true x.a, field x.w64 x.b, need (decide (x.sp < 3)) .spaceRefused, modxCheck ⟨true, true, false, false, false, true⟩ x.w64 x.m]
  | .vatmXor x => firstBad [field x.w64 x.d, field true x.a, field x.w64 x.b, need (decide (x.sp < 3)) .spaceRefused, modxCheck ⟨true, true, false, false, false, true⟩ x.w64 x.m]
  | .vatmMins x => firstBad [field x.w64 x.d, field true x.a, field x.w64 x.b, need (decide (x.sp < 3)) .spaceRefused, modxCheck ⟨true, true, false, false, false, true⟩ x.w64 x.m]
  | .vatmMaxs x => firstBad [field x.w64 x.d, field true x.a, field x.w64 x.b, need (decide (x.sp < 3)) .spaceRefused, modxCheck ⟨true, true, false, false, false, true⟩ x.w64 x.m]
  | .vatmMinn x => firstBad [field x.w64 x.d, field true x.a, field x.w64 x.b, need (decide (x.sp < 3)) .spaceRefused, modxCheck ⟨true, true, false, false, false, true⟩ x.w64 x.m]
  | .vatmMaxn x => firstBad [field x.w64 x.d, field true x.a, field x.w64 x.b, need (decide (x.sp < 3)) .spaceRefused, modxCheck ⟨true, true, false, false, false, true⟩ x.w64 x.m]
  | .vatmFadd x => firstBad [field x.w64 x.d, field true x.a, field x.w64 x.b, need (decide (x.sp < 3)) .spaceRefused, modxCheck ⟨true, true, false, false, false, true⟩ x.w64 x.m]
  | .vcas x => firstBad [field x.w64 x.d, field true x.a, field x.w64 x.b, need (decide (x.sp < 3)) .spaceRefused, modxCheck ⟨true, true, false, false, true, true⟩ x.w64 x.m]
  | .satmSwap x => firstBad [field x.w64 x.d, field true x.a, field x.w64 x.b, need (decide (x.sp < 3)) .spaceRefused, modxCheck ⟨false, false, false, false, false, true⟩ x.w64 x.m]
  | .satmAdd x => firstBad [field x.w64 x.d, field true x.a, field x.w64 x.b, need (decide (x.sp < 3)) .spaceRefused, modxCheck ⟨false, false, false, false, false, true⟩ x.w64 x.m]
  | .satmAnd x => firstBad [field x.w64 x.d, field true x.a, field x.w64 x.b, need (decide (x.sp < 3)) .spaceRefused, modxCheck ⟨false, false, false, false, false, true⟩ x.w64 x.m]
  | .satmOr x => firstBad [field x.w64 x.d, field true x.a, field x.w64 x.b, need (decide (x.sp < 3)) .spaceRefused, modxCheck ⟨false, false, false, false, false, true⟩ x.w64 x.m]
  | .satmXor x => firstBad [field x.w64 x.d, field true x.a, field x.w64 x.b, need (decide (x.sp < 3)) .spaceRefused, modxCheck ⟨false, false, false, false, false, true⟩ x.w64 x.m]
  | .satmMins x => firstBad [field x.w64 x.d, field true x.a, field x.w64 x.b, need (decide (x.sp < 3)) .spaceRefused, modxCheck ⟨false, false, false, false, false, true⟩ x.w64 x.m]
  | .satmMaxs x => firstBad [field x.w64 x.d, field true x.a, field x.w64 x.b, need (decide (x.sp < 3)) .spaceRefused, modxCheck ⟨false, false, false, false, false, true⟩ x.w64 x.m]
  | .satmMinn x => firstBad [field x.w64 x.d, field true x.a, field x.w64 x.b, need (decide (x.sp < 3)) .spaceRefused, modxCheck ⟨false, false, false, false, false, true⟩ x.w64 x.m]
  | .satmMaxn x => firstBad [field x.w64 x.d, field true x.a, field x.w64 x.b, need (decide (x.sp < 3)) .spaceRefused, modxCheck ⟨false, false, false, false, false, true⟩ x.w64 x.m]
  | .satmFadd x => firstBad [field x.w64 x.d, field true x.a, field x.w64 x.b, need (decide (x.sp < 3)) .spaceRefused, modxCheck ⟨false, false, false, false, false, true⟩ x.w64 x.m]
  | .scas x => firstBad [field x.w64 x.d, field true x.a, field x.w64 x.b, need (decide (x.sp < 3)) .spaceRefused, modxCheck ⟨false, false, false, false, true, true⟩ x.w64 x.m]
  | .fence x => firstBad [need (decide (x.ord < 4) && decide (x.scope < 5) && (x.ord != 0 || x.scope == 0)) .modxOrder, need (decide (x.spc < 128)) .immRange]
  | .waitc x => firstBad [need (decide (x.ld < 16)) .immRange, need (decide (x.st < 16)) .immRange, need (decide (x.cp < 16)) .immRange, need (decide (x.tl < 16)) .immRange, need (decide (x.att < 16)) .immRange, need (decide (x.ss < 16)) .immRange]
  | .swini a b => firstBad [field false a, field false b]
  | .swexp a b c => firstBad [field false a, field false b, field false c]
  | .swwt a b => firstBad [field false a, field false b]
  | .bara a k => firstBad [field false a, need (decide (k < 256)) .immRange]
  | .barw a k => firstBad [field false a, need (decide (k < 256)) .immRange]
  | .bars k => firstBad [need (decide (k < 256)) .immRange]
  | .grpq a k => firstBad [field true a, need (decide (k < 256)) .immRange]
  | .regang mask => firstBad [need (decide (mask < 256)) .immRange]
  | .nap a space t => firstBad [field true a, need (decide (space < 3)) .spaceRefused, need (decide (t ≤ 40)) .immRange]
  | .bru disp => firstBad [need (fitsSigned 65 disp) .immRange]
  | .bruZ r disp => firstBad [field false r, need (fitsSigned 65 disp) .immRange]
  | .bruNz r disp => firstBad [field false r, need (fitsSigned 65 disp) .immRange]
  | .bruLt r disp => firstBad [field false r, need (fitsSigned 65 disp) .immRange]
  | .bruGe r disp => firstBad [field false r, need (fitsSigned 65 disp) .immRange]
  | .call r disp => firstBad [field true r, need (fitsSigned 65 disp) .immRange]
  | .brv x => firstBad [need (decide (x.m < 16)) .maskField, need (fitsSigned 23 x.tgt) .immRange, need (decide (0 < x.rc ∧ x.rc < 4194304)) .immRange]
  | .jmpr a => firstBad [field true a]
  | .tbeg a disp => firstBad [field false a, need (fitsSigned 62 disp) .immRange]
  | .tbegIdem a disp => firstBad [field false a, need (fitsSigned 62 disp) .immRange]
  | .tabt code => firstBad [need (decide (code < 16384)) .immRange]
  | .trap code => firstBad [need (decide (code < 16384)) .immRange]
  | .tclr a => firstBad [field false a]
  | .brk code => firstBad [need (decide (code < 16384)) .immRange]
  | .csrr a n => firstBad [need (csrAssigned n) .csrNumber, field (csrWide n) a]
  | .csrw a n => firstBad [need (csrAssigned n) .csrNumber, field (csrWide n) a]
  | .csrs a n => firstBad [need (csrAssigned n) .csrNumber, field (csrWide n) a]
  | .csrc a n => firstBad [need (csrAssigned n) .csrNumber, field (csrWide n) a]
  | .cpy x => firstBad [field true x.a, field false x.b, field false x.c, need (x.sync || x.c == 0) .unusedOperand]
  | .cpy2 x => firstBad [field true x.a, field false x.b, field false x.c, need (x.sync || x.c == 0) .unusedOperand]
  | .cpyg x => firstBad [field true x.a, field false x.b, field false x.c, need (x.sync || x.c == 0) .unusedOperand]
  | .cpyp x => firstBad [field true x.a, field false x.b, field false x.c, need (x.sync || x.c == 0) .unusedOperand, need (!x.hold) .optionRefused]
  | .cpyq x => firstBad [field true x.a, field false x.b, field false x.c, need (x.sync || x.c == 0) .unusedOperand, need (!x.hold) .optionRefused]
  | .cprel a => firstBad [field false a]
  | .bincl a b => firstBad [field false a, field false b]
  | .binad a b => firstBad [field false a, field false b]
  | .binrd a b => firstBad [field false a, field false b]
  | .twld x => firstBad [field true x.a, field false x.b, field false x.c, need (x.sync || x.c == 0) .unusedOperand, need (!x.hold) .optionRefused, need (!x.sync) .optionRefused]
  | .tmul x => firstBad [field true x.a, field false x.b, field false x.c, need (x.sync || x.c == 0) .unusedOperand, need (!x.sync) .optionRefused]
  | .tmulX4 x => firstBad [field true x.a, field false x.b, field false x.c, need (x.sync || x.c == 0) .unusedOperand, need (!x.hold) .optionRefused, need (!x.sync) .optionRefused]
  | .tmuls x => firstBad [field true x.a, field false x.b, field false x.c, need (x.sync || x.c == 0) .unusedOperand, need (!x.sync) .optionRefused]
  | .tzero x => firstBad [field true x.a, field false x.b, field false x.c, need (x.sync || x.c == 0) .unusedOperand, need (!x.hold) .optionRefused, need (!x.sync) .optionRefused]
  | .trd x => firstBad [field true x.a, field false x.b, field false x.c, need (x.sync || x.c == 0) .unusedOperand, need (!x.hold) .optionRefused, need (!x.sync) .optionRefused]
  | .aplnk x => firstBad [field true x.a, field false x.b, field true x.c, need (!x.hold && !x.sync) .optionRefused]
  | .apref x => firstBad [field true x.a, field false x.b, field false x.c, need (x.c == 0) .unusedOperand, need (!x.hold && !x.sync) .optionRefused]
  | .attn x => firstBad [field true x.a, field false x.b, field false x.c, need (x.c == 0) .unusedOperand, need (!x.hold && !x.sync) .optionRefused]
  | .amrg x => firstBad [field true x.a, field false x.b, field false x.c, need (x.c == 0) .unusedOperand, need (!x.hold && !x.sync) .optionRefused]
  | .arcp x => firstBad [field true x.a, field false x.b, field false x.c, need (x.c == 0) .unusedOperand, need (!x.hold && !x.sync) .optionRefused]
  | .ssopn x => firstBad [field true x.a, field false x.b, field false x.c, need (x.c == 0) .unusedOperand, need (!x.hold && !x.sync) .optionRefused]
  | .ssld x => firstBad [field true x.a, field false x.b, field true x.c, need (!x.hold && !x.sync) .optionRefused]
  | .sssv x => firstBad [field true x.a, field false x.b, field false x.c, need (x.c == 0) .unusedOperand, need (!x.hold && !x.sync) .optionRefused]
  | .ssrbk x => firstBad [field true x.a, field false x.b, field true x.c, need (!x.hold && !x.sync) .optionRefused]
  | .ssfrk x => firstBad [field true x.a, field false x.b, field true x.c, need (!x.hold && !x.sync) .optionRefused]
  | .ssqry x => firstBad [field true x.a, field false x.b, field true x.c, need (!x.hold && !x.sync) .optionRefused]
  | .oalc x => firstBad [field true x.a, field false x.b, field true x.c, need (!x.hold && !x.sync) .optionRefused]
  | .ofre x => firstBad [field true x.a, field false x.b, field false x.c, need (x.c == 0) .unusedOperand, need (!x.hold && !x.sync) .optionRefused]
  | .oloc x => firstBad [field true x.a, field false x.b, field true x.c, need (!x.hold && !x.sync) .optionRefused]
  | .opin x => firstBad [field true x.a, field false x.b, field false x.c, need (x.c == 0) .unusedOperand, need (!x.hold && !x.sync) .optionRefused]
  | .ounp x => firstBad [field true x.a, field false x.b, field false x.c, need (x.c == 0) .unusedOperand, need (!x.hold && !x.sync) .optionRefused]
  | .ocol x => firstBad [field true x.a, field false x.b, field false x.c, need (!x.hold && !x.sync) .optionRefused]
  | .omig x => firstBad [field true x.a, field false x.b, field false x.c, need (!x.hold && !x.sync) .optionRefused]
  | .ocln x => firstBad [field true x.a, field false x.b, field false x.c, need (x.c == 0) .unusedOperand, need (!x.hold && !x.sync) .optionRefused]
  | .ored x => firstBad [field true x.a, field false x.b, field true x.c, need (!x.hold && !x.sync) .optionRefused]
  | .obar x => firstBad [field true x.a, field false x.b, field false x.c, need (x.c == 0) .unusedOperand, need (!x.hold && !x.sync) .optionRefused]
  | .rcomm x => firstBad [field true x.a, field false x.b, field true x.c, need (!x.hold && !x.sync) .optionRefused]
  | .rcqry x => firstBad [field true x.a, field false x.b, field true x.c, need (!x.hold && !x.sync) .optionRefused]
  | .rcver x => firstBad [field true x.a, field false x.b, field true x.c, need (!x.hold && !x.sync) .optionRefused]
  | .yield => firstBad []
  | .join => firstBad []
  | .tend => firstBad []
  | .tret => firstBad []
  | .nop => firstBad []
  | .loadReturn => none
  | .pageWalkDone => none
  | .ibufFill => none
  | .engineCompletion => none
  | .blockingAnswer => none
  | .releaseAcksDone => none
  | .tendDone => none
  | .syncWordCount => none
  | .napWake => none
  | .napTimeout => none
  | .syncto => none
  | .trapEntry => none
  | .handlerPreempt => none
  | .oreq => none
  | .ofwd => none
  | .olupd => none
  | .orsp => none
  | .oabs => none
  | .ocon => none
  | .regq => none
  | .rega => none
  | .malc => none
  | .mala => none
  | .mcpy => none
  | .mcpa => none
  | .copyPassEnd => none
  | .regupd => none
  | .regack => none
  | .mact => none
  | .mrel => none
  | .stubCollect => none
  | .rds => none
  | .rdo => none
  | .upg => none
  | .wbd => none
  | .evc => none
  | .snps => none
  | .snpi => none
  | .binv => none
  | .data => none
  | .gnt => none
  | .iack => none
  | .cmp => none
  | .drn => none
  | .l1Writeback => none
  | .drainDone => none
  | .rclr => none
  | .podDirOreq => none
  | .orspAtSwitch => none
  | .pinv => none
  | .piack => none
  | .psi => none
  | .psia => none
  | .psclr => none
  | .hostRead => none
  | .hostWrite => none
  | .bisnpAnswer => none
  | .hbtoExpiry => none
  | .frtoExpiry => none
  | .peerTimeout => none
  | .packetAgeDiscard => none
  | .podMapAdopt => none
  | .epochAnnounce => none
  | .portDown => none
  | .flitRetry => none
  | .collectiveContribution => none
  | .collectiveTableWrite => none
  | .rdur => none
  | .rdura => none
  | .rclose => none
  | .rclosa => none
  | .durableAccept => none
  | .durableWriteback => none
  | .settlerSweep => none
  | .containmentScan => none
  | .drst => none
  | .watchdog => none
  | .wholeDeviceReset => none
  | .thermalTrip => none
  | .clockAdjust => none
  | .tlbinv => none
  | .tlbinvComplete => none
  | .lcinv => none
  | .kret => none
  | .keyRetireComplete => none
  | .kload => none
  | .fxopGive => none
  | .fxopTake => none
  | .fxbEnable => none
  | .rrdEnable => none
  | .rrdDisable => none
  | .rrdDisableComplete => none
  | .rrdSetTpol => none
  | .kvwWrite => none
  | .kvwEffect => none
  | .preq => none
  | .gdbgHalt => none
  | .gdbgResume => none
  | .devnumWrite => none
  | .tailWrite => none
  | .rcrtEnable => none
  | .rcrtDisable => none
  | .pfailClear => none
  | .tableBaseWrite => none
  | .ringBaseWrite => none
  | .debugWindowWrite => none
  | .registerWrite => none
  | .launchAccept => none
  | .dependenceWake => none
  | .blockPlace => none
  | .placeBackoff => none
  | .storageClearDone => none
  | .blockRetire => none
  | .queue63Release => none
  | .timeSlice => none
  | .priorityWait => none
  | .preemptModeChoice => none
  | .blockSave => none
  | .blockFlush => none
  | .blockRestore => none
  | .stateStoreOp => none
  | .tilePassStart => none
  | .weightLatch => none
  | .peaWalkStart => none
  | .headerReturn => none
  | .promotionCheck => none
  | .regenSeal => none
  | .regenTimeout => none
  | .attnItem => none
  | .tripleReturn => none
  | .holdLapse => none
  | .wayGate => none
  | .wayWakeDone => none
  | .segmentClearDone => none
  | .patrolScrub => none
  | .idleEntry => none
  | .wake => none
  | .getVersion => none
  | .getCapabilities => none
  | .negotiateAlgorithms => none
  | .getDigests => none
  | .getCertificate => none
  | .challenge => none
  | .getMeasurements => none
  | .spdmUnsupported => none
  | .linkTraining => none
  | .modulePowerOn => none
  | .chunkSend => none
  | .levelSample => none

/-- An instruction is well formed when it passes every decode-time check. -/
abbrev Instr.WF (i : Instr) : Prop := i.check = none

/-- True for an instruction that has a 32-bit encoding; false for an event. -/
def Instr.isEncoded : Instr → Bool
  | .loadReturn => false
  | .pageWalkDone => false
  | .ibufFill => false
  | .engineCompletion => false
  | .blockingAnswer => false
  | .releaseAcksDone => false
  | .tendDone => false
  | .syncWordCount => false
  | .napWake => false
  | .napTimeout => false
  | .syncto => false
  | .trapEntry => false
  | .handlerPreempt => false
  | .oreq => false
  | .ofwd => false
  | .olupd => false
  | .orsp => false
  | .oabs => false
  | .ocon => false
  | .regq => false
  | .rega => false
  | .malc => false
  | .mala => false
  | .mcpy => false
  | .mcpa => false
  | .copyPassEnd => false
  | .regupd => false
  | .regack => false
  | .mact => false
  | .mrel => false
  | .stubCollect => false
  | .rds => false
  | .rdo => false
  | .upg => false
  | .wbd => false
  | .evc => false
  | .snps => false
  | .snpi => false
  | .binv => false
  | .data => false
  | .gnt => false
  | .iack => false
  | .cmp => false
  | .drn => false
  | .l1Writeback => false
  | .drainDone => false
  | .rclr => false
  | .podDirOreq => false
  | .orspAtSwitch => false
  | .pinv => false
  | .piack => false
  | .psi => false
  | .psia => false
  | .psclr => false
  | .hostRead => false
  | .hostWrite => false
  | .bisnpAnswer => false
  | .hbtoExpiry => false
  | .frtoExpiry => false
  | .peerTimeout => false
  | .packetAgeDiscard => false
  | .podMapAdopt => false
  | .epochAnnounce => false
  | .portDown => false
  | .flitRetry => false
  | .collectiveContribution => false
  | .collectiveTableWrite => false
  | .rdur => false
  | .rdura => false
  | .rclose => false
  | .rclosa => false
  | .durableAccept => false
  | .durableWriteback => false
  | .settlerSweep => false
  | .containmentScan => false
  | .drst => false
  | .watchdog => false
  | .wholeDeviceReset => false
  | .thermalTrip => false
  | .clockAdjust => false
  | .tlbinv => false
  | .tlbinvComplete => false
  | .lcinv => false
  | .kret => false
  | .keyRetireComplete => false
  | .kload => false
  | .fxopGive => false
  | .fxopTake => false
  | .fxbEnable => false
  | .rrdEnable => false
  | .rrdDisable => false
  | .rrdDisableComplete => false
  | .rrdSetTpol => false
  | .kvwWrite => false
  | .kvwEffect => false
  | .preq => false
  | .gdbgHalt => false
  | .gdbgResume => false
  | .devnumWrite => false
  | .tailWrite => false
  | .rcrtEnable => false
  | .rcrtDisable => false
  | .pfailClear => false
  | .tableBaseWrite => false
  | .ringBaseWrite => false
  | .debugWindowWrite => false
  | .registerWrite => false
  | .launchAccept => false
  | .dependenceWake => false
  | .blockPlace => false
  | .placeBackoff => false
  | .storageClearDone => false
  | .blockRetire => false
  | .queue63Release => false
  | .timeSlice => false
  | .priorityWait => false
  | .preemptModeChoice => false
  | .blockSave => false
  | .blockFlush => false
  | .blockRestore => false
  | .stateStoreOp => false
  | .tilePassStart => false
  | .weightLatch => false
  | .peaWalkStart => false
  | .headerReturn => false
  | .promotionCheck => false
  | .regenSeal => false
  | .regenTimeout => false
  | .attnItem => false
  | .tripleReturn => false
  | .holdLapse => false
  | .wayGate => false
  | .wayWakeDone => false
  | .segmentClearDone => false
  | .patrolScrub => false
  | .idleEntry => false
  | .wake => false
  | .getVersion => false
  | .getCapabilities => false
  | .negotiateAlgorithms => false
  | .getDigests => false
  | .getCertificate => false
  | .challenge => false
  | .getMeasurements => false
  | .spdmUnsupported => false
  | .linkTraining => false
  | .modulePowerOn => false
  | .chunkSend => false
  | .levelSample => false
  | _ => true

end Sys2Proof
end

