-- ==== Sys2Proof/Machine/MemOps.lean ====
section
/-! DEFINITION. Memory operations of gangs: forming and checking addresses (R13 to R32), accesses to the on-core stores,
versions of tasks (R154, R175, R351 to R354), and the progress of an outstanding operation through L1, slices and owners
(R322 to R331, R138). -/

namespace Sys2Proof.Machine

/-! ### On-core places -/

/-- Rank of the issuing core in its block (R29). -/
def Block.rankOf (b : Block) (core : Nat) : Nat := b.cores.idxOf core

/-- A .H address: the addressed core and the physical shared-store byte (R28). -/
def State.hPlace (s : State) (g : Gang) (core a : Nat) : Except Nat (Nat × Nat) :=
  match s.block g.blk, s.launch g.launch with
  | some b, some l =>
    let cl := bit a 24
    let rank := fld a 20 4
    let off := fld a 0 20
    if fld a 25 7 ≠ 0 ∨ (!cl ∧ rank ≠ 0) ∨ b.cores.length ≤ (if cl then rank else 0) ∨ l.shBytes ≤ off then .error subSPACE
    else
      let r := if cl then rank else b.rankOf core
      .ok (b.cores.getD r 0, b.shBase.getD r 0 + off)
  | _, _ => .error subSPACE

/-- A .P offset of a lane: physical lane × 4096 + byte (R31, R93). -/
def State.pPlace (s : State) (g : Gang) (key lane a : Nat) : Except Nat Nat :=
  match s.block g.blk, s.launch g.launch with
  | some b, some l => if l.lpb ≤ a then .error subSPACE
    else .ok ((slotOf key / 16 * 32 + lane) * 4096 + b.lpBase.getD g.j 0 + a)
  | _, _ => .error subSPACE

/-- An .A (4) or .C (5) offset on the issuing core (R32). -/
def State.acPlace (s : State) (g : Gang) (core sp a : Nat) : Except Nat Nat :=
  match s.block g.blk, s.launch g.launch with
  | some b, some l =>
    if (if sp = 4 then l.aBytes else l.cBytes) ≤ a then .error subSPACE
    else .ok ((if sp = 4 then b.aBase else b.cBase).getD (b.rankOf core) 0 + a)
  | _, _ => .error subSPACE

/-- An on-core store by number: 0 shared, 1 A, 2 C, 3 W, 4 lane-private. -/
def CoreSt.store (c : CoreSt) (n : Nat) : Mem :=
  match n with | 0 => c.shared | 1 => c.astore | 2 => c.cstore | 3 => c.wstore | _ => c.lpriv
def CoreSt.setStore (c : CoreSt) (n : Nat) (m : Mem) : CoreSt :=
  match n with
  | 0 => { c with shared := m }
  | 1 => { c with astore := m }
  | 2 => { c with cstore := m }
  | 3 => { c with wstore := m }
  | _ => { c with lpriv := m }
/-- The store a space selector names. -/
def spaceStore (sp : Nat) : Nat := if sp = 2 then 0 else if sp = 3 then 4 else if sp = 4 then 1 else 2

/-- n bytes of an on-core store, and whether a word of them is uncorrectable (R451). -/
def State.onRead (s : State) (core store off n : Nat) : Nat × Bool :=
  let c := s.core core
  (Mem.load (c.store store) off n, c.badWord.any (fun w => w.1 == store && decide (off / 4 ≤ w.2 ∧ w.2 ≤ (off + n - 1) / 4)))
/-- The first place of a range of an on-core store that lies in an uncorrectable word. -/
def State.firstBad (s : State) (core store off n : Nat) : Option Nat :=
  ((s.core core).badWord.filterMap (fun w => if w.1 = store ∧ off / 4 ≤ w.2 ∧ w.2 ≤ (off + n - 1) / 4 then some (max off (4 * w.2)) else none)).min?
/-- A write to an on-core store; a whole word written is correctable again. -/
def State.onWrite (s : State) (core store off n v : Nat) : State :=
  let c := s.core core
  let c := { c.setStore store (Mem.store (c.store store) off n v) with
    badWord := c.badWord.filter (fun w => !(w.1 == store && decide (off ≤ 4 * w.2 ∧ 4 * w.2 + 4 ≤ off + n))) }
  let s := s.putCore core c
  if store = 0 then s.wakeNaps else s

/-- The shared-store segment of a place is being cleared (R116). -/
def State.clearing (s : State) (core off : Nat) : Bool := bit (s.core core).clearSeg (off / 8192)

/-! ### Sync words (R333, R334) -/

/-- The advance of R334, repeated while it holds; `fuel` bounds the repetitions by COUNT. -/
def swAdvance : Nat → Nat × Nat × Nat × Nat → Nat × Nat × Nat × Nat
  | 0, w => w
  | fuel + 1, (reload, target, count, gen) =>
    if 0 < target ∧ target ≤ count then swAdvance fuel (reload, reload, count - target, (gen + 1) % 2 ^ 32)
    else (reload, target, count, gen)

/-- The advance of R334 in closed form for a constant RELOAD: after the first advance every one consumes RELOAD. -/
def swSettle (w : Nat × Nat × Nat × Nat) : Nat × Nat × Nat × Nat :=
  match swAdvance 1 w with
  | (r, t, c, g) =>
    if w.2.2.2 = g ∧ w.2.2.1 = c then w
    else if 0 < t ∧ t = r ∧ t ≤ c then (r, t, c % t, (g + c / t) % 2 ^ 32) else (r, t, c, g)

def State.swRead (s : State) (core off : Nat) : Nat × Nat × Nat × Nat :=
  let v := (s.onRead core 0 off 16).1
  (byteField v 0 4, byteField v 4 4, byteField v 8 4, byteField v 12 4)
def State.swWrite (s : State) (core off : Nat) (w : Nat × Nat × Nat × Nat) : State :=
  s.onWrite core 0 off 16 (packBytes [(0, w.1), (4, w.2.1), (8, w.2.2.1), (12, w.2.2.2)])

/-! ### Classes and counters (R331) -/

/-- Counter of a class: 0 LD, 1 ST, 2 CP, 3 TL, 4 AT, 5 SS. -/
def Gang.count (g : Gang) (c : Nat) : Nat := g.ctr.getD c 0
def Gang.bump (g : Gang) (c : Nat) : Gang := { g with ctr := g.ctr.set c (g.count c + 1) }
def Gang.unbump (g : Gang) (c : Nat) : Gang := { g with ctr := g.ctr.set c (g.count c - 1) }

/-- An operation with nothing in it yet. -/
def Op.blank (what : Instr) (frag pc cls cyc : Nat) (hm : Bool) : Op where
  what := what
  frag := frag
  pc := pc
  hm := hm
  cls := cls
  issued := cyc
  phase := 0
  sp := 0
  n := 0
  ext := 0
  dst := 0
  scalar := false
  uniform := false
  act := 0
  zero := 0
  acq := 0
  rel := 0
  atom := 16
  accs := []
  need := []
  desc := []
  stReg := 0
  res := []
  out := []
  held := false
  bin := 0
  sync := none
  code := 0
  flags := 0
  pcnt := 0
  errAddr := 0
  errSub := 0
  errKind := 0
  errSp := 0
  fetched := []
  done := false

def State.op (s : State) (k o : Nat) : Option Op := (s.gang k).bind (fun g => g.ops.get o)
def State.putOp (s : State) (k o : Nat) (x : Op) : State :=
  match s.gang k with
  | none => s
  | some g => if g.ops.has o then s.putGang k { g with ops := g.ops.set o x } else s
def State.dropOp (s : State) (k o : Nat) : State :=
  match s.gang k with
  | none => s
  | some g => s.putGang k { g with ops := g.ops.erase o }

/-! ### Causes of subcodes -/

/-- The cause a subcode belongs to (R43, R181): a TCAUSE bit number; 256 is the absent tier (R5), 257 a failed peer (R60). -/
def causeOfSub (sub : Nat) : Nat :=
  if sub = 257 then cPEERLOST else if sub = 256 then cUNITABS
  else if sub < 0x10 then cPAGEF else if sub < 0x20 then cOBJF else if sub < 0x30 then cPROT
  else if sub < 0x40 then cBOUNDS else if sub < 0x50 then cALIGN else cRECF

/-- The bits of the causes of several subcodes. -/
def causeBits (subs : List Nat) : Nat := subs.foldl (fun a x => a ||| 2 ^ causeOfSub x) 0

/-- A fault record over faulting lanes (R44): entries (ADDR, LANE, SUB, KIND, SPACE). -/
def mkRec (pc frag done : Nat) (uniform engine fetch : Bool) (fault : Nat) (es : List (Nat × Nat × Nat × Nat × Nat)) : FRec :=
  let subs := es.map (fun e => e.2.2.1)
  ⟨pc, done, fault, (subs.map causeOfSub).foldl min 31,
    (if subs.all replayable then 1 else 0) + (if uniform then 2 else 0) + (if engine then 4 else 0) + (if fetch then 8 else 0),
    frag, es⟩

/-- A record of PEERLOST (R323, R446): R43 gives the cause no subcode, so that of its entries is free (log entry 64). -/
def peerRec (pc frag done : Nat) (uniform engine : Bool) (fault sub : Nat) (es : List (Nat × Nat × Nat × Nat)) : FRec :=
  ⟨pc, done, fault, cPEERLOST, (if uniform then 2 else 0) + (if engine then 4 else 0), frag,
    es.map (fun e => (e.1, e.2.1, sub % 256, e.2.2.1, e.2.2.2))⟩
/-- The subcode of a record of PEERLOST. -/
def State.peerSub (s : State) : Nat := (Config.freeWord s.free).toNat
def State.drawn (s : State) : State := { s with free := s.free + 1 }

/-! ### Versions of tasks -/

/-- The bytes a gang's version holds of a line, over data (R175). -/
def Gang.specOver (g : Gang) (l : LineId) (data : Nat) : Nat :=
  match g.spec.find? (fun x => x.line.same l) with
  | some x => lineMerge data x.data x.mask
  | none => data
def Gang.specMask (g : Gang) (l : LineId) : Nat :=
  match g.spec.find? (fun x => x.line.same l) with | some x => x.mask | none => 0

/-- Speculative lines of all gangs of a block (R434). -/
def State.specCount (s : State) (blk : Nat) : Nat :=
  s.gangs.foldl (fun a kg => if kg.2.blk = blk then a + kg.2.spec.length else a) 0

/-- A write held in the gang's version; none when a limit would be exceeded (R107, R434). -/
def State.specPut (s : State) (die : Nat) (g : Gang) (l : LineId) (off n v : Nat) : Option Gang :=
  let m := maskOf off n
  match g.spec.find? (fun x => x.line.same l) with
  | some x => some { g with spec := g.spec.map (fun y => if y.line.same l then { x with data := linePut x.data off n v, mask := x.mask ||| m } else y) }
  | none =>
    let sl := s.localSlice l die
    let st := s.setOf l
    let mine := g.spec.filter (fun x => x.slice == sl && x.set == st)
    let others := s.specWays sl st - ((s.gangs.find? (fun kg => kg.2.blk == g.blk && kg.2.g == g.g)).map
      (fun kg => (kg.2.spec.filter (fun x => x.slice == sl && x.set == st)).length)).getD 0
    let blkOthers := s.specCount g.blk - ((s.gangs.find? (fun kg => kg.2.blk == g.blk && kg.2.g == g.g)).map
      (fun kg => kg.2.spec.length)).getD 0
    if 8 ≤ mine.length + others ∨ 32768 ≤ blkOthers + g.spec.length then none
    else some { g with spec := g.spec ++ [⟨l, linePut 0 off n v, m, sl, st⟩] }

/-- A version ends without commit (R354): every fragment joins fragment 0 at an address, stacks empty, masks set to the live
lanes that had not finished at TBEG, windows as recorded. -/
def Gang.discard (g : Gang) (pc cyc : Nat) : Gang :=
  let lv := andNot g.live g.trec.fin
  let g := { g with spec := [], task := false, taskid := 0, fin := g.trec.fin
                    slices := g.slices.mapIdx (fun i _ => ⟨pc, fld lv (4 * i) 4, []⟩) }
  { g with frags := [(0, ⟨g.aliveSlices, g.trec.xv, g.trec.xs, .ready, cyc, cyc, 0, 0, [], none, none⟩)] }

/-- A write exceeds its version (R354, R434): TASKOV with TFPC.0 at the abort target; in a handler it kills (R445). -/
def State.taskOv (s : State) (i : Issue) : State :=
  match s.gang i.key with
  | none => s
  | some g =>
    if g.hm then s.killGang i.key rHNDF i.pc
    else
      let g := (g.discard g.trec.abort s.cycle).setU g.trec.stat 0x20000
      (s.putGang i.key g).raise i.key 0 g.trec.abort (2 ^ cTASKOV) none

/-! ### Forming and checking addresses -/

/-- What became of one access's checks at the core. -/
inductive Chk where
  | ok (line : LineId) (off : Nat)
  | bad (sub : Nat)
  | walk (va : Nat)
  | wait
  deriving DecidableEq, Repr

/-- The address of an access as formed by R14, and the subcode of a failing formation. -/
def formAddr (sp base : Nat) (disp : Int) : Nat × Option Nat :=
  if sp = 0 then
    let o := (base % 2 ^ 36 : Nat) + disp
    let a := base / 2 ^ 36 * 2 ^ 36 + wrapN 36 o
    if 128 ≤ fld base 56 8 ∨ fld base 36 20 = 0 then (a, some subBADPTR)
    else if o < 0 ∨ (2 ^ 36 : Nat) ≤ o then (a, some subRANGE) else (a, none)
  else
    let a := wrapN 64 ((base : Int) + disp)
    if sp ≠ 1 ∧ 2 ^ 32 ≤ a then (a, some subSPACE) else (a, none)

/-- A core's cached translation for an access. -/
def State.tlbFind (s : State) (core asid va kind : Nat) : Option TlbEnt :=
  (s.core core).tlb.find? (fun t => t.serves asid va kind)

/-- The checks of a translated .D access (R153, R181). -/
def State.physChk (s : State) (t : TlbEnt) (va kind : Nat) : Chk :=
  if s.coh.retiring = some t.key then .wait
  else if s.keyEmpty t.key then .bad subNOKEY
  else if kind = 1 ∧ !s.placeOk t then .bad subPLACE
  else
    let pa := t.pa + (va - t.va)
    if !populated pa then .bad subNOPHYS else .ok (physLine pa t.key) (pa % 128)

/-- The line of a .O offset: under the entry's key when the object is here, else a remote line (R101, R132). -/
def State.objLineOf (s : State) (ident off : Nat) : LineId :=
  match s.oteFor ident off with
  | some (_, e) => objLine ident off (oteKey e)
  | none => objLine ident off 0x3FF

/-- All checks of one access made at the core, in the order of R19 and R322: formation, alignment, place. -/
def State.checkAcc (s : State) (key : Nat) (g : Gang) (f : Frag) (sp n kind lane : Nat) (fa : Nat × Option Nat) : Chk :=
  match fa.2 with
  | some sub => .bad sub
  | none =>
    let a := fa.1
    let core := coreOf key
    if a % n ≠ 0 then .bad subALIGN
    else match sp with
    | 0 => .ok (s.objLineOf (a / 2 ^ 36) (a % 2 ^ 36)) (a % 128)
    | 1 =>
      if 2 ^ 57 ≤ a then .bad subNONCANON
      else match f.walkFails.find? (fun w => w.page == a / 4096 && w.kind == kind) with
      | some w => .bad w.sub
      | none => match s.tlbFind core (s.space g).1 a kind with
        | some t => s.physChk t a kind
        | none => .walk a
    | 2 => (match s.hPlace g core a with
      | .error e => .bad e
      | .ok (c, o) => if s.clearing c o then .wait else .ok ⟨false, c, 0⟩ o)
    | 3 => (match s.pPlace g key lane a with | .error e => .bad e | .ok o => .ok ⟨false, core, 0⟩ o)
    | 6 =>
      if kind = 1 then .bad subKSTORE
      else (match s.launch g.launch with
        | some l => if l.csize < a + n then .bad subSPACE else .ok ⟨false, 0, 0⟩ a
        | none => .bad subSPACE)
    | _ => (match s.acPlace g core sp a with | .error e => .bad e | .ok o => .ok ⟨false, core, 0⟩ o)

/-! ### Values -/

/-- Result of an atomic on n bytes (R327). -/
def atomNew (op n m b c : Nat) : Nat :=
  let sm := sextN (8 * n) m
  let sb := sextN (8 * n) b
  match op with
  | 0 => b
  | 1 => (m + b) % 256 ^ n
  | 2 => m &&& b
  | 3 => m ||| b
  | 4 => m ^^^ b
  | 5 => if sm ≤ sb then m else b
  | 6 => if sm ≤ sb then b else m
  | 7 => min m b
  | 8 => max m b
  | 9 => (fadd (if n = 8 then f64 else f32) .rne false false m b).1
  | _ => if m = c then b else m

/-- A loaded value extended for its register (R321): 5 and 6 are the sign-extending widths. -/
def extendW (w v : Nat) : Nat := if w = 5 then wrapN 32 (sextN 8 v) else if w = 6 then wrapN 32 (sextN 16 v) else v

/-- Bytes of a width code (R321). -/
def widthBytes (w : Nat) : Nat := match w with | 0 => 1 | 1 => 2 | 2 => 4 | 3 => 8 | 4 => 16 | 5 => 1 | _ => 2
/-- Registers of a value of n bytes. -/
def regsOf (n reg : Nat) : List Nat := (List.range ((n + 3) / 4)).map (fun k => reg + k)

/-- Reads a value of n bytes from registers. -/
def Gang.vBytes (g : Gang) (n reg l : Nat) : Nat :=
  ((List.range ((n + 3) / 4)).foldl (fun a k => a + g.v (reg + k) l * 2 ^ (32 * k)) 0) % 256 ^ n
def Gang.uBytes (g : Gang) (n reg : Nat) : Nat :=
  ((List.range ((n + 3) / 4)).foldl (fun a k => a + g.u (reg + k) * 2 ^ (32 * k)) 0) % 256 ^ n

/-! ### Progress of an operation -/

/-- A scope's release or acquire acts on caches (R120): 0 GANG, 1 BLOCK, 2 DEV, 3 POD, 4 REC. -/
def State.scopeActs (s : State) (g : Gang) (scope : Nat) : Bool :=
  if scope = 0 then false
  else if scope = 1 then (match s.block g.blk with | some b => decide (1 < b.cores.length) | none => false) else true

/-- Whether a gang may still perform accesses of an operation: those of a killed gang go on (R454). -/
def Acc.pending (a : Acc) : Bool := a.val.isNone && a.err == 0

/-- The phase of an object here (R65): none when it is not resident. -/
def State.objPhase (s : State) (ident : Nat) : Option Nat :=
  (s.oteFind ident).map (fun p => fld (byteField (oteMigst p.2) 29 1) 0 3)
/-- Accesses to the object are performed here directly (R57, R78). -/
def State.objHere (s : State) (ident : Nat) : Bool := s.objPhase ident == some 0 || s.objPhase ident == some 1

/-- Owner-side check of a .O access here (R19 step 4, R24, R153). -/
def State.ownerChk (s : State) (ident off : Nat) : Option Nat :=
  match s.oteFor ident off with
  | none => none
  | some (_, e) => match s.oteAddr e off with
    | .error sub => some sub
    | .ok _ => if s.keyEmpty (oteKey e) then some subNOKEY else none

/-- The request of a line that an operation has already sent. -/
def State.reqSent (s : State) (k o : Nat) (l : LineId) : Bool :=
  s.fab.reqs.any (fun r => r.2.cont == .gangOp k o && r.2.req.ident == l.ident && r.2.req.off / 128 == l.off / 128)

/-- The name of the line of a request (R101). -/
def ObjReq.name (r : ObjReq) : Nat := r.ident * 2 ^ 29 + r.off / 128 % 2 ^ 29
/-- Later requests of the line stay behind this one (R59); a prefetch is ordered against nothing (R326). -/
def ObjWait.orders (w : ObjWait) : Bool := match w.cont with | .prefetch _ _ => false | _ => true
/-- A request of this device for a line is unanswered: later ones stay behind it (R59). -/
def State.lineAsked (s : State) (l : LineId) : Bool := l.obj && s.fab.reqs.any (fun r => r.2.orders && r.2.req.name == l.name)

/-- An entry of the locator for an object (R52 to R54). -/
def State.locGet (s : State) (ident : Nat) : Option LocEnt := s.fab.loc.find? (fun e => e.ident == ident)
def locSet (ident : Nat) : Nat :=
  let serial := ident % 2 ^ 20
  (serial ^^^ (serial / 2 ^ 12) ^^^ (ident / 2 ^ 20 * 16)) % 4096
/-- Generation a is newer than b (R51). -/
def newerGen (a b : Nat) : Bool := decide (1 ≤ (a + 256 - b) % 256 ∧ (a + 256 - b) % 256 ≤ 127)
/-- A lookup that hits makes its entry the newest of its set (R52, log entry 65). -/
def State.locTouch (s : State) (ident : Nat) : State :=
  match s.locGet ident with
  | some e => { s with fab := { s.fab with loc := s.fab.loc.filter (fun x => x.ident != ident) ++ [e] } }
  | none => s
/-- A locator update (R54); a full set of 8 ways evicts its least recently used entry, a pinned one last (R52, R53). -/
def State.locInstall (s : State) (ident dev mgen : Nat) (reg pin : Bool) : State :=
  let e : LocEnt := ⟨ident, dev, mgen, reg, pin⟩
  let l := s.fab.loc
  let l' := match s.locGet ident with
    | some old => if newerGen mgen old.mgen then l.filter (fun x => x.ident != ident) ++ [e] else l
    | none =>
      let same := l.filter (fun x => locSet x.ident == locSet ident)
      if same.length < 8 then l ++ [e]
      else
        let v := match same.find? (fun x => !x.pin) with | some v => v | none => same.headD e
        l.filter (fun x => x != v) ++ [e]
  { s with fab := { s.fab with loc := l' } }

/-- The lookup of R27 and R58 for an object, and whether its accesses are performed here at once: the locator names this
device, which installs its entry's generation as an answer would, or the registry here does on a miss.  In every other case the request goes to the guess or to the registry. -/
def State.lookHere (s : State) (ident : Nat) : State × Bool :=
  match s.locGet ident with
  | some e =>
    let s := s.locTouch ident
    if e.dev == s.devNum && s.objHere ident then
      (match s.oteFind ident with
       | some (_, o) => s.locInstall ident s.devNum (oteMgen o) false (otePin o)
       | none => s, true)
    else (s, false)
  | none =>
    if ident / 2 ^ 20 ≠ s.devNum ∨ !s.objHere ident then (s, false)
    else match s.regFind ident with
      | some (_, e) => if regState e = 1 ∧ byteField e 8 1 = s.devNum then (s.locInstall ident s.devNum (byteField e 9 1) true false, true)
        else (s, false)
      | none => (s, false)

/-- The number of an operation in a packet, and its data. -/
def ObjOp.fields : ObjOp → List Nat
  | .read => [0]
  | .write d m p => [1, d, m, if p then 1 else 0]
  | .atomic xs => 2 :: xs.flatMap (fun a => [a.lane, a.off, a.n, a.op, a.b, a.c])
  | .prefetch => [3]
  | .pin b => [4, if b then 1 else 0]
  | .loc => [5]
  | .free => [6]
  | .col c => [7, c]
  | .mig d => [8, d]
/-- The fields of an OREQ or OFWD (R56). -/
def ObjReq.fields (r : ObjReq) (hops : Nat) : List Nat := [r.ident, r.off, r.tag, r.src, hops] ++ r.op.fields
/-- An OREQ leaves for a device: one for this device stays here, any other passes the pod directory (R56, R134). -/
def State.sendOreq (s : State) (tgt : Nat) (r : ObjReq) : State :=
  if tgt = s.devNum then s.push (.oreq { r with via := s.devNum })
  else s.sendPacket tgt .oreq (r.fields 0) (some { r with via := s.devNum }) true

/-- Sends a line request to a device (R58): an OREQ, which may stay here. -/
def State.sendReq (s : State) (tag : Nat) (w : ObjWait) (tgt : Nat) : State :=
  let w := { w with tgt := tgt, stage := 0, plane := s.planeFor w.req.name }
  let s := { s with fab := { s.fab with reqs := s.fab.reqs.set tag w } }
  s.sendOreq tgt { w.req with hops := 0 }
/-- Asks the registry of the birth device (R58); one known to have failed answers as itself (R60). -/
def State.askReg (s : State) (tag : Nat) (w : ObjWait) : State :=
  let s := { s with fab := { s.fab with reqs := s.fab.reqs.set tag { w with stage := 1 } } }
  let birth := w.req.ident / 2 ^ 20
  if bit s.dcb.pfail birth || s.fab.dead.contains birth then s.push (.rega w.req.ident birth 0 1 tag) else
  s.sendTo (w.req.ident / 2 ^ 20) (.regq w.req.ident s.devNum tag 0) [w.req.ident, s.devNum, tag]

/-- An earlier request of this device to the same line holds back one for a device (R59): it is unanswered at another device, or it
is itself held or at its first registry lookup; so does any request that stands unanswered on a plane the line has left (R143). -/
def State.heldBack (s : State) (tag : Nat) (w : ObjWait) (tgt : Nat) : Bool :=
  s.fab.reqs.any (fun r => decide (r.1 < tag) && r.2.orders && r.2.req.name == w.req.name
    && (r.2.stage != 0 || r.2.tgt != tgt))
  || (tgt != s.devNum && s.fab.reqs.any (fun r => r.1 != tag && r.2.stage == 0 && r.2.req.name == w.req.name
    && r.2.tgt != s.devNum && r.2.plane != s.planeFor w.req.name))

/-- Routes a line request: by the locator's guess, else by the registry (R58, R59). -/
def State.route (s : State) (tag : Nat) (w : ObjWait) : State :=
  match s.locGet w.req.ident with
  | some e =>
    let s := s.locTouch w.req.ident
    if s.heldBack tag w e.dev then { s with fab := { s.fab with reqs := s.fab.reqs.set tag { w with stage := 2, tgt := e.dev } } }
    else s.sendReq tag w e.dev
  | none => s.askReg tag w
/-- The die that a request of the object space is made from, if it is made from one. -/
def State.contDie (s : State) (c : Cont) : Option Nat :=
  match c with
  | .gangOp k _ => some (dieOf (coreOf k))
  | .cmd k _ => some (dieOf (coreOf k))
  | .blocking k _ => some (dieOf (coreOf k))
  | .nap k _ => some (dieOf (coreOf k))
  | .drain id => (s.coh.drains.get id).map (fun d => dieOf d.core)
  | .prefetch core _ => some (dieOf core)
  | .seal _ => none
  | .none => none
/-- The copies of a remote line go that this device's slices hold, or the slice of the one die that writes it, and no answer
under way fills one (R132, R135). -/
def State.dropRemote (s : State) (name : Nat) (die : Option Nat) : State :=
  let mine (l : LineId) : Bool := l.obj && l.name == name && l.key == 0x3FF
  let w (r : Nat × ObjWait) : Nat × ObjWait :=
    if r.2.req.ident * 2 ^ 29 + r.2.req.off / 128 % 2 ^ 29 = name then (r.1, { r.2 with nofill := true }) else r
  { s with coh := { s.coh with
             lines := s.coh.lines.filter (fun x => !(mine x.line && die.all (· == x.die)))
             dir := match die with
               | none => s.coh.dir.filter (fun e => !mine e.line)
               | some d => (s.coh.dir.map (fun e => if mine e.line then e.without d else e)).filter (fun e => !(mine e.line && e.pres == 0)) }
           fab := { s.fab with reqs := s.fab.reqs.map w } }
/-- The request reads its line and changes nothing. -/
def ObjOp.reads : ObjOp → Bool
  | .read => true
  | .prefetch => true
  | _ => false
/-- A new line request of the object space; one that may write drops the S copy of its local slice (R132). -/
def State.newReq (s : State) (ident off : Nat) (op : ObjOp) (cont : Cont) : State :=
  let s := if op.reads then s else s.dropRemote (ident * 2 ^ 29 + off / 128 % 2 ^ 29) (s.contDie cont)
  let tag := s.fab.nextTag
  let w : ObjWait := ⟨⟨ident, off, op, s.devNum, tag, 0, s.devNum, 0, false⟩, 0, 0, cont, s.cycle, 0, 0, false⟩
  ({ s with fab := { s.fab with nextTag := tag + 1 } }).route tag w

/-- Applies a list of lane atomics to a line in order; the old values by lane (R138, R328). -/
def atomLine (xs : List LaneAtom) (data : Nat) : Nat × List (Nat × Nat) :=
  xs.foldl (fun (acc : Nat × List (Nat × Nat)) a =>
    let m := lineGet acc.1 a.off a.n
    (linePut acc.1 a.off a.n (atomNew a.op a.n m a.b a.c), acc.2 ++ [(a.lane, m)])) (data, [])

/-- Sets the accesses of a line from a function. -/
def Op.onLine (x : Op) (l : LineId) (h : Acc → Acc) : Op :=
  { x with accs := x.accs.map (fun a => if a.line = l ∧ a.pending then h a else a) }

/-- Bytes of a load access from a line's data. -/
def loadFrom (n data : Nat) (poison : Bool) (a : Acc) : Acc := { a with val := some (lineGet data a.off n), bad := poison }

/-- A slice's copy of a remote line given to another die of this device: RDS at the home slice, one step (R129, R132, log
entry 21), its check value tested (R146).  False while another directory entry gives up its way (R131).  Nothing is filled while
a new pod map is being adopted (R143). -/
def State.shareRemote (s : State) (die : Nat) (y : SLine) : State × SLine × Bool :=
  if y.die = die then (s.putSl y, y, true)
  else if s.fab.epochWait then (s, y, true)
  else if s.dirFull y.line die then (s.evictDir y.line, y, false)
  else
    let (s, d) := s.chkReceipt y.line (y.data, y.poison)
    ((s.putDir ((s.dirOf y.line).withDie die false)).install die y.line .s d.1 d.2, { y with data := d.1, poison := d.2 }, true)

/-- A write-back of a line by a core is on its way to the slice: the core's accesses to the line come after it (R159, R167). -/
def State.wbOwed (s : State) (core : Nat) (l : LineId) : Bool :=
  let mine (m : Msg) : Bool := match m with | .l1Writeback c l' _ _ _ _ => c == core && l'.same l | _ => false
  s.pending.any mine || s.timers.any (fun t => mine t.2)

/-- The copy of a remote line that serves a die: its own slice's, else the home slice's (R129, R132). -/
def State.remoteCopy (s : State) (die : Nat) (l : LineId) : Option SLine :=
  let r : LineId := { l with key := 0x3FF }
  match s.sl die r with | some y => some y | none => s.sl (s.homeDie r) r

/-- The own access of an operation performed on a line's bytes: new bytes, the mask written, and the operation.  A failed
compare writes nothing (R167 rule 2); an atomic that meets poison leaves the line (log entry 24). -/
def Op.perform (x : Op) (l : LineId) (base own : Nat) (poison : Bool) : Nat × Nat × Op :=
  let mine := x.accs.filter (fun a => a.line == l && a.pending)
  if x.atom = 16 then
    let d := mine.foldl (fun (acc : Nat × Nat) a => (linePut acc.1 a.off x.n a.b, acc.2 ||| maskOf a.off x.n)) (base, own)
    (d.1, d.2, x.onLine l (fun a => { a with val := some 0 }))
  else if poison then (base, own, x.onLine l (fun a => { a with val := some 0, bad := true }))
  else
    let r := atomLine (mine.map (fun a => ⟨a.lane, a.off, x.n, x.atom, a.b, a.c⟩)) base
    let old (a : Acc) : Nat := ((r.2.find? (fun q => q.1 == a.lane)).map (·.2)).getD 0
    let m := mine.foldl (fun acc a => if x.atom = 15 ∧ old a ≠ a.c then acc else acc ||| maskOf a.off x.n) own
    (r.1, m, x.onLine l (fun a => { a with val := some (old a) }))

/-- Bytes that the pending accesses of an operation name in a line. -/
def Op.lineMask (x : Op) (l : LineId) : Nat :=
  (x.accs.filter (fun (a : Acc) => a.line == l && a.pending)).foldl (fun m a => m ||| maskOf a.off x.n) 0

/-- A write of some bytes of a line meets the split state (R150): no die holds it, and the host holds exclusively a half that
the write leaves alone. -/
def State.splitAt (s : State) (l : LineId) (mask : Nat) : Bool :=
  let e := s.dirOf l
  let h := halvesOf mask
  e.pres == 0 && (s.txn l).isNone && ((!bit h 0 && e.hlo == 2) || (!bit h 1 && e.hhi == 2))

/-- The bytes of a split line written at its home, which keeps no copy. -/
def State.splitPut (s : State) (l : LineId) (data mask : Nat) : State :=
  let (s, old) := s.chkReceipt l (s.lineNow l)
  (((s.memMet l old.2).noteWrite l).toMem (s.homeDie l) l (lineMerge old.1 data mask) old.2).wakeNaps

/-- Asks the host for the halves a write to a split line touches (R149). -/
def State.splitAsk (s : State) (l : LineId) (mask : Nat) : State :=
  (hostHalves (s.dirOf l) (halvesOf mask)).foldl (fun s h =>
    if !h.2 || s.host.bisnp.any (fun b => b.line == l && b.half == h.1) then s else s.sendBisnp l h.1 true) s

/-- A load of an operation from a line: served from the L1 under its own valid bytes, or by `past`. -/
def State.loadL1 (s : State) (core : Nat) (g : Gang) (x : Op) (l : LineId) (past : State × Op) : State × Op :=
  match (if x.acq != 0 then none else (s.core core).l1Find l) with
  | some y =>
    if (x.accs.filter (fun (a : Acc) => a.line == l && a.pending)).all (fun (a : Acc) =>
        andNot (maskOf a.off x.n) (y.valid ||| g.specMask l) == 0)
    then (s.l1Touch core l, x.onLine l (loadFrom x.n (g.specOver l y.data) y.poison)) else past
  | none => past

/-- A load served by a slice's copy: the L1 is filled, but for an acquire, which leaves no older bytes there (R120, R167), and
where nothing may be filled (R143).  The fill is sampled (EVT 3 of R457). -/
def State.loadSlice (s : State) (k : Nat) (g : Gang) (x : Op) (l : LineId) (y : SLine) (fill : Bool) : State × Op :=
  let core := coreOf k
  let d := match (s.core core).l1Find l with
    | some z => lineMerge y.data z.data (if x.acq != 0 then z.dirty else z.valid)
    | none => y.data
  let s := if x.acq != 0 then s.l1Stale core l
    else if fill then (s.l1Fill core y.line y.data y.poison).sample k 3 (s.cycle - x.issued) else s
  (s, x.onLine l (loadFrom x.n (g.specOver l d) y.poison))

/-- Progress on a line of an object that another device holds, or that is being moved from here: an L1 or slice copy serves a plain
load, a prefetch in FREEZE or COMMIT is dropped (R78), anything else goes to the owner (R132), behind the core's own write-back of
the line (R159). -/
def State.serveRemote (s : State) (k o : Nat) (g : Gang) (x : Op) (l0 : LineId) : State × Op :=
  let core := coreOf k
  let die := dieOf core
  let isLoad := x.atom = 16 && (x.cls = 0 || x.cls = 7)
  let waitFor (s : State) : State × Op := (s, { x with need := l0 :: x.need.filter (· != l0) })
  let ask : State × Op :=
    if s.reqSent k o l0 then (s, { x with need := l0 :: x.need.filter (· != l0) })
    else
      let mine := x.accs.filter (fun (a : Acc) => a.line == l0 && a.pending)
      -- the core's own copy goes, its dirty bytes first (R120, R159)
      let s := if isLoad then s else match (s.core core).l1Find l0 with
        | some y =>
          let s := s.putCore core ((s.core core).l1Drop l0)
          if y.dirty = 0 then s else
            (s.newDrain ⟨core, 0, 1, [], false, true⟩).newReq l0.ident l0.off (.write y.data y.dirty false)
              (.drain (s.coh.nextDrain + 1))
        | none => s
      let op : ObjOp := if x.cls = 7 then .prefetch else if isLoad then .read
        else if x.atom ≠ 16 then .atomic (mine.map (fun a => ⟨a.lane, a.off, x.n, x.atom, a.b, a.c⟩))
        else
          let d := mine.foldl (fun (acc : Nat × Nat) a => (linePut acc.1 a.off x.n a.b, acc.2 ||| maskOf a.off x.n)) (0, 0)
          .write d.1 d.2 false
      (s.newReq l0.ident (l0.off + (mine.headD ⟨0, 0, l0, 0, 0, 0, none, false, 0⟩).off) op (.gangOp k o),
        { x with need := l0 :: x.need.filter (· != l0) })
  if x.cls = 7 ∧ (s.objPhase l0.ident = some 2 ∨ s.objPhase l0.ident = some 3) then
    (s, x.onLine l0 (fun a => { a with val := some 0 }))
  else if !isLoad then (if s.wbOwed core l0 then waitFor s else ask)
  else s.loadL1 core g x l0 (if s.wbOwed core l0 then waitFor s else
    match (if x.acq != 0 then none else s.remoteCopy die l0) with
    | some y =>
      let (s, y, room) := s.shareRemote die y
      if room then s.loadSlice k g x l0 y (!s.fab.epochWait) else waitFor s
    | none => ask)

/-- Progress on a line of this device: a load through L1 and slice, a write with M at the slice of R328 after the core's own
dirty bytes; the host keeps the half of a split line that a write leaves alone (R150). -/
def State.serveHere (s : State) (k o : Nat) (g : Gang) (x : Op) (l0 l : LineId) : State × Op :=
  let core := coreOf k
  let die := dieOf core
  let waitFor (s : State) : State × Op := (s, { x with need := l :: x.need.filter (· != l) })
  if x.atom = 16 && (x.cls = 0 || x.cls = 7) then
    s.loadL1 core g x l0 (
      -- the core's own write-backs reach the slice first (R159)
      if s.coh.wbw.any (fun w => w.die == die && w.line == l) || s.wbOwed core l0 then waitFor s else
      match s.sl die l with
      | some y =>
        if y.st == .i || y.st == .wb then waitFor (s.askS die l)
        else
          let (s, ready) := s.askDrains y (some core)
          if !ready then waitFor s else (s.putSl y).loadSlice k g x l0 y true
      | none => waitFor (s.askS die l))
  else
    let wd := s.writeDie die l
    let own := (s.core core).l1Find l0
    let ownMask := match own with | some z => z.dirty | none => 0
    let under (data : Nat) : Nat := match own with | some z => lineMerge data z.data z.dirty | none => data
    let mask := x.lineMask l0 ||| ownMask
    if s.coh.wbw.any (fun w => w.line == l) || s.wbOwed core l0 then waitFor s
    else if s.splitAt l mask then
      if !hostFree (s.dirOf l) (halvesOf mask) then waitFor (s.splitAsk l mask)
      else
        let y := s.lineNow l
        let r := x.perform l0 (under y.1) ownMask y.2
        ((s.putCore core ((s.core core).l1Drop l0)).splitPut l r.1 r.2.1, r.2.2)
    else if !s.canWrite wd l mask then waitFor (s.askM wd l mask)
    else
      match s.sl wd l with
      | none => waitFor (s.askM wd l mask)
      | some y =>
        let (s, ready) := s.askDrains y (some core)
        if !ready then waitFor s
        else if x.phase = 3 ∧ !s.canRecord core y (x.pcnt != 0) then
          -- no record can be made after all: the release is eager (R121)
          (s.startDrain core [(k, o)], { x with phase := 1 })
        else
          let r := x.perform l0 (under y.data) ownMask y.poison
          let s := s.putCore core ((s.core core).l1Drop l0)
          let s := if r.2.1 = 0 then s else s.sliceWrite wd l r.1 r.2.1 false
          if x.phase ≠ 3 then (s, r.2.2)
          else
            -- the lazy release is recorded at the line, under one release number for all its lines (R121)
            let (s, rsn) := if x.pcnt = 0 then s.nextRsn core else (s, x.pcnt - 1)
            (match s.sl wd l with | some y => s.record core rsn y | none => s, { r.2.2 with pcnt := rsn + 1 })

/-- Makes progress on one line of an operation: what can be served from the L1, the slice or the owner is, the rest is asked
for.  `k`, `o` name the operation.  A .O access is looked up (R27, R58); one performed here meets the owner's checks (R323)
through the translation cache (R25), and waits for an earlier request of the line (R59) and for a key that is being retired
(R152). -/
def State.serveLine (s : State) (k o : Nat) (x : Op) (l0 : LineId) : State × Op :=
  match s.gang k with
  | none => (s, x)
  | some g =>
    if x.phase = 1 then (s, x)
    else if !l0.obj then s.serveHere k o g x l0 l0
    else
      let (s, here) := s.lookHere l0.ident
      if !here then s.serveRemote k o g x l0 else
      let s := s.otcFill l0.ident l0.off
      let l := s.objLineOf l0.ident l0.off
      if s.coh.retiring = some l.key ∨ s.lineAsked l then (s, { x with need := l :: x.need.filter (· != l) })
      else
        let x := { x with accs := x.accs.map (fun a =>
          if a.line = l0 ∧ a.pending then
            (match s.ownerChk l0.ident (l0.off + a.off) with | some sub => { a with err := sub } | none => a) else a) }
        if x.accs.any (fun a => a.line == l0 && a.pending) then s.serveHere k o g x l0 l else (s, x)

/-- Accesses to the on-core stores and the constant window, performed at once in ascending lane order (R91).  Those to the
window pass the L1 (R85) and read what was loaded at the placement (R17).  A plain store that happens to change a sync word
starts no advance: R334 advances a word after its own updates (DEDUCED, log entry 67). -/
def State.serveOnCore (s : State) (core : Nat) (g : Gang) (x : Op) : State × Op :=
  let r := x.accs.foldl (fun (acc : State × List Acc) a =>
    let s := acc.1
    if !a.pending then (s, acc.2 ++ [a])
    else if x.sp = 6 then
      (match s.launch g.launch with
       | some l =>
         (match l.constLine a.off with
          | some n => s.l1Const core n (s.physNow n).1
          | none => s, acc.2 ++ [{ a with val := some (Mem.load l.const a.off x.n) }])
       | none => (s, acc.2 ++ [{ a with val := some 0 }]))
    else
      let st := spaceStore x.sp
      let m := s.onRead a.line.name st a.off x.n
      if x.cls = 0 ∧ x.atom = 16 then (s, acc.2 ++ [{ a with val := some m.1, bad := m.2 }])
      else if x.atom = 16 then (s.onWrite a.line.name st a.off x.n a.b, acc.2 ++ [{ a with val := some 0 }])
      else if m.2 then (s, acc.2 ++ [{ a with val := some 0, bad := true }])
      else (s.onWrite a.line.name st a.off x.n (atomNew x.atom x.n m.1 a.b a.c), acc.2 ++ [{ a with val := some m.1 }])) (s, [])
  (r.1, { x with accs := r.2 })

/-- The release of an operation can be lazy (R120): DEV, or BLOCK over several cores, with every own access a .D line or a
local .O line that is not recovery-class and homed elsewhere. -/
def State.lazyOk (s : State) (core : Nat) (x : Op) : Bool :=
  (x.rel == 2 || x.rel == 3) && decide (x.sp < 2) && decide ((s.core core).lazy < 64)
    && x.accs.all (fun a => (!a.line.obj || (s.lookHere a.line.ident).2)
      && (let l := if a.line.obj then s.objLineOf a.line.ident a.line.off else a.line
          !s.recLine l || s.homeDie l == dieOf core)
      && (match s.sl (dieOf core) (if a.line.obj then s.objLineOf a.line.ident a.line.off else a.line) with
          | some y => s.canRecord core y false
          | none => true))

/-- The device a line's request is for: this one, or the locator's guess. -/
def State.guessOf (s : State) (l : LineId) : Nat :=
  if !l.obj then s.devNum else match s.locGet l.ident with | some e => e.dev | none => l.ident / 2 ^ 20
/-- Puts a line before the first of a list that comes after it. -/
def insertBy (before : LineId → LineId → Bool) (l : LineId) : List LineId → List LineId
  | [] => [l]
  | x :: rest => if before l x then l :: x :: rest else x :: insertBy before l rest
/-- Lines in the order their requests are sent: by device, then by name (R138). -/
def State.sendOrder (s : State) (ls : List LineId) : List LineId :=
  ls.foldl (fun acc l => insertBy (fun a b => decide (s.guessOf a < s.guessOf b)
    || (s.guessOf a == s.guessOf b && decide (a.name < b.name))) l acc) []

/-- An operation that reaches an entry of the absent tier here performs none of its accesses (R5). -/
def State.absentTier (s : State) (x : Op) : Op :=
  if (x.accs.any (fun a => a.line.obj && a.pending && s.ownerChk a.line.ident (a.line.off + a.off) == some 256))
  then { x with accs := x.accs.map (fun a => if a.pending then { a with err := 256 } else a) } else x

/-- Tries every pending access of an operation; when all are in, the acquire action (R120) and the return (R331). -/
def State.serveOp (s : State) (k o : Nat) : State :=
  match s.gang k, s.op k o with
  | some g, some x =>
    if x.phase = 1 ∨ x.done then s else
    let x := if x.sp = 0 then s.absentTier x else x
    let (s, x) := if 2 ≤ x.sp then s.serveOnCore (coreOf k) g x
      else ((s.sendOrder ((x.accs.filter Acc.pending).map (fun a => a.line)).dedup).foldl
        (fun (acc : State × Op) l => acc.1.serveLine k o acc.2 l) (s, { x with need := [] }))
    if x.accs.any Acc.pending then s.putOp k o x
    else
      let s := if x.acq ≠ 0 ∧ x.sp ≠ 6 ∧ s.scopeActs g (x.acq - 1) then s.selfInvalidate (coreOf k) else s
      (s.putOp k o { x with done := true }).push (.loadReturn k o)
  | _, _ => s

/-- Starts an operation: the release action first, lazy or eager (R120, R325), then its own accesses.  Phases: 0 perform,
1 draining, 2 drained, 3 lazy release. -/
def State.beginOp (s : State) (k o : Nat) : State :=
  match s.gang k, s.op k o with
  | some g, some x =>
    if x.rel ≠ 0 ∧ s.scopeActs g (x.rel - 1) then
      if s.lazyOk (coreOf k) x then (s.putOp k o { x with phase := 3 }).serveOp k o
      else (s.putOp k o { x with phase := 1 }).startDrain (coreOf k) [(k, o)]
    else s.serveOp k o
  | _, _ => s

/-- Every operation that waits for a line on a die looks again. -/
def State.wakeLine (s : State) (die : Nat) (l : LineId) : State :=
  s.gangs.foldl (fun s kg => kg.2.ops.foldl (fun s ko =>
    if ko.2.need.any (fun n => n.obj == l.obj && n.name == l.name) && (dieOf (coreOf kg.1) == die || s.writeDie (dieOf (coreOf kg.1)) l == die)
    then s.serveOp kg.1 ko.1 else s) s) s
/-- Every operation that waits for some line of a die looks again: records of the die have been cleared. -/
def State.wakeDie (s : State) (die : Nat) : State :=
  s.gangs.foldl (fun s kg => kg.2.ops.foldl (fun s ko =>
    if !ko.2.need.isEmpty && dieOf (coreOf kg.1) == die then s.serveOp kg.1 ko.1 else s) s) s

/-- Ends the wait of the fragment, running or in the shadow, that an operation blocks. -/
def Frag.unblock (o : Nat) (f : Frag) : Frag := if f.wait = .blocked o then { f with wait := .ready } else f
def Gang.unblock (g : Gang) (o : Nat) : Gang :=
  { g with frags := g.frags.map (fun (kf : Nat × Frag) => (kf.1, kf.2.unblock o))
           shadow := g.shadow.map (fun x => { x with frags := x.frags.map (fun (kf : Nat × Frag) => (kf.1, kf.2.unblock o)) }) }

/-! ### Presenting completions (R331) -/

/-- The registers a completed load or atomic writes, by lane (R322, R324). -/
def Op.writes (x : Op) (g : Gang) : List (Nat × Nat × Nat) :=
  let lanes := andNot x.act g.dl
  let one (l v : Nat) := (List.range ((x.n + 3) / 4)).map (fun i => (x.dst + i, l, extendW x.ext v / 2 ^ (32 * i) % 2 ^ 32))
  let vals := if x.uniform then (match x.accs.head? with
      | some a => if a.err = 0 ∧ !a.bad then (laneList lanes).flatMap (fun l => one l (a.val.getD 0)) else []
      | none => [])
    else x.accs.flatMap (fun a => if a.err = 0 ∧ !a.bad ∧ bit lanes a.lane then one a.lane (a.val.getD 0) else [])
  vals ++ (laneList (andNot x.zero g.dl)).flatMap (fun l => (List.range ((x.n + 3) / 4)).map (fun i => (x.dst + i, l, 0)))

/-- Lanes of an operation that met poison (R451). -/
def Op.poisoned (x : Op) : Nat :=
  if x.uniform then (if x.accs.any (·.bad) then x.act else 0)
  else maskOfList ((x.accs.filter (·.bad)).map (·.lane))

/-- The releases and fences of a gang that wait for an earlier write or atomic that is lost with its peer (R176). -/
def Gang.lostBefore (g : Gang) (o : Nat) : Gang :=
  { g with ops := g.ops.map (fun ko => if decide (o < ko.1) && decide (4 ≤ ko.2.rel) && ko.2.phase == 1
      then (ko.1, { ko.2 with flags := ko.2.flags ||| 16 }) else ko) }

/-- Lanes of a store or atomic that its owner performed beside failing ones (R11, R44). -/
def Op.doneLanes (x : Op) : Nat :=
  if x.uniform || x.scalar || (x.cls == 0 && x.atom == 16) then 0
  else maskOfList ((x.accs.filter (fun a => a.err == 0 && !a.bad)).map (·.lane))

/-- Presents one completed operation of class LD or ST: registers, counter, causes that return with it (R323, R331).  A load
that met an absent tier writes nothing (R5); the fill of a prefetch, class 7, has no effect (R326). -/
def State.presentMem (s : State) (k o : Nat) (x : Op) : State :=
  match s.gang k with
  | none => s
  | some g =>
    let g := Gang.unblock { g with ops := g.ops.erase o } o
    let ghost := x.code = 1
    let g := if ghost then g else g.unbump x.cls
    if x.cls = 7 ∧ !g.retired then s.putGang k g
    else if g.retired then (s.putGang k g).checkBlock g.blk
    else
      let g := if x.cls ≠ 0 ∨ ghost ∨ x.accs.any (fun a => a.err == 256) then g
        else if x.scalar then
          (match x.accs.head? with
           | some a => if a.err = 0 ∧ !a.bad then (List.range ((x.n + 3) / 4)).foldl (fun g i =>
               g.setU (x.dst + i) (extendW x.ext (a.val.getD 0) / 2 ^ (32 * i) % 2 ^ 32)) g else g
           | none => g)
        else (x.writes g).foldl (fun g w => g.setV w.1 w.2.1 w.2.2) g
      let s := s.putGang k g
      let s := if x.sp = 2 ∨ (x.sp < 2 ∧ x.cls = 0) then s.sample k (if x.sp = 2 then 2 else 1) (s.cycle - x.issued) else s
      let one := x.uniform || x.scalar
      let lost := x.accs.filter (fun a => a.err == 257)
      let errs := x.accs.filter (fun a => a.err != 0 && a.err != 257)
      let lane (a : Acc) : Nat := if one then 0 else a.lane
      let kind := if x.atom ≠ 16 then 2 else x.cls
      let es := (errs.filter (fun a => a.err != 256)).map (fun a => (a.addr, lane a, a.err, kind, x.sp))
      let s := if errs.isEmpty then s else s.raiseLate k x (causeBits (errs.map (·.err)))
        (if es.isEmpty then none else some (mkRec x.pc x.frag x.doneLanes one false false
          (if one then x.act else maskOfList (es.map (fun e => e.2.1))) es))
      let s := if lost.isEmpty then s
        else ((match s.gang k with
            | some g => s.putGang k { (if kind = 0 then g else g.lostBefore o) with peerlost := true }
            | none => s).raiseLate k x (2 ^ cPEERLOST)
          (some (peerRec x.pc x.frag x.doneLanes one false (if one then x.act else maskOfList (lost.map (fun (a : Acc) => a.lane))) s.peerSub
            (lost.map (fun (a : Acc) => (a.addr, lane a, kind, x.sp)))))).drawn
      if x.poisoned = 0 ∧ !(x.scalar ∧ x.accs.any (·.bad)) then s
      else if x.scalar then s.killGang k rUREG x.pc
      else s.killLanes k x.poisoned (2 ^ cLANEKILL)

/-- The oldest operation of a class, if it is done; the part of a faulting atomic that was performed (R46) counts in no
class. -/
def Gang.headOf (g : Gang) (cls : Nat) : Option (Nat × Op) :=
  match g.ops.find? (fun ko => ko.2.cls == cls && !(decide (cls < 2) && ko.2.code == 1)) with
  | some ko => if ko.2.done then some ko else none
  | none => none

/-- Presents the completed operations of LD or ST in issue order (R331). -/
def State.presentCls (s : State) (k cls : Nat) : Nat → State
  | 0 => s
  | n + 1 =>
    match (s.gang k).bind (fun g => g.headOf cls) with
    | some ko => (s.presentMem k ko.1 ko.2).presentCls k cls n
    | none => s

/-! ### Drains of given lines, and the durability wait -/

/-- Writes back given lines under a new drain that serves operations: the performing of a version's lines (R353). -/
def State.drainLines (s : State) (core : Nat) (ls : List (LineId × Nat × Nat)) (serves : List (Nat × Nat)) : State :=
  let id := s.coh.nextDrain + 1
  let s := s.newDrain ⟨core, (s.core core).rsn, ls.length, serves, false, false⟩
  (ls.foldl (fun s x => s.push (.l1Writeback core x.1 x.2.1 x.2.2 false id)) s).drainNext core

/-- The other devices of the pod that PFAIL does not show failed (R190). -/
def State.liveDevs (s : State) : List Nat :=
  (s.fab.members.dedup).filter (fun d => d != s.devNum && !bit s.dcb.pfail d)

/-- The durability wait of step 1 of RCOMM (R190): RDUR to this device's slices and to every live device.  Region 64
stands for a release that is no RCOMM. -/
def State.askDurable (s : State) (k o region cursor : Nat) : State :=
  let tag := s.rcv.nextTag
  let ds := s.liveDevs
  let s := { s with rcv := { s.rcv with nextTag := tag + 1
                                        commits := s.rcv.commits.set tag ⟨region, k, o, cursor, 1, 0, s.devNum :: ds, 0, false, false, 0⟩ } }
  ds.foldl (fun s d => s.sendDev d .rdur [tag, s.devNum]) (s.push (.rdur tag s.devNum))

/-- What the class of a command does next, once it may run: its engine's event. -/
def Op.goMsg (x : Op) (k o : Nat) : Msg :=
  match x.what with
  | .twld _ => .weightLatch k o
  | .tmul _ => .tilePassStart (coreOf k)
  | .tmuls _ => .tilePassStart (coreOf k)
  | .tmulX4 _ => .tilePassStart (coreOf k)
  | .tzero _ => .tilePassStart (coreOf k)
  | .trd _ => .tilePassStart (coreOf k)
  | .attn _ => .peaWalkStart k o
  | .apref _ => .peaWalkStart k o
  | _ => if x.cls = 5 then .stateStoreOp k o else .engineCompletion k o

/-- An earlier write or atomic of a gang to a remote line is unacknowledged (R144). -/
def State.remoteOwed (s : State) (k o : Nat) : Bool :=
  s.fab.reqs.any (fun r => match r.2.cont with
    | .gangOp k' o' => k' == k && decide (o' < o) && (match r.2.req.op with | .read => false | _ => true)
    | _ => false)

end Sys2Proof.Machine
end

