-- ==== Sys2Proof/Machine/Mem.lean ====
section
/-! DEFINITION. Loads, stores, prefetches and atomics (R320 to R328), and the events that return them: LOAD_RETURN and
PAGE_WALK_DONE. -/

namespace Sys2Proof.Machine

/-! ### The request of a memory instruction -/

/-- One lane of a memory request: its formed address, its data or operand, its compare value. -/
structure Tgt where
  lane : Nat
  fa : Nat × Option Nat
  b : Nat
  c : Nat
  deriving DecidableEq, Repr

/-- A memory instruction with its operands read: `kind` 0 load, 1 store, 2 atomic; `one` an access made once for all lanes,
`uni` a mode-10 or scalar access, which makes FLAGS.UNIFORM 1 (R44). -/
structure MemReq where
  what : Instr
  kind : Nat
  sp : Nat
  n : Nat
  ext : Nat
  scalar : Bool
  one : Bool
  uni : Bool
  act : Nat
  zero : Nat
  dst : Nat
  atom : Nat
  acq : Nat
  rel : Nat
  tgts : List Tgt
  deriving DecidableEq, Repr

/-- Runs a meaning whose registers pass their checks (R214, R451), with the lanes that an uncorrectable element, or a lasting
disagreement of checked issue (R227, R228), kills: they take no part. -/
def withPlan (s : State) (p : Gang → Frag → Plan) (k : Issue → Gang → Frag → Nat → State) : Out :=
  withIssue s fun i g f =>
    let q := p g f
    if !g.inBounds q then .next (s.trap i (2 ^ cBOUNDS) none)
    else if g.awaits q then .next (s.hold i g .room)
    else if g.badUniform q then .next (s.killGang i.key rUREG i.pc)
    else if s.aluScalar i.key g q then .next (s.killGang i.key rSCALAR i.pc)
    else
      let bad := g.badLanes q
      let alu := s.aluLanes i.key g q
      let t := k i g f (bad ||| alu)
      .next ((if bad ||| alu = 0 then t
        else (t.killLanes i.key bad (2 ^ cLANEKILL)).killLanes i.key alu (2 ^ cALUERR)).aluRetry i.key g q)

/-- The translation kind of a request (R36): writes and atomics need W. -/
def MemReq.xkind (r : MemReq) : Nat := if r.kind = 0 then 0 else 1

/-- Lanes of a replayed store or atomic that were performed before the fault (R11). -/
def Gang.replayed (g : Gang) (i : Issue) : Nat :=
  match g.replay.find? (fun x => x.pc == i.pc && x.frag == i.frag) with | some x => x.done | none => 0

/-- Asks for the walks that a bundle needs and leaves it waiting (R323). -/
def State.walkFor (s : State) (i : Issue) (g : Gang) (kind : Nat) (vas : List Nat) : State :=
  let sp := s.space g
  let s := (vas.map (· / 4096)).dedup.foldl (fun s p =>
    let m : Msg := .pageWalkDone ⟨i.key, i.frag, coreOf i.key, sp.1, sp.2, p * 4096, kind⟩
    if s.pending.contains m then s else s.push m) s
  s.hold i g (.walk (vas.headD 0))

/-- What the checks of every target gave. -/
def State.checkAll (s : State) (i : Issue) (g : Gang) (f : Frag) (r : MemReq) : List (Tgt × Chk) :=
  let skip := if r.kind = 0 then 0 else g.replayed i
  (r.tgts.filter (fun t => !bit skip t.lane)).map (fun t => (t, s.checkAcc i.key g f r.sp r.n r.xkind t.lane t.fa))

def walksOf (cs : List (Tgt × Chk)) : List Nat := cs.filterMap (fun c => match c.2 with | .walk va => some va | _ => none)
def badsOf (cs : List (Tgt × Chk)) : List (Tgt × Nat) := cs.filterMap (fun c => match c.2 with | .bad e => some (c.1, e) | _ => none)
def accsOf (cs : List (Tgt × Chk)) : List Acc :=
  cs.filterMap (fun c => match c.2 with
    | .ok l o => some ⟨c.1.lane, c.1.fa.1, l, o, c.1.b, c.1.c, none, false, 0⟩
    | _ => none)

/-- The operation of a request. -/
def MemReq.op (r : MemReq) (i : Issue) (g : Gang) (cyc : Nat) (accs : List Acc) : Op :=
  { Op.blank r.what i.frag i.pc (if r.kind = 1 then 1 else 0) cyc g.hm with
    sp := r.sp, n := r.n, ext := r.ext, dst := r.dst, scalar := r.scalar, uniform := r.one && !r.scalar
    act := r.act, zero := r.zero, acq := r.acq, rel := r.rel, atom := r.atom, accs := accs }

/-! ### Plain stores -/

/-- One lane of a plain store to .O or .D: held in the version inside a task (R175), else in the core's L1 (R331); none when
the version would exceed a limit.  A line that the version takes a way for drives another out (R103). -/
def State.storeLane (s : State) (key n : Nat) (a : Acc) : Option State :=
  match s.gang key with
  | none => some s
  | some g =>
    if g.task then (s.specPut (dieOf (coreOf key)) g a.line a.off n a.b).map
      (fun g' => (s.putGang key g').trimSet (dieOf (coreOf key)) a.line false)
    else some (s.l1Store (coreOf key) a.line a.off n a.b)

/-- Every lane of a plain store, in ascending order, so that the highest lane's data stays (R158). -/
def State.storeLanes (s : State) (key n : Nat) : List Acc → Option State
  | [] => some s
  | a :: rest => match s.storeLane key n a with | some s' => storeLanes s' key n rest | none => none

/-! ### Faults -/

/-- The entries of a fault record for failing lanes (R44). -/
def MemReq.entries (r : MemReq) (bads : List (Tgt × Nat)) : List (Nat × Nat × Nat × Nat × Nat) :=
  bads.map (fun b => (b.1.fa.1, if r.one then 0 else b.1.lane, b.2, r.kind, r.sp))

/-- A request with failing lanes (R11, R46): some of the lanes that passed may be performed, a free choice of the device; they
are kept for a replay when the fault is replayable.  What the destination register of a performed lane of an atomic holds after that
replay is not stated: the lane is skipped and its register stays as it was (DESIGN CHOICE, log entry 14). -/
def State.faultMem (s : State) (i : Issue) (g : Gang) (r : MemReq) (cs : List (Tgt × Chk)) : State :=
  let bads := badsOf cs
  let oks := accsOf cs
  let free := if r.kind = 0 ∨ r.rel ≠ 0 ∨ r.one ∨ g.hm then 0
    else (Config.freeDone s.free).toNat &&& maskOfList (oks.map (·.lane))
  let some' := oks.filter (fun a => bit free a.lane)
  let s := { s with free := s.free + 1 }
  let o := g.newOp
  let s1 := if some'.isEmpty then some s
    else if r.kind = 1 ∧ r.sp < 2 then s.storeLanes i.key r.n some'
    else
      let x : Op := { r.op i g s.cycle some' with code := 1 }
      some ((s.putGang i.key { g with nextOp := o + 1, ops := g.ops ++ [(o, x)] }).serveOp i.key o)
  match s1 with
  | none => s.taskOv i
  | some s =>
    match s.gang i.key with
    | none => s
    | some g =>
      let done := g.replayed i ||| free
      let subs := bads.map (·.2)
      let g := { g with replay := g.replay.filter (fun x => x.frag != i.frag)
                          ++ (if r.kind ≠ 0 ∧ subs.all replayable then [⟨i.pc, i.frag, done⟩] else []) }
      (s.putGang i.key g).trap i (causeBits subs)
        (some (mkRec i.pc i.frag (if r.kind = 0 then 0 else done) r.uni false false
          (if r.one then r.act else maskOfList (bads.map (fun b => b.1.lane))) (r.entries bads)))

/-! ### Refusals inside a task (R352, R325) -/

/-- The cause a request meets inside a versioned task, with its subcode when it has one. -/
def Gang.taskRefuses (g : Gang) (r : MemReq) : Option Nat :=
  if !g.task then none
  else if r.rel = 5 ∨ (r.kind ≠ 0 ∧ r.acq = 5) then some cRECF
  else if r.kind = 2 ∧ r.sp < 2 then some cILLEGAL
  else if 2 ≤ r.rel then some cILLEGAL
  else none

/-- Distinct lines the operations of a core await, of its 768 request entries (R138). -/
def State.requests (s : State) (core : Nat) : Nat :=
  s.gangs.foldl (fun a kg => if coreOf kg.1 = core then kg.2.ops.foldl (fun a ko => a + ko.2.need.length) a else a) 0

/-- An operation of the gang on memory that an ordering instruction must wait for (R325, R330): `all` includes stores. -/
def Gang.memOwed (g : Gang) (all : Bool) : Bool :=
  g.ops.any (fun ko => ko.2.cls == 0 || (all && ko.2.cls == 1))

/-- Accesses before a fusion that the fragment's path has passed are still to be performed (R160). -/
def Gang.fuseOwed (g : Gang) : Bool :=
  g.ops.any (fun ko => decide (ko.1 < g.fused) && decide (ko.2.cls < 2) && ko.2.accs.any Acc.pending)

/-- An access still pending to one of the lines forbids a request: only two plain loads may pass each other, so that each
location is read and written in program order (R159, R160, R167). -/
def Gang.lineOwed (g : Gang) (load : Bool) (ls : List LineId) : Bool :=
  g.ops.any (fun ko => !(load && ko.2.cls == 0 && ko.2.atom == 16) && decide (ko.2.cls < 2)
    && ko.2.accs.any (fun a => a.pending && ls.any (fun l => l.obj == a.line.obj && l.name == a.line.name)))

/-! ### Issue -/

/-- A request whose checks have passed: its counter rises, it is performed or begun, and the fragment goes on unless an
ordering holds it. -/
def State.beginMem (s : State) (i : Issue) (g : Gang) (r : MemReq) (accs : List Acc) : State :=
  let o := g.newOp
  let x := r.op i g s.cycle accs
  let cls := x.cls
  -- inside a task a store with GANG release is a write of the version like any other (R175, R352)
  let plain := r.kind = 1 ∧ (r.rel = 0 ∨ (g.task ∧ r.sp < 2))
  let g1 := { g.bump cls with nextOp := o + 1, ops := g.ops ++ [(o, if plain then { x with done := decide (r.sp < 2) } else x)] }
  if plain ∧ r.sp < 2 then
    match (s.putGang i.key g1).storeLanes i.key r.n accs with
    | none => s.taskOv i
    | some s => match s.gang i.key with
      | none => s
      | some g => (s.finish i g).presentCls i.key 1 256
  else
    let s := s.finish i g1
    if plain then
      let s := s.serveOp i.key o
      s.presentCls i.key 1 256
    else
      let blocks := r.acq ≠ 0 ∨ r.rel ≠ 0
      let s := if blocks then (match s.gang i.key with
        | some g => (match g.frags.get i.frag with
          | some f => s.putGang i.key { g with frags := g.frags.set i.frag { f with wait := .blocked o } }
          | none => s)
        | none => s) else s
      s.beginOp i.key o

/-- The step of a memory request (R322): task refusals, full counter or request table, then every lane's checks, then its
effect. -/
def State.memIssue (s : State) (i : Issue) (g : Gang) (f : Frag) (r : MemReq) : State :=
  match g.taskRefuses r with
  | some c => s.trap i (2 ^ c) (if c = cRECF then
      some (mkRec i.pc i.frag 0 r.uni false false r.act (r.entries (r.tgts.map (fun t => (t, subTASK))))) else none)
  | none =>
    let cs := s.checkAll i g f r
    if !(walksOf cs).isEmpty then s.walkFor i g r.xkind (walksOf cs)
    else if cs.any (fun c => c.2 == .wait) then s.hold i g .room
    else if !(badsOf cs).isEmpty then s.faultMem i g r cs
    else if g.fuseOwed ∨ (r.sp < 2 ∧ g.lineOwed (r.kind = 0 ∧ r.acq = 0) ((accsOf cs).map (·.line)))
        ∨ g.count (if r.kind = 1 then 1 else 0) = 255 ∨ (r.rel ≠ 0 ∧ r.rel < 4 ∧ g.memOwed true)
        ∨ (r.sp < 2 ∧ 768 < s.requests (coreOf i.key) + ((accsOf cs).map (·.line)).dedup.length) then s.hold i g .room
    else s.beginMem i g r (accsOf cs)

/-! ### Vector and scalar forms -/

/-- Scope + 1 of an ordering field that carries acquire (1 or 3) or release (2 or 3) effect. -/
def acqOf (ord scope : Nat) : Nat := if ord = 1 ∨ ord = 3 then scope + 1 else 0
def relOf (ord scope : Nat) : Nat := if ord = 2 ∨ ord = 3 then scope + 1 else 0

/-- The address of a lane (R14). -/
def memAddr (x : MemOp) (g : Gang) (f : Frag) (l : Nat) : Nat × Option Nat :=
  let es := widthBytes x.w
  match x.mode with
  | 0 => formAddr x.sp (g.vp (f.vr x.a) l) (sextN 32 (g.u (f.ur x.b)))
  | 1 => formAddr x.sp (g.up (f.ur x.a)) (sextN 32 (g.v (f.vr x.b) l) * es)
  | 2 => formAddr x.sp (g.up (f.ur x.a)) (sextN 32 (g.u (f.ur x.b)))
  | _ => formAddr x.sp (g.up (f.ur x.a)) (sextN 32 (g.v (f.vr x.b) l))

/-- Registers of the address (R14, R322) and, with `data`, of the data of a vector form; a dead or inactive lane reads
nothing. -/
def vmemPlan (data : Bool) (x : MemOp) (g : Gang) (f : Frag) : Plan :=
  let dd := regsOf (widthBytes x.w) (f.vr x.d)
  let va := if x.mode = 0 then [f.vr x.a, f.vr x.a + 1] else if x.mode = 1 ∨ x.mode = 3 then [f.vr x.b] else []
  let ua := if x.mode = 0 then [f.ur x.b] else if x.mode = 2 then [f.ur x.a, f.ur x.a + 1, f.ur x.b] else [f.ur x.a, f.ur x.a + 1]
  { useV := va ++ dd, useU := ua, rdV := va ++ (if data then dd else []), rdU := ua, rdM := modxMasks x.m, rdLanes := g.act f x.m }

/-- The targets of a vector form (R322, R324): one per lane, or one for a mode-10 access outside .P, which takes the highest
lane's data. -/
def memTgts (x : MemOp) (g : Gang) (f : Frag) (act : Nat) : List Tgt :=
  let d := f.vr x.d
  let n := widthBytes x.w
  let ls := laneList act
  if x.mode = 2 ∧ x.sp ≠ 3 then
    (match ls.getLast? with | some l => [⟨0, memAddr x g f 0, g.vBytes n d l, 0⟩] | none => [])
  else ls.map (fun l => ⟨l, memAddr x g f l, g.vBytes n d l, 0⟩)

/-- The request of VLD and VST (R322 to R325). -/
def vmemReq (what : Instr) (kind : Nat) (x : MemOp) (g : Gang) (f : Frag) : MemReq :=
  ⟨what, kind, x.sp, widthBytes x.w, x.w, false, x.mode == 2 && x.sp != 3, x.mode == 2, g.act f x.m, g.zeroed f x.m,
    f.vr x.d, 16, acqOf x.m.ord x.m.scope, relOf x.m.ord x.m.scope, memTgts x g f (g.act f x.m)⟩

/-- VLD and VST: the lanes whose registers are uncorrectable die and take no part. -/
def vmem (what : Instr) (kind : Nat) (x : MemOp) (s : State) : Out :=
  withPlan s (vmemPlan (kind == 1) x) fun i g f bad =>
    s.memIssue i g f (vmemReq what kind x { g with dl := g.dl ||| bad } f)

def execVld (x : MemOp) (s : State) : Out := vmem (.vld x) 0 x s
def execVst (x : MemOp) (s : State) : Out := vmem (.vst x) 1 x s

/-- SLD, SST, SLDA, SSTR (R320, R322): one access in mode 10 with a uniform register. -/
def smemPlan (data : Bool) (x : MemOp) (_ : Gang) (f : Frag) : Plan :=
  let dd := regsOf (widthBytes x.w) (f.ur x.d)
  let ua := [f.ur x.a, f.ur x.a + 1, f.ur x.b]
  { useU := ua ++ dd, rdU := ua ++ (if data then dd else []), scalar := true }

def smemReq (what : Instr) (kind ord : Nat) (x : MemOp) (g : Gang) (f : Frag) : MemReq :=
  ⟨what, kind, x.sp, widthBytes x.w, x.w, true, true, true, g.active f, 0, f.ur x.d, 16,
    if x.sp = 6 then 0 else acqOf ord x.m.scope, relOf ord x.m.scope,
    [⟨0, memAddr x g f 0, g.uBytes (widthBytes x.w) (f.ur x.d), 0⟩]⟩

def smem (what : Instr) (kind ord : Nat) (x : MemOp) (s : State) : Out :=
  withPlan s (smemPlan (kind == 1) x) fun i g f _ => s.memIssue i g f (smemReq what kind ord x g f)

def execSld (x : MemOp) (s : State) : Out := smem (.sld x) 0 x.m.ord x s
def execSst (x : MemOp) (s : State) : Out := smem (.sst x) 1 x.m.ord x s
def execSlda (x : MemOp) (s : State) : Out := smem (.slda x) 0 1 x s
def execSstr (x : MemOp) (s : State) : Out := smem (.sstr x) 1 2 x s

/-! ### Atomics -/

/-- Registers of an atomic (R327): the compare value is OP4 or d. -/
def vatomPlan (cas : Bool) (x : AtomOp) (g : Gang) (f : Frag) : Plan :=
  let n := if x.w64 then 8 else 4
  let cc := if cas then regsOf n (f.vr (op4Slot x.m x.d)) else []
  let rd := [f.vr x.a, f.vr x.a + 1] ++ regsOf n (f.vr x.b) ++ cc
  { useV := rd ++ regsOf n (f.vr x.d), rdV := rd, rdM := modxMasks x.m, rdLanes := g.act f x.m }

/-- The request of VATM and VCAS (R327, R328). -/
def vatomReq (what : Instr) (op : Nat) (x : AtomOp) (g : Gang) (f : Frag) : MemReq :=
  let n := if x.w64 then 8 else 4
  let act := g.act f x.m
  ⟨what, 2, x.sp, n, 2, false, false, false, act, g.zeroed f x.m, f.vr x.d, op, acqOf x.m.ord x.m.scope, relOf x.m.ord x.m.scope,
    (laneList act).map (fun l => ⟨l, formAddr x.sp (g.vp (f.vr x.a) l) 0, g.vBytes n (f.vr x.b) l,
      if op = 15 then g.vBytes n (f.vr (op4Slot x.m x.d)) l else 0⟩)⟩

def vatom (what : Instr) (op : Nat) (x : AtomOp) (s : State) : Out :=
  withPlan s (vatomPlan (op == 15) x) fun i g f bad =>
    s.memIssue i g f (vatomReq what op x { g with dl := g.dl ||| bad } f)

def execVatmSwap (x : AtomOp) (s : State) : Out := vatom (.vatmSwap x) 0 x s
def execVatmAdd (x : AtomOp) (s : State) : Out := vatom (.vatmAdd x) 1 x s
def execVatmAnd (x : AtomOp) (s : State) : Out := vatom (.vatmAnd x) 2 x s
def execVatmOr (x : AtomOp) (s : State) : Out := vatom (.vatmOr x) 3 x s
def execVatmXor (x : AtomOp) (s : State) : Out := vatom (.vatmXor x) 4 x s
def execVatmMins (x : AtomOp) (s : State) : Out := vatom (.vatmMins x) 5 x s
def execVatmMaxs (x : AtomOp) (s : State) : Out := vatom (.vatmMaxs x) 6 x s
def execVatmMinn (x : AtomOp) (s : State) : Out := vatom (.vatmMinn x) 7 x s
def execVatmMaxn (x : AtomOp) (s : State) : Out := vatom (.vatmMaxn x) 8 x s
def execVatmFadd (x : AtomOp) (s : State) : Out := vatom (.vatmFadd x) 9 x s
def execVcas (x : AtomOp) (s : State) : Out := vatom (.vcas x) 15 x s

def satomPlan (cas : Bool) (x : AtomOp) (_ : Gang) (f : Frag) : Plan :=
  let n := if x.w64 then 8 else 4
  let cc := if cas then regsOf n (f.ur (op4Slot x.m x.d)) else []
  let rd := [f.ur x.a, f.ur x.a + 1] ++ regsOf n (f.ur x.b) ++ cc
  { useU := rd ++ regsOf n (f.ur x.d), rdU := rd, scalar := true }

/-- The request of SATM and SCAS (R327, R328). -/
def satomReq (what : Instr) (op : Nat) (x : AtomOp) (g : Gang) (f : Frag) : MemReq :=
  let n := if x.w64 then 8 else 4
  ⟨what, 2, x.sp, n, 2, true, true, true, g.active f, 0, f.ur x.d, op, acqOf x.m.ord x.m.scope, relOf x.m.ord x.m.scope,
    [⟨0, formAddr x.sp (g.up (f.ur x.a)) 0, g.uBytes n (f.ur x.b),
      if op = 15 then g.uBytes n (f.ur (op4Slot x.m x.d)) else 0⟩]⟩

def satom (what : Instr) (op : Nat) (x : AtomOp) (s : State) : Out :=
  withPlan s (satomPlan (op == 15) x) fun i g f _ => s.memIssue i g f (satomReq what op x g f)

def execSatmSwap (x : AtomOp) (s : State) : Out := satom (.satmSwap x) 0 x s
def execSatmAdd (x : AtomOp) (s : State) : Out := satom (.satmAdd x) 1 x s
def execSatmAnd (x : AtomOp) (s : State) : Out := satom (.satmAnd x) 2 x s
def execSatmOr (x : AtomOp) (s : State) : Out := satom (.satmOr x) 3 x s
def execSatmXor (x : AtomOp) (s : State) : Out := satom (.satmXor x) 4 x s
def execSatmMins (x : AtomOp) (s : State) : Out := satom (.satmMins x) 5 x s
def execSatmMaxs (x : AtomOp) (s : State) : Out := satom (.satmMaxs x) 6 x s
def execSatmMinn (x : AtomOp) (s : State) : Out := satom (.satmMinn x) 7 x s
def execSatmMaxn (x : AtomOp) (s : State) : Out := satom (.satmMaxn x) 8 x s
def execSatmFadd (x : AtomOp) (s : State) : Out := satom (.satmFadd x) 9 x s
def execScas (x : AtomOp) (s : State) : Out := satom (.scas x) 15 x s

/-! ### Prefetch (R326) -/

/-- A prefetch into the L1 whose line the slice must obtain first: it waits for the line as a load of class 7 does, which
writes no register and raises nothing. -/
def State.prefetchL1 (s : State) (i : Issue) (what : Instr) (sp : Nat) (l : LineId) : State :=
  match s.gang i.key with
  | none => s
  | some g =>
    let o := g.newOp
    let x : Op := { Op.blank what i.frag i.pc 7 s.cycle g.hm with
      sp := sp, n := 1, uniform := true, code := 1, accs := [⟨0, 0, l, 0, 0, 0, none, false, 0⟩] }
    (s.putGang i.key { g with nextOp := o + 1, ops := g.ops ++ [(o, x)] }).serveOp i.key o

/-- Prefetches one address (R326): nothing for an address that would fault; a line of this device into the slice and, at level
0, the L1; a remote object's line by a request of its own. -/
def State.prefetch1 (s : State) (i : Issue) (g : Gang) (what : Instr) (level sp n : Nat) (fa : Nat × Option Nat) : State :=
  let core := coreOf i.key
  let die := dieOf core
  let go (s : State) (l0 l : LineId) : State :=
    if level = 0 then s.prefetchL1 i what sp l0
    else if s.slSt die l == .i || s.slSt die l == .wb then s.askS die l else s
  match fa.2 with
  | some _ => s
  | none =>
    let a := fa.1
    if a % n ≠ 0 then s
    else if sp = 0 then
      let ident := a / 2 ^ 36
      let off := a % 2 ^ 36
      let l0 := s.objLineOf ident off
      let (s, here) := s.lookHere ident
      if here then (if (s.ownerChk ident off).isNone then go s l0 l0 else s)
      else if s.objPhase ident = some 2 ∨ s.objPhase ident = some 3 then s
      else match s.remoteCopy die l0 with
        | some y =>
          if s.fab.epochWait then s else
          let (s, y, room) := s.shareRemote die y
          if room && level = 0 then s.l1Fill core y.line y.data y.poison else s
        | none => s.newReq ident off .prefetch (.prefetch core level)
    else if 2 ^ 57 ≤ a then s
    else
      let (s, t) := match s.tlbFind core (s.space g).1 a 0 with
        | some t => (s, Except.ok t)
        | none => s.dieTranslate die (s.space g).1 (s.space g).2 a 0
      match t with
      | .error _ => s
      | .ok t => (match s.physChk t a 0 with | .ok l _ => go s l l | _ => s)

/-- VPRF: d is the level; its address registers as those of a load. -/
def vprfPlan (x : MemOp) (g : Gang) (f : Frag) : Plan :=
  let p := vmemPlan false x g f
  { p with useV := p.rdV }

def execVprf (x : MemOp) (s : State) : Out :=
  withPlan s (vprfPlan x) fun i g f bad =>
    let act := ({ g with dl := g.dl ||| bad }).act f x.m
    let s' := (memTgts x g f act).foldl (fun (s : State) t => s.prefetch1 i g (.vprf x) x.d x.sp (widthBytes x.w) t.fa) s
    s'.finish i ((s'.gang i.key).getD g)

/-! ### Events -/

/-- LOAD_RETURN (R322, R331): completions of the class are presented in issue order. -/
def execLoadReturn (s : State) : Out :=
  match s.msg with
  | some (.loadReturn k o) =>
    match s.op k o with
    | none => .next s
    | some x =>
      if x.code = 1 then .next (s.presentMem k o x)
      else .next (s.presentCls k x.cls 256)
  | _ => .fault .noMessage

/-- PAGE_WALK_DONE (R36 to R40): the walk's translation enters the core's TLB, or its failure is kept for the fragment; the
fragment issues again. -/
def execPageWalkDone (s : State) : Out :=
  match s.msg with
  | some (.pageWalkDone r) =>
    .next (whenQuiet s (.pageWalkDone r) fun s =>
      let (s, t) := s.dieTranslate (dieOf r.core) r.asid r.root r.va r.kind
      let c := s.core r.core
      let s := match t with | .ok t => s.putCore r.core { c with tlb := tlbPut 256 8 c.tlb t } | .error _ => s
      match s.gang r.g with
      | none => s
      | some g =>
        match g.frags.get r.frag with
        | none => s
        | some f =>
          let f := match f.wait with | .walk _ => { f with wait := .ready } | _ => f
          let f := match t with
            | .error e => { f with walkFails := f.walkFails ++ [⟨r.va / 4096, r.kind, e⟩] }
            | .ok _ => f
          s.putGang r.g { g with frags := g.frags.set r.frag f })
  | _ => .fault .noMessage

end Sys2Proof.Machine
end

