-- ==== Sys2Proof/Machine/Sync.lean ====
section
/-! DEFINITION. Fences, counters, sync words, barriers and groups (R329 to R339), and the events that end their waits:
RELEASE_ACKS_DONE, SYNC_WORD_COUNT, SYNCTO. -/

namespace Sys2Proof.Machine

/-- No registers. -/
def noPlan (_ : Gang) (_ : Frag) : Plan := {}
/-- Reads of uniform slots, and a destination. -/
def uPlan (rd wr : List Nat) (_ : Gang) (f : Frag) : Plan :=
  { useU := (rd ++ wr).map f.ur, rdU := rd.map f.ur, scalar := true }

/-- The wait of the issuing fragment replaced. -/
def State.park (s : State) (i : Issue) (w : Wait) : State :=
  match s.gang i.key with
  | none => s
  | some g =>
    match g.frags.get i.frag with
    | none => s
    | some f => s.putGang i.key { g with frags := g.frags.set i.frag { f with wait := w, since := s.cycle } }

/-- A blocking operation of a fragment past its bundle: a drain it waits for (R122). -/
def State.blockOp (s : State) (i : Issue) (g : Gang) (x : Op) : State × Nat :=
  let o := g.newOp
  let s := s.finish i { g with nextOp := o + 1, ops := g.ops ++ [(o, x)] }
  (s.park i (.blocked o), o)

/-- The acquire action of a scope for the gang's core (R120). -/
def State.acquire (s : State) (key : Nat) (g : Gang) (scope : Nat) : State :=
  if s.scopeActs g scope then s.selfInvalidate (coreOf key) else s

/-! ### FENCE (R329, R330) -/

/-- FENCE.  Inside a task one at REC is refused with RECF whatever its ORD (R330), one with release effect at another scope with
ILLEGAL; one that only acquires there is performed (R352; DEDUCED, log entry 23). -/
def execFence (x : FenceOp) (s : State) : Out :=
  withPlan s noPlan fun i g _ _ =>
    let rel := x.ord = 2 ∨ x.ord = 3
    let acq := (x.ord = 1 ∨ x.ord = 3) ∧ (x.spc = 0 ∨ x.spc % 4 ≠ 0)
    if x.ord = 0 then s.trap i (2 ^ cILLEGAL) none
    else if g.task ∧ (x.scope = 4 ∨ (rel ∧ x.scope ≠ 0)) then
      (if x.scope = 4 then s.trap i (2 ^ cRECF) (some (mkRec i.pc i.frag 0 true false false (g.active (g.frags.get i.frag |>.getD
        ⟨0, 0, 0, .ready, 0, 0, 0, 0, [], none, none⟩)) [(0, 0, subTASK, 1, 0)])) else s.trap i (2 ^ cILLEGAL) none)
    else if g.memOwed rel then s.hold i g .room
    else if rel ∧ s.scopeActs g x.scope then
      let y := { Op.blank (.fence x) i.frag i.pc 6 s.cycle g.hm with rel := x.scope + 1, acq := if acq then x.scope + 1 else 0, phase := 1 }
      let r := s.blockOp i g y
      r.1.startDrain (coreOf i.key) [(i.key, r.2)]
    else
      let s := if acq then s.acquire i.key g x.scope else s
      s.finish i g

/-! ### WAITC (R332, R170) -/

/-- The time of a wait that the launch's synchronisation timeout bounds begins, unless it is running: the waits of one BARS are
one (R339). -/
def State.timeWait (s : State) (k fr : Nat) : State :=
  match s.gang k with
  | none => s
  | some g =>
    match g.frags.get fr with
    | none => s
    | some f =>
      if f.timed.isSome then s
      else
        let s' := s.putGang k { g with frags := g.frags.set fr { f with timed := some s.cycle } }
        match s.launch g.launch with
        | some l => if l.sto = 0 then s' else s'.after (2 ^ l.sto) (.syncto k fr s.cycle)
        | none => s'
/-- Cycles since the time of a fragment's wait began. -/
def Frag.waited (f : Frag) (cyc : Nat) : Nat := match f.timed with | some t => cyc - t | none => 0

/-- A WAITC waits on a held command (R368): of a class whose threshold is not met, one of those that must complete first has not
been released; completions are presented in issue order (R331). -/
def Gang.waitsHeld (g : Gang) (x : WaitcOp) : Bool :=
  ([(2, x.cp), (3, x.tl), (4, x.att), (5, x.ss)] : List (Nat × Nat)).any (fun ct =>
    ct.2 != 15 && ((g.ops.filter (fun ko => ko.2.cls == ct.1)).take (g.count ct.1 - ct.2)).any (fun ko => ko.2.held))

/-- Every class with a threshold below 15 has a counter of at most it. -/
def Gang.waitcOk (g : Gang) (x : WaitcOp) : Bool :=
  ([(0, x.ld), (1, x.st), (2, x.cp), (3, x.tl), (4, x.att), (5, x.ss)] : List (Nat × Nat)).all (fun ct => ct.2 == 15 || decide (g.count ct.1 ≤ ct.2))

def execWaitc (x : WaitcOp) (s : State) : Out :=
  withPlan s noPlan fun i g f _ =>
    if g.waitcOk x then
      let s := if x.cp < 15 ∨ x.tl < 15 ∨ x.att < 15 ∨ x.ss < 15 then s.selfInvalidate (coreOf i.key) else s
      (s.finish i g).sample i.key 9 (f.waited s.cycle)
    else (s.hold i g (.waitc x)).timeWait i.key i.frag

/-! ### Sync words (R333 to R335) -/

/-- A sync word's address checked (R335): its core and byte, or the subcode. -/
def State.swPlace (s : State) (g : Gang) (core a : Nat) : Except Nat (Nat × Nat) :=
  if a % 16 ≠ 0 then .error subALIGN else s.hPlace g core a

/-- A sync-word instruction: its address checked, the accesses that a fusion orders before it awaited (R160), then its effect on
the word. -/
def swStep (s : State) (a : Nat) (kind : Nat) (plan : Gang → Frag → Plan) (k : State → Issue → Gang → Frag → Nat → Nat → State) : Out :=
  withPlan s plan fun i g f _ =>
    let ad := g.u (f.ur a)
    match s.swPlace g (coreOf i.key) ad with
    | .error e => s.trap i (2 ^ causeOfSub e) (some (mkRec i.pc i.frag 0 true false false (g.active f) [(ad, 0, e, kind, 2)]))
    | .ok (c, o) =>
      if s.clearing c o || g.fuseOwed then s.hold i g .room
      else if kind ≠ 1 ∧ (s.onRead c 0 o 16).2 then s.killGang i.key rUREG i.pc
      else k s i g f c o

def execSwini (a b : Nat) (s : State) : Out :=
  swStep s a 1 (uPlan [a, b] []) fun s i g f c o =>
    (s.swWrite c o (g.u (f.ur b), g.u (f.ur b), 0, 0)).finish i g

def execSwexp (a b c : Nat) (s : State) : Out :=
  swStep s a 2 (uPlan [a, b] [c]) fun s i g f core o =>
    match s.swRead core o with
    | (r, t, n, gen) =>
      let t' := t + g.u (f.ur b)
      if 2 ^ 32 ≤ t' then s.trap i (2 ^ cBOUNDS) (some (mkRec i.pc i.frag 0 true false false (g.active f)
        [(g.u (f.ur a), 0, subSPACE, 2, 2)]))
      else ((s.swWrite core o (swSettle (r, t', n, gen))).selfInvalidate (coreOf i.key)).finish i (g.setU (f.ur c) gen)

def execSwwt (a b : Nat) (s : State) : Out :=
  swStep s a 0 (uPlan [a, b] []) fun s i g f c o =>
    let gen := (s.swRead c o).2.2.2
    if gen ≠ g.u (f.ur b) then (s.selfInvalidate (coreOf i.key)).finish i g
    else (s.hold i g (.sync c o gen)).timeWait i.key i.frag

/-! ### Barriers and groups (R336 to R338, R222 to R224) -/

/-- Group k of the gang's launch, if the gang is a member (R223). -/
def State.groupOf (s : State) (g : Gang) (k : Nat) : Option Group :=
  match s.launch g.launch with
  | none => none
  | some l => match l.groups.drop k with
    | x :: _ => if x.members.contains g.g then some x else none
    | [] => none

def Group.scope (x : Group) : Nat := if x.blk then 1 else 2

/-- Slices of a gang that have arrived at the current phase. -/
def Group.arrivedMask (x : Group) (gi : Nat) : Nat := ((x.arrived.find? (fun a => a.1 == gi)).map (·.2)).getD 0

/-- Slices arrive at the current phase of group k (R224). -/
def State.arriveAt (s : State) (lk gi k m : Nat) : State :=
  match s.launch lk with
  | none => s
  | some l =>
    let gs := l.groups.mapIdx (fun j x => if j = k then
      { x with arrived := x.arrived.filter (fun a => a.1 != gi) ++ [(gi, x.arrivedMask gi ||| m)] } else x)
    (s.putLaunch lk { l with groups := gs }).groupStep lk

/-- The phase a wait names has completed (R337). -/
def phasePassed (c p : Nat) : Bool := decide (1 ≤ (c + 2 ^ 32 - p) % 2 ^ 32 ∧ (c + 2 ^ 32 - p) % 2 ^ 32 ≤ 2 ^ 31)

/-- The fragment's live unfinished slices. -/
def Gang.fragSlices (g : Gang) (f : Frag) : Nat := f.slices &&& g.aliveSlices

/-- BARA (R337).  The fragment waits while all its slices have arrived; when only some have, as after a split and a fusion,
its arrival counts at once and theirs are merged into it (DESIGN CHOICE, log entry 68). -/
def execBara (a k : Nat) (s : State) : Out :=
  withPlan s (uPlan [] [a]) fun i g f _ =>
    match s.groupOf g k with
    | none => s.trap i (2 ^ cILLEGAL) none
    | some x =>
      let m := g.fragSlices f
      if andNot m (x.arrivedMask g.g) = 0 then s.hold i g (.arrive k x.phase)
      else if g.memOwed true then s.hold i g .room
      else
        let g1 := g.setU (f.ur a) x.phase
        if s.scopeActs g x.scope then
            let y := { Op.blank (.bara a k) i.frag i.pc 6 s.cycle g.hm with rel := x.scope + 1, phase := 1, act := m }
            let r := s.blockOp i g1 y
            r.1.startDrain (coreOf i.key) [(i.key, r.2)]
        else (s.finish i g1).arriveAt g.launch g.g k m

/-- A wait at a phase: an uncorrectable phase word kills the gang (R451); else it is passed with the acquire action, or held under
the synchronisation timeout. -/
def State.barWait (s : State) (i : Issue) (g : Gang) (f : Frag) (x : Group) (k p : Nat) : State :=
  if x.bad then s.killGang i.key rUREG i.pc
  else if phasePassed x.phase p then ((s.acquire i.key g x.scope).finish i g).sample i.key 10 (f.waited s.cycle)
  else (s.hold i g (.bar k p)).timeWait i.key i.frag

def execBarw (a k : Nat) (s : State) : Out :=
  withPlan s (uPlan [a] []) fun i g f _ =>
    match s.groupOf g k with
    | none => s.trap i (2 ^ cILLEGAL) none
    | some x => s.barWait i g f x k (g.u (f.ur a))

/-- The phase at which this very BARS has arrived already (R339): a trap may have left it unperformed. -/
def Frag.barsAt (f : Frag) (k pc : Nat) : Option Nat :=
  match f.bars with | some (k', p, pc') => if k' = k ∧ pc' = pc then some p else none | none => none

/-- BARS (R337, R339): everything that its fragment waits for at it counts as one wait. -/
def execBars (k : Nat) (s : State) : Out :=
  withPlan s noPlan fun i g f _ =>
    match s.groupOf g k with
    | none => s.trap i (2 ^ cILLEGAL) none
    | some x =>
      match f.barsAt k i.pc with
      | some p => s.barWait i g f x k p
      | none =>
        let m := g.fragSlices f
        if andNot m (x.arrivedMask g.g) = 0 then (s.hold i g (.arrive k x.phase)).timeWait i.key i.frag
        else if g.memOwed true then (s.hold i g .room).timeWait i.key i.frag
        else
          let g1 := { g with frags := g.frags.set i.frag { f with bars := some (k, x.phase, i.pc) } }
          if s.scopeActs g x.scope then
              let o := g.newOp
              let y := { Op.blank (.bars k) i.frag i.pc 6 s.cycle g.hm with rel := x.scope + 1, phase := 1, act := m, pcnt := x.phase }
              let g2 := { g1 with nextOp := o + 1, ops := g.ops ++ [(o, y)] }
              ((s.hold i g2 (.blocked o)).timeWait i.key i.frag).startDrain (coreOf i.key) [(i.key, o)]
          else ((s.hold i g1 (.bar k x.phase)).timeWait i.key i.frag).arriveAt g.launch g.g k m

/-- GRPQ's pair (R338): the phase, and the group's state word. -/
def State.groupWord (s : State) (lk : Nat) (x : Group) : Nat :=
  (if x.degraded then 2 ^ 31 else 0) + (if x.blk then 2 ^ 30 else 0)
    + (x.members.filter (fun gi => s.arrived lk x gi)).length % 2 ^ 16

def execGrpq (a k : Nat) (s : State) : Out :=
  withPlan s (uPlan [] [a, a + 1]) fun i g f _ =>
    match s.groupOf g k with
    | none => s.trap i (2 ^ cILLEGAL) none
    | some x => s.finish i ((g.setU (f.ur a) x.phase).setU (f.ur a + 1) (s.groupWord g.launch x))

/-! ### Events -/

/-- A release that waited for lost writes (R176): GSTAT.PEERLOST and the cause, at the fragment that issued it. -/
def State.lostRelease (s : State) (k : Nat) (x : Op) : State :=
  match s.gang k with
  | none => s
  | some g => ((s.putGang k { g with peerlost := true }).raiseLate k x (2 ^ cPEERLOST)
      (some (peerRec x.pc x.frag 0 false false 0 s.peerSub []))).drawn

/-- Ends a blocking operation: its fragment issues again. -/
def State.endOp (s : State) (k o : Nat) : State :=
  match s.gang k with
  | none => s
  | some g =>
    let s := s.putGang k (Gang.unblock { g with ops := g.ops.erase o } o)
    if g.retired then s.checkBlock g.blk else s

/-- What follows a completed release action, by the instruction that asked for it (R325, R330, R337, R353). -/
def State.releaseGo (s : State) (k o : Nat) (g : Gang) (x : Op) : State :=
  let lost := bit x.flags 4
  match x.what with
  | .fence _ =>
    let s := if x.acq ≠ 0 then s.acquire k g (x.acq - 1) else s
    (if lost then s.lostRelease k x else s).endOp k o
  | .bara _ kk => ((if lost then s.lostRelease k x else s).endOp k o).arriveAt g.launch g.g kk x.act
  | .bars kk =>
    let s := (if lost then s.lostRelease k x else s).endOp k o
    let s := match s.gang k with
      | none => s
      | some g => (match g.frags.get x.frag with
        | some f => if f.bars = some (kk, x.pcnt, x.pc) then
            (s.putGang k { g with frags := g.frags.set x.frag { f with wait := .bar kk x.pcnt, since := s.cycle } }).timeWait k x.frag
            else s
        | none => s)
    s.arriveAt g.launch g.g kk x.act
  | .tend =>
    if x.phase = 1 then
      (s.putOp k o { x with phase := 2 }).drainLines (coreOf k) (g.spec.map (fun y => (y.line, y.data, y.mask))) [(k, o)]
    else (if lost then s.lostRelease k x else s).push (.tendDone k o)
  | _ =>
    if x.cls = 6 then ((if lost then s.lostRelease k x else s).putOp k o { x with phase := 2 }).push (.blockingAnswer k o)
    else if 2 ≤ x.cls ∧ x.cls ≤ 5 then
      (if lost then s.lostRelease k x else s).putOp k o { x with phase := 2, flags := x.flags % 16 } |>.push (x.goMsg k o)
    else if lost then
      (s.putOp k o { x with phase := 2, done := true, accs := x.accs.map (fun a => { a with err := 257 }) }).push (.loadReturn k o)
    else (s.putOp k o { x with phase := 2 }).serveOp k o

/-- An access of the gang issued before an operation is still outstanding. -/
def Gang.owedBefore (g : Gang) (o : Nat) : Bool := g.ops.any (fun ko => decide (ko.1 < o) && decide (ko.2.cls < 2))

/-- RELEASE_ACKS_DONE (R144, R177, R190): with the drain over, a POD or REC release waits for the gang's earlier remote writes
and atomics; a REC release then waits for durability; the release goes on. -/
def execReleaseAcksDone (s : State) : Out :=
  match s.msg with
  | some (.releaseAcksDone k o) =>
    match s.gang k, s.op k o with
    | some g, some x =>
      if 4 ≤ x.rel ∧ (s.remoteOwed k o ∨ g.owedBefore o) then .next (s.after 16 (.releaseAcksDone k o))
      else if x.rel = 5 ∧ x.bin = 0 then
        let (region, cursor) := match x.what with | .rcomm _ => (x.desc.getD 0 0, x.desc.getD 1 0 + 2 ^ 32 * x.desc.getD 2 0) | _ => (64, 0)
        .next ((s.putOp k o { x with bin := 1 }).askDurable k o region cursor)
      else .next (s.releaseGo k o g x)
    | _, _ => .next s
  | _ => .fault .noMessage

/-- SYNC_WORD_COUNT (R334): bytes performed are added to COUNT, which saturates, and the generation advances; a copy that
saturates it is marked. -/
def execSyncWordCount (s : State) : Out :=
  match s.msg with
  | some (.syncWordCount core addr bytes k o) =>
    if s.clearing core addr then .next (s.after 16 (.syncWordCount core addr bytes k o)) else
    match s.swRead core addr with
    | (r, t, n, gen) =>
      let n' := min (n + bytes) (2 ^ 32 - 1)
      let s := s.swWrite core addr (swSettle (r, t, n', gen))
      .next (if n + bytes < 2 ^ 32 then s
        else match s.op k o with
          | some x => s.putOp k o { x with flags := x.flags ||| 4 }
          | none => s)
  | _ => .fault .noMessage

/-- A fragment has waited since a cycle where the timeout applies: at BARW, BARS or SWWT (R339), at a WAITC on a held command
(R368), or for a collective (R398). -/
def Frag.timesOut (g : Gang) (since : Nat) (f : Frag) : Bool :=
  f.timed == some since && match f.wait with
    | .waitc x => g.waitsHeld x
    | .bar _ _ | .sync _ _ _ | .arrive _ _ | .room => true
    | .blocked o =>
      (match g.ops.get o with
      | some y => (match y.what with
        | .bars _ | .ored _ | .obar _ => true
        | _ => false)
      | none => false)
    | _ => false

/-- SYNCTO (R339, R368, R398): a wait that began at the named cycle is still going on, of a program fragment also while a handler
runs. -/
def execSyncto (s : State) : Out :=
  match s.msg with
  | some (.syncto k fr since) =>
    match s.gang k with
    | none => .next s
    | some g =>
      let fs := (g.frags.get fr).toList ++ (g.shadow.bind (fun x => x.frags.get fr)).toList
      .next (if fs.any (Frag.timesOut g since) then s.raiseAsync k (2 ^ cSYNCTO) else s)
  | _ => .fault .noMessage

end Sys2Proof.Machine
end

