-- ==== Sys2Proof/Machine/Objects.lean ====
section
/-! DEFINITION. The object space of this device: its tables (R23, R49, R61), the free-extent pools (R26), affinity samples
(R65 to R69), duplicates and answers on the fabric (R141, R142), and the accesses an owner performs for others (R57). -/

namespace Sys2Proof.Machine

/-! ### Tables -/

def State.putEnt (s : State) (base n i v : Nat) : State := s.physWrite 0 (tabBase base + n * i) n v
/-- A free entry for an object, within 32 probes (R23). -/
def State.tabFree (s : State) (base n ident : Nat) : Option Nat :=
  if tabK base < 10 then none else
  (probe (s.entAt base n) (fun e => byteField e 0 8 == 0) (fun _ => false) (tabK base) 32 (homeIndex ident (tabK base))).map (·.1)

/-- Writes an object-table entry. -/
def State.putOte (s : State) (i e : Nat) : State := (s.putEnt s.dcb.otb 256 i e).otcDrop i (oteIdent e)
/-- An entry with another phase and destination (R65). -/
def oteWithPhase (e ph dest : Nat) : Nat := linePut (linePut e 61 1 (byteField e 61 1 / 8 * 8 + ph)) 62 1 dest
def oteWithFlags (e fl : Nat) : Nat := linePut e 16 2 fl
def otePhase (e : Nat) : Nat := byteField e 61 1 % 8
/-- A new entry (R21). -/
def oteNew (ident size fl colid mgen key : Nat) (exts : List (Nat × Nat)) (ph : Nat) : Nat :=
  packBytes ([(0, identPtr ident), (8, size), (16, fl), (18, colid), (20, mgen), (21, exts.length), (22, key), (61, ph)]
    ++ exts.zipIdx.map (fun (x, j) => (64 + 8 * j, x.1 + x.2)))

def regEntry (ident owner mgen st freeat : Nat) : Nat :=
  packBytes [(0, identPtr ident), (8, owner), (9, mgen), (10, st), (12, freeat)]

/-- The live stub of an object (R61): index and contents. -/
def State.stubFind (s : State) (ident : Nat) : Option (Nat × Nat) :=
  if tabK s.dcb.stb < 10 then none else
  match probe (s.entAt s.dcb.stb 32) (fun e => byteField e 0 8 == 0)
      (fun e => byteField e 0 8 == identPtr ident && bit (byteField e 10 1) 0) (tabK s.dcb.stb) 32 (homeIndex ident (tabK s.dcb.stb)) with
  | some (i, true) => some (i, s.entAt s.dcb.stb 32 i)
  | _ => none
/-- A stub entry that can be reserved: the first tombstone or free entry not reserved by another migration (R61, R62). -/
def State.stubFree (s : State) (ident : Nat) : Option Nat :=
  let k := tabK s.dcb.stb
  if k < 10 then none else
  let path := (List.range 32).map (fun j => (homeIndex ident k + j) % 2 ^ k)
  path.find? (fun i =>
    let e := s.entAt s.dcb.stb 32 i
    (byteField e 0 8 == 0 || !bit (byteField e 10 1) 0) && !s.fab.migs.any (fun m => m.2.stub == i))
def stubEntry (ident newdev sgen fl last : Nat) : Nat :=
  packBytes [(0, identPtr ident), (8, newdev), (9, sgen), (10, fl), (16, last % 2 ^ 64)]

/-! ### Free-extent pools (R26) -/

def State.fxEn (s : State) : Bool := bit s.dcb.fxb 0
/-- Address of the directory entry of pool p and class c. -/
def State.fxAddr (s : State) (p c : Nat) : Nat := fld s.dcb.fxb 12 34 * 4096 + 16 * (21 * p + (c - 16))
def State.fxCount (s : State) (p c : Nat) : Nat := (s.physRead 0 (s.fxAddr p c + 8) 8).1
/-- Pushes an extent on its class list. -/
def State.fxPush (s : State) (p c a : Nat) : State :=
  let e := s.fxAddr p c
  let head := (s.physRead 0 e 8).1
  let n := (s.physRead 0 (e + 8) 8).1
  ((s.physWrite 0 a 8 head).physWrite 0 e 8 a).physWrite 0 (e + 8) 8 (n + 1)
/-- Pops the first extent of a class list. -/
def State.fxPop (s : State) (p c : Nat) : Option (State × Nat) :=
  let e := s.fxAddr p c
  let n := (s.physRead 0 (e + 8) 8).1
  if n = 0 then none
  else
    let a := (s.physRead 0 e 8).1
    some ((s.physWrite 0 e 8 (s.physRead 0 a 8).1).physWrite 0 (e + 8) 8 (n - 1), a)
/-- Splits an extent of class c + n down to class c, pushing each upper half. -/
def State.fxSplit (s : State) (p c a : Nat) : Nat → State
  | 0 => s
  | n + 1 => (s.fxPush p (c + n) (a + 2 ^ (c + n))).fxSplit p c a n
/-- An extent of class c: from its own list, else split from the smallest larger one. -/
def State.fxGet (s : State) (p c : Nat) : Option (State × Nat) :=
  match (List.range (37 - c)).find? (fun j => s.fxCount p (c + j) != 0) with
  | none => none
  | some j => match s.fxPop p (c + j) with
    | none => none
    | some (s, a) => some (s.fxSplit p c a j, a)

/-- The class sizes of an allocation of SIZE bytes, largest first. -/
def allocSizes (size : Nat) : List Nat :=
  let u := (size + 65535) / 65536
  let bits := ((List.range 21).filter (fun i => bit u i)).reverse
  if bits.length ≤ 16 then bits.map (· + 16)
  else
    let first := bits.take 15
    let rest := u - first.foldl (fun a i => a + 2 ^ i) 0
    (first ++ [Nat.log2 rest + (if 2 ^ Nat.log2 rest = rest then 0 else 1)]).map (· + 16)

/-- Takes extents of the given classes from a pool. -/
def State.fxTakeAll (s : State) (p : Nat) : List Nat → List (Nat × Nat) → Option (State × List (Nat × Nat))
  | [], got => some (s, got)
  | c :: rest, got => match s.fxGet p c with
    | some (s, a) => s.fxTakeAll p rest (got ++ [(a, c)])
    | none => none
/-- Pushes extents back, unmerged. -/
def State.fxRelease (s : State) (p : Nat) (xs : List (Nat × Nat)) : State := xs.foldl (fun s x => s.fxPush p x.2 x.1) s
/-- What a failed allocation leaves: larger extents it split stay split (R26 steps 3 and 4). -/
def State.fxFail (s : State) (p : Nat) : List Nat → List (Nat × Nat) → State
  | [], got => s.fxRelease p got
  | c :: rest, got => match s.fxGet p c with
    | some (s', a) => s'.fxFail p rest (got ++ [(a, c)])
    | none => s.fxRelease p got

/-- The regions whose pools may be allocated from (R26, R180). -/
def State.openRegions (s : State) : List Nat := (List.range 64).filter (fun n => rrdEn (s.rrd n) && !rrdBusy (s.rrd n))

/-- The first pool of a list from which the whole allocation succeeds. -/
def State.allocFrom (s : State) (sizes : List Nat) : List Nat → State × Option (List (Nat × Nat))
  | [] => (s, none)
  | p :: ps => match s.fxTakeAll p sizes [] with
    | some (s, xs) => (s, some xs)
    | none => (s.fxFail p sizes []).allocFrom sizes ps

/-- An allocation for FLAGS (R26): NOSPACE is 2, NOREGION 7. -/
def State.alloc (s : State) (size tier : Nat) (rc : Bool) : State × Except Nat (List (Nat × Nat)) :=
  if !s.fxEn then (s, .error 2)
  else match s.allocFrom (allocSizes size) (if rc then s.openRegions.map (· + 2) else [tier]) with
    | (s, some xs) => (s, .ok xs)
    | (s, none) => (s, .error (if rc then 7 else 2))

/-- Extents of an entry as (base, class). -/
def oteExtents (e : Nat) : List (Nat × Nat) := (oteExts e).map (fun x => (extBase x, extLsz x))
/-- The pool an entry's extents came from. -/
def State.poolOf (s : State) (e : Nat) : Nat :=
  if oteRec e then (match (oteExts e).head? with
    | some x => ((s.extRegion (extBase x) (2 ^ extLsz x)).getD 0) + 2
    | none => 2)
  else oteTier e
/-- Frees an object-table entry and releases its extents; every memory controller drops its copy (R25, R26). -/
def State.freeOte (s : State) (i e : Nat) : State :=
  let s := if s.fxEn then s.fxRelease (s.poolOf e) (oteExtents e) else s
  s.putOte i 0

/-- Drops every copy of an object's lines here, without write-back, in L1s, slices and switches; no answer under way fills one. -/
def State.dropObject (s : State) (ident : Nat) : State :=
  let mine (l : LineId) : Bool := l.obj && l.ident == ident
  { s with
    cores := s.cores.map (fun (kc : Nat × CoreSt) => (kc.1, { kc.2 with l1 := kc.2.l1.filter (fun x => !mine x.line) }))
    coh := { s.coh with lines := s.coh.lines.filter (fun x => !mine x.line), dir := s.coh.dir.filter (fun e => !mine e.line) }
    fab := { s.fab with
      pod := s.fab.pod.filter (fun p => p.name / 2 ^ 29 != ident)
      reqs := s.fab.reqs.map (fun (r : Nat × ObjWait) => if r.2.req.ident = ident then (r.1, { r.2 with nofill := true }) else r) } }
/-- What the PINV and PIACK of a freed object carry in place of a line's name: every line of the object goes (R395). -/
def freeName (ident : Nat) : Nat := 2 ^ 60 + ident * 2 ^ 29
/-- The object of such a name. -/
def freeIdent (name : Nat) : Option Nat := if name / 2 ^ 60 = 1 then some (name % 2 ^ 60 / 2 ^ 29) else none

/-! ### Affinity samples (R66 to R69) -/

/-- Parties of an entry: (device, total, upper half). -/
def slotList (e : Nat) : List (Nat × Nat × Nat × Bool) :=
  (List.range 4).map (fun j =>
    let v := byteField e (32 + 4 * j) 4
    (fld v 24 8, fld v 0 16, byteField e (52 + 2 * j) 2, bit v 23))
def putSlots (e : Nat) (ls : List (Nat × Nat × Nat × Bool)) : Nat :=
  ls.zipIdx.foldl (fun e (x, j) =>
    linePut (linePut e (32 + 4 * j) 4 (x.1 * 2 ^ 24 + (if x.2.2.2 then 2 ^ 23 else 0) + x.2.1)) (52 + 2 * j) 2 x.2.2.1) e
def satInc (n : Nat) : Nat := min (n + 1) 0xFFFF

/-- One sample of device d (R66, R67). -/
def oteSample (e d epoch : Nat) (upper : Bool) : Nat :=
  let e := if byteField e 60 1 = epoch % 256 then e
    else linePut (linePut (linePut e 32 28 0) 60 1 (epoch % 256)) 61 1 (byteField e 61 1 % 8)
  let up (n : Nat) : Nat := if upper then satInc n else n
  let ls := slotList e
  if ls.any (fun x => x.2.2.2 && x.1 == d) then
    putSlots e (ls.map (fun x => if x.2.2.2 && x.1 == d then (d, satInc x.2.1, up x.2.2.1, true) else x))
  else if ls.any (fun x => !x.2.2.2) then
    let j := ls.findIdx (fun x => !x.2.2.2)
    putSlots e (ls.set j (d, 1, (if upper then 1 else 0), true))
  else putSlots e (ls.map (fun x => let c := x.2.1 - 1; (x.1, c, min x.2.2.1 c, c != 0)))
/-- A sample of the owner itself. -/
def oteOwnSample (e epoch : Nat) (upper : Bool) : Nat :=
  let e := if byteField e 60 1 = epoch % 256 then e
    else linePut (linePut (linePut e 32 28 0) 60 1 (epoch % 256)) 61 1 (byteField e 61 1 % 8)
  let e := linePut e 48 2 (satInc (byteField e 48 2))
  if upper then linePut e 50 2 (satInc (byteField e 50 2)) else e

/-- A record of the migration event ring (R71). -/
def merRecord (kind status dev dev2 epoch e cnt lcnt : Nat) : Nat :=
  packBytes [(0, kind), (1, status), (2, dev), (3, dev2), (4, epoch % 2 ^ 32), (8, byteField e 0 8), (16, cnt), (18, lcnt),
    (20, if oteCol e then oteColid e else 0)]

/-- The proposal of R68, if one holds: device and count. -/
def proposal (e : Nat) : Option (Nat × Nat) :=
  let l := byteField e 48 2
  let q := (slotList e).filter (fun x => x.2.2.2 && decide (1024 ≤ x.2.1 ∧ 4 * l ≤ x.2.1))
  (q.foldl (fun (b : Option (Nat × Nat)) x => match b with
    | none => some (x.1, x.2.1)
    | some (d, c) => if c < x.2.1 ∨ (c = x.2.1 ∧ x.1 < d) then some (x.1, x.2.1) else b) none)

/-- The leader of a half that dominates it (R69): device and count. -/
def dominator (ps : List (Nat × Nat)) : Option (Nat × Nat) :=
  ps.find? (fun p => decide (512 ≤ p.2) && ps.all (fun q => q.1 == p.1 || decide (4 * q.2 ≤ p.2)))
/-- The split proposal of R69: the leaders of the lower and the upper half and the lower one's count. -/
def splitProposal (own e : Nat) : Option (Nat × Nat × Nat) :=
  let ps := (own, byteField e 48 2, byteField e 50 2) :: ((slotList e).filter (fun x => x.2.2.2)).map (fun x => (x.1, x.2.1, x.2.2.1))
  match dominator (ps.map (fun p => (p.1, p.2.1 - p.2.2))), dominator (ps.map (fun p => (p.1, p.2.2))) with
  | some a, some b => if a.1 ≠ b.1 ∧ 131072 ≤ oteSize e then some (a.1, b.1, a.2) else none
  | _, _ => none

/-- A sample of an object's entry, with the proposals it leads to; the device of a migration proposal (R66 to R69, R71). -/
def State.sampleOte (s : State) (i e d off : Nat) : State × Option Nat :=
  let epoch := s.cycle / 2 ^ 20
  let upper := decide (oteSize e / 2 ≤ off)
  let e := if d = s.devNum then oteOwnSample e epoch upper else oteSample e d epoch upper
  let ph := byteField e 61 1
  let prop := if bit s.dcb.migctl 1 && !bit ph 3 && !otePin e then proposal e else none
  let split := if bit s.dcb.migctl 3 && !bit ph 4 && !otePin e then splitProposal s.devNum e else none
  let e := linePut e 61 1 (ph ||| (if prop.isSome then 8 else 0) ||| (if split.isSome then 16 else 0))
  let s := s.putOte i e
  let s := match prop with
    | some (dv, c) => s.postMer (merRecord 1 0 dv 0 epoch e c (byteField e 48 2))
    | none => s
  let s := match split with
    | some (a, b, c) => s.postMer (merRecord 2 0 a b epoch e c (byteField e 48 2))
    | none => s
  (s, if bit s.dcb.migctl 2 then prop.map (·.1) else none)

/-- Counts a line request to an object here; every 64th of a memory controller is a sample (R66). -/
def State.countReq (s : State) (ident off d : Nat) : State × Option Nat :=
  match s.oteFind ident with
  | none => (s, none)
  | some (i, e) =>
    if !bit s.dcb.migctl 0 ∨ otePhase e ≠ 0 then (s, none) else
    match s.oteAddr e off with
    | .error _ => (s, none)
    | .ok a =>
      let c := memCtl a
      let l := s.fab.nomCount ++ List.replicate (24 - s.fab.nomCount.length) 0
      let n := (l.getD c 0 + 1) % 64
      let s := { s with fab := { s.fab with nomCount := l.set c n } }
      if n = 0 then s.sampleOte i e d off else (s, none)

/-! ### The fabric (R141, R142) -/

/-- The fabric may carry messages of this device: its number has been set (R466). -/
def State.devSet (s : State) : Bool := bit s.dcb.devnum 7

def State.peerIn (s : State) (src : Nat) : PeerIn := (s.fab.peersIn.get src).getD ⟨0, [], [], [], [], []⟩
def State.putIn (s : State) (src : Nat) (p : PeerIn) : State :=
  { s with fab := { s.fab with peersIn := s.fab.peersIn.set src p } }
/-- One more of a list of which the last 64 are kept. -/
def keep64 (l : List (Nat × OutMsg)) (x : Nat × OutMsg) : List (Nat × OutMsg) := (l ++ [x]).drop (l.length - 63)
/-- A response is retained: of each source the last 64 to atomics, and the last 64 others (R142). -/
def State.retain (s : State) (src seq : Nat) (atomic : Bool) (o : OutMsg) : State :=
  let p := s.peerIn src
  s.putIn src (if atomic then { p with kept := keep64 p.kept (seq, o) } else { p with sys := keep64 p.sys (seq, o) })
/-- The plane on which a packet first arrives is kept until it is answered (R139). -/
def State.notePlane (s : State) (src seq x : Nat) : State :=
  let p := s.peerIn src
  if src = s.devNum ∨ p.planes.any (fun q => q.1 == seq) then s else s.putIn src { p with planes := p.planes ++ [(seq, s.planeFor x)] }
/-- The plane for the answer to a packet (R139). -/
def State.planeIn (s : State) (src seq x : Nat) : Nat :=
  (((s.peerIn src).planes.find? (fun q => q.1 == seq)).map (·.2)).getD (s.planeFor x)
/-- A packet needs no answer of this device any longer. -/
def State.donePlane (s : State) (src seq : Nat) : State :=
  let p := s.peerIn src
  if p.planes.any (fun q => q.1 == seq) then s.putIn src { p with planes := p.planes.filter (fun q => q.1 != seq) } else s
/-- The answer to a packet of another device leaves on its plane. -/
def State.answerOn (s : State) (src seq x tgt : Nat) (kind : Instr) (args : List Nat) : State :=
  (s.sendAt (s.planeIn src seq x) tgt kind args).donePlane src seq
/-- A request packet from a device: true when it is no duplicate (R142). -/
def State.accept (s : State) (src seq : Nat) : State × Bool :=
  if src = s.devNum then (s, true) else
  let p := s.peerIn src
  let put (h : Nat) : State :=
    let near (l : List Nat) : List Nat := l.filter (fun q => decide ((h + 2 ^ 32 - q) % 2 ^ 32 < 4096))
    s.putIn src { p with high := h, seen := near (p.seen ++ [seq]) }
  if p.seen.isEmpty then (put seq, true)
  else
    let back := (p.high + 2 ^ 32 - seq) % 2 ^ 32
    if 2 ^ 31 ≤ back then (put seq, true)
    else if 4096 ≤ back ∨ p.seen.contains seq then (s, false)
    else (put p.high, true)

/-- Answers a request packet and retains the response (R142). -/
def State.reply (s : State) (dev seq : Nat) (m : Msg) (args : List Nat) : State :=
  if dev = s.devNum then s.push m
  else
    let x := planeName dev m.kind args
    (s.retain dev seq false ⟨dev, m.kind, args, x, 0⟩).answerOn dev seq x dev m.kind args
/-- A duplicate whose original has been answered is answered again; a retained response holds in the place of SEQ the name
that chooses its plane. -/
def State.replay (s : State) (dev seq : Nat) : State :=
  match ((s.peerIn dev).kept ++ (s.peerIn dev).sys).find? (fun q => q.1 == seq) with
  | some o => s.answerOn dev seq o.2.seq o.2.tgt o.2.kind o.2.args
  | none => s
/-- An answer has arrived: the request of a peer is no longer unacknowledged, and what waited behind it may leave (R141). -/
def State.acked (s : State) (dev : Nat) (p : OutMsg → Bool) : State :=
  match s.fab.peersOut.get dev with
  | none => s
  | some x => (s.putPeer dev { x with unacked := x.unacked.filter (fun u => !p u.2.2) }).sendHeld dev

/-- The arguments of an ORSP outside the device. -/
def rspArgs (p : ObjRsp) : List Nat :=
  [p.tag, p.code, p.data, if p.poison then 1 else 0, p.owner, p.mgen, if p.pin then 1 else 0] ++ p.res.flatMap (fun r => [r.1, r.2])

/-- An ORSP leaves: to this device directly, to another past the pod directory of its plane (R134, R135). -/
def State.sendRsp (s : State) (r : ObjReq) (p : ObjRsp) : State :=
  if r.src = s.devNum then s.push (.orsp p)
  else
    let keep (a : Bool) (s : State) : State := s.retain r.via r.seq a ⟨r.src, .orsp, rspArgs p, r.name, 0⟩
    -- a plane that the line has left has no directory for it any more (R143)
    let past (write : Bool) (s : State) : State :=
      if s.planeIn r.via r.seq r.name = s.planeFor r.name then (s.push (.orspAtSwitch r.name p r.src write)).donePlane r.via r.seq
      else s.answerOn r.via r.seq r.name r.src .orsp (rspArgs p)
    match r.op with
    | .read | .prefetch => past false s
    | .write _ _ _ =>
      let s := past true s
      let q := s.peerIn r.via
      s.putIn r.via { q with acked := q.acked.filter (fun a => a.1 != r.seq) ++ [(r.seq, p.code)] }
    | .atomic _ => keep true (past true s)
    | _ => keep false (s.answerOn r.via r.seq r.name r.src .orsp (rspArgs p))

/-- An ORSP of this owner with an entry's generation and pin. -/
def State.rspOf (s : State) (r : ObjReq) (e code : Nat) : ObjRsp :=
  ⟨r.tag, code, 0, false, [], s.devNum, oteMgen e, otePin e⟩

/-! ### Accesses an owner performs (R57, R137) -/

/-- A read, write, atomic or prefetch at the owner's home slice, translated through the translation cache (R25).  It waits
while its key is being retired (R152); the line's check value is tested where it is read or merged (R146).  A read that is to set
PS waits for a way of the directory (R126, R131). -/
def State.serveAccess (s0 : State) (r : ObjReq) (e : Nat) : State :=
  let s := s0.otcFill r.ident r.off
  match s.ownerChk r.ident r.off with
  | some sub => s.sendRsp r (s.rspOf r e sub)
  | none =>
    let l := s.objLineOf r.ident r.off
    let base := s.rspOf r e 0
    if s.coh.retiring = some l.key then s.after 16 (.ofwd { r with taken := true })
    else if r.src ≠ s.devNum ∧ r.op.reads ∧ s.dirFull l 8 then (s.evictDir l).after 16 (.ofwd { r with taken := true })
    else
      let (s, d) := s.chkReceipt l (s.lineNow l)
      let s := s.memMet l d.2
      match r.op with
      | .read | .prefetch =>
        let s := if r.src = s.devNum then s else s.putDir { s.dirOf l with ps := true }
        s.sendRsp r { base with data := d.1, poison := d.2 }
      | .write v m p => ((s.noteWrite l).lineSet l (lineMerge d.1 v m) (p || (d.2 && m != lineFull))).sendRsp r base
      | .atomic xs =>
        if d.2 then s.sendRsp r { base with poison := true }
        else
          let q := atomLine xs d.1
          ((s.noteWrite l).lineSet l q.1 false).sendRsp r { base with res := q.2 }
      | _ => s

end Sys2Proof.Machine
end

