-- ==== Sys2Proof/Machine/Migrate.lean ====
section
/-! DEFINITION. Migrations (R72 to R84), the system operations an owner performs (R395), and the events of a move: MALC, MALA,
MCPY, MCPA, COPY_PASS_END, CHUNK_SEND, REGUPD, REGACK, MACT, MREL. -/

namespace Sys2Proof.Machine

/-- Puts messages before those waiting: they reached this device earlier. -/
def State.pushFront (s : State) (ms : List Msg) : State := { s with pending := ms ++ s.pending }
/-! ### Entries of the pod directory (R133, R135) -/

/-- The pod directory's entry of a line. -/
def State.podOf (s : State) (name : Nat) : Option PodEnt := s.fab.pod.find? (fun e => e.name == name)
def State.dropPod (s : State) (name : Nat) : State :=
  { s with fab := { s.fab with pod := s.fab.pod.filter (fun e => e.name != name) } }
def State.putPod (s : State) (e : PodEnt) : State :=
  { s with fab := { s.fab with pod := s.fab.pod.filter (fun x => x.name != e.name) ++ [e] } }
/-- A line is no longer busy at the switch; its entry is freed when no device shares it, and what waited for it is looked at
again. -/
def State.freePod (s : State) (e : PodEnt) : State :=
  (if e.shr.isEmpty then s.dropPod e.name else s.putPod { e with cur := none, psi := none, wait := [] }).pushFront
    (e.wait.map (fun r => .podDirOreq r.1 r.2))
/-- The request that a line is busy with at the switch is this one. -/
def PodEnt.busyWith (e : PodEnt) (src tag : Nat) : Bool :=
  match e.cur with | some c => c.1.src == src && c.1.tag == tag | none => false
/-- A request that has left the switch is over (R135). -/
def State.podFree (s : State) (name src tag : Nat) : State :=
  match s.podOf name with
  | some e => if e.busyWith src tag then s.freePod e else s
  | none => s

/-- An answer that no owner made: OABS or OCON, on the request's plane. -/
def State.sendNone (s : State) (r : ObjReq) (con : Bool) : State :=
  if r.src = s.devNum then s.push (if con then .ocon r.tag else .oabs r.tag)
  else (s.podFree r.name r.src r.tag).answerOn r.via r.seq r.name r.src (if con then .ocon else .oabs) [r.tag]

/-! ### Migrations -/

/-- A device that PFAIL or the pod map shows failed. -/
def State.failed (s : State) (dev : Nat) : Bool := bit s.dcb.pfail dev || s.fab.dead.contains dev

def State.mig (s : State) (ident : Nat) : Option Mig := s.fab.migs.get ident
def State.putMig (s : State) (m : Mig) : State := { s with fab := { s.fab with migs := s.fab.migs.set m.ident m } }
def State.dropMig (s : State) (ident : Nat) : State := { s with fab := { s.fab with migs := s.fab.migs.erase ident } }
/-- The migrations that move together with one (R80). -/
def State.party (s : State) (m : Mig) : List Mig :=
  match m.group with
  | none => [m]
  | some _ => (s.fab.migs.map (·.2)).filter (fun x => x.group == m.group && x.dest == m.dest)

/-- The answer of an object instruction: a CODE of R394, or 256 for the absent tier (R5). -/
def State.sysRsp (s : State) (r : ObjReq) (e code : Nat) : State :=
  s.sendRsp r (s.rspOf r e (if code = 0 ∨ code = 256 then code else 512 + code))

/-- Moves in progress: that of a group is one (R72, R80, log entry 41). -/
def State.moves (s : State) : Nat :=
  (s.fab.migs.map (fun m => match m.2.group with | some c => (1, c) | none => (0, m.1))).dedup.length

/-- Accesses queued at the source go on in arrival order. -/
def State.requeue (s : State) (rs : List ObjReq) : State := s.pushFront (rs.map (fun r => .ofwd { r with taken := true }))

/-! ### Aborts and admission -/

/-- An abort of one migration (R77): MREL, PHASE RESIDENT, the queue served, ABORT posted. -/
def State.abortOne (s : State) (m : Mig) (status code : Nat) : State :=
  let s := s.dropMig m.ident
  let s := if m.phase = 3 ∨ s.failed m.dest then s else s.sendSeq m.dest .mrel [m.ident, s.devNum]
  match s.oteFind m.ident with
  | none => s
  | some (i, e) =>
    let s := s.putOte i (oteWithPhase e 0 0)
    let s := s.postMer (merRecord 4 status m.dest 0 (s.cycle / 2 ^ 20) e 0 0)
    let s := s.requeue m.queue
    match m.req with
    | some r => s.sysRsp r e code
    | none => s
/-- An abort of a migration and of its group (R77, R80); `code` answers an OMIG that waits. -/
def State.abort (s : State) (ident status code : Nat) : State :=
  match s.mig ident with
  | none => s
  | some m => (s.party m).foldl (fun s x => s.abortOne x status code) s

/-- Group members of an entry on this device (R80): index and entry. -/
def State.coLocated (s : State) (colid : Nat) : List (Nat × Nat) :=
  (List.range (2 ^ tabK s.dcb.otb)).filterMap (fun i =>
    let e := s.oteAt i
    if byteField e 0 8 ≠ 0 ∧ oteCol e ∧ oteColid e = colid then some (i, e) else none)

/-- MAXM of MIGCTL (R70). -/
def State.maxm (s : State) : Nat := let m := fld s.dcb.migctl 16 8; if 1 ≤ m ∧ m ≤ 32 then m else 32

/-- Reserves stubs for members and sends MALC; 3 when a stub entry cannot be reserved (R62, R72). -/
def State.admitAll (s : State) (dest : Nat) (group : Option Nat) (req : Option ObjReq) : List (Nat × Nat) → Option State
  | [] => some s
  | (_, e) :: rest =>
    match s.stubFree (oteIdent e) with
    | none => none
    | some st =>
      let m : Mig := ⟨oteIdent e, dest, group, 0, 0, [], [], [], 0, [], st, 0, 0, if rest.isEmpty then req else none, []⟩
      ((s.putMig m).sendDev dest .malc [oteIdent e, oteSize e, oteFlags e, oteColid e, oteKey e, s.devNum]).admitAll dest group req rest

/-- The admission of a migration (R72, R80, R395): the code of R394 when it is refused. -/
def State.startMig (s : State) (e dest : Nat) (req : Option ObjReq) : State × Nat :=
  let ms := if oteCol e then s.coLocated (oteColid e) else [(0, e)]
  if 128 ≤ dest ∨ dest = s.devNum ∨ s.failed dest then (s, 8)
  else if ms.any (fun m => otePhase m.2 != 0 || s.fab.migs.has (oteIdent m.2)) then (s, 5)
  else if ms.any (fun m => s.fab.frees.has (oteIdent m.2)) then (s, 1)
  else if ms.any (fun m => otePin m.2) then (s, 4)
  else if s.maxm ≤ s.moves then (s, 5)
  else match s.admitAll dest (if oteCol e then some (oteColid e) else none) req ms with
    | some s => (s, 0)
    | none => (s, 3)

/-! ### System operations at the owner (R395) -/

/-- The registry entry set FREED (R50). -/
def State.regFreed (s : State) (ident : Nat) : State :=
  match s.regFind ident with
  | some (i, e) => s.putEnt s.dcb.rgb 32 i (regEntry ident (byteField e 8 1) ((byteField e 9 1 + 1) % 256) 2 s.cycle)
  | none => s
/-- The registry entry's owner and generation (R75). -/
def State.regSet (s : State) (ident owner mgen : Nat) : State :=
  match s.regFind ident with
  | some (i, e) => s.putEnt s.dcb.rgb 32 i (regEntry ident owner mgen (byteField e 10 1) (byteField e 12 8))
  | none => s
/-- The object is gone here: its lines, its entry, its extents. -/
def State.freeObject (s : State) (ident : Nat) : State :=
  let s := s.dropObject ident
  match s.oteFind ident with
  | some (i, e) => s.freeOte i e
  | none => s
/-- An OFRE is answered, with CODE `code`; those that came meanwhile are served after it. -/
def State.endFree (s : State) (ident code : Nat) : State :=
  match s.fab.frees.get ident with
  | none => s
  | some w =>
    (({ s with fab := { s.fab with frees := s.fab.frees.erase ident } } : State).sysRsp w.req w.entry code).requeue w.more
/-- The devices whose copies go when an object is freed: every live device of the pod, and each that shares a line of it (R395). -/
def State.freeDevs (s : State) (ident : Nat) : List Nat :=
  ((s.fab.members ++ (s.fab.pod.filter (fun p => p.name / 2 ^ 29 == ident)).flatMap (·.shr)).dedup).filter
    (fun d => d != s.devNum && !s.failed d)
/-- An OFRE whose registry entry is FREED: the object goes here, and those devices invalidate their copies before the OFRE is
answered (R395). -/
def State.startFree (s : State) (ident : Nat) (w : FreeWait) : State :=
  let devs := s.freeDevs ident
  let s := s.freeObject ident
  let s := { s with fab := { s.fab with frees := s.fab.frees.set ident { w with reg := false, left := devs } } }
  let s := devs.foldl (fun s d => s.sendOut d .pinv [freeName ident]) s
  if devs.isEmpty then s.endFree ident 0 else s
/-- A device has invalidated the lines of a freed object, or has failed. -/
def State.takeFreed (s : State) (ident dev : Nat) : State :=
  match s.fab.frees.get ident with
  | none => s
  | some w =>
    if w.reg ∨ !w.left.contains dev then s else
    let w := { w with left := w.left.filter (· != dev) }
    let s := { s with fab := { s.fab with frees := s.fab.frees.set ident w } }
    if w.left.isEmpty then s.endFree ident 0 else s

/-- The result of OLOC. -/
def State.locWord (s : State) (e : Nat) : List (Nat × Nat) :=
  [(0, s.devNum + oteMgen e * 2 ^ 8 + oteFlags e % 32 * 2 ^ 16 + otePhase e * 2 ^ 21), (1, oteColid e)]

/-- A system operation on an entry in RESIDENT or COPY (R78, R395).  R78 has no column for a move admitted whose MALA has not
come, PHASE still RESIDENT: OPIN, OFRE and OCOL abort it as in COPY (DESIGN CHOICE, log entry 41).  An OFRE that ends PEER leaves the
object, and its move, as they were (R395). -/
def State.serveSystem (s : State) (r : ObjReq) (i e0 : Nat) : State :=
  if s.oteBad e0 then s.sendRsp r (s.rspOf r e0 0x13) else
  let birth := r.ident / 2 ^ 20
  let stop := match r.op with
    | .pin true => 3
    | .free => if s.fab.frees.has r.ident ∨ (birth ≠ s.devNum ∧ s.failed birth) then 0 else 4
    | .col _ => 5
    | _ => 0
  let s := if stop = 0 then s else s.abort r.ident stop (if stop = 3 then 4 else if stop = 4 then 1 else 5)
  let e := s.oteAt i
  match r.op with
  | .pin b =>
    let e := oteWithFlags e (if b then oteFlags e ||| 1 else andNot (oteFlags e) 1)
    (s.putOte i e).sysRsp r e 0
  | .loc => s.sendRsp r { s.rspOf r e 0 with res := s.locWord e }
  | .free =>
    (match s.fab.frees.get r.ident with
     | some w => { s with fab := { s.fab with frees := s.fab.frees.set r.ident { w with more := w.more ++ [r] } } }
     | none =>
       let w : FreeWait := ⟨r, e, true, [], []⟩
       if birth = s.devNum then (s.regFreed r.ident).startFree r.ident w
       else if s.failed birth then s.sysRsp r e 11
       else
         ({ s with fab := { s.fab with frees := s.fab.frees.set r.ident w } } : State).sendDev birth .regupd
           [r.ident, 255, (oteMgen e + 1) % 256, s.devNum])
  | .col c =>
    if c % 65536 = 0 then
      let e := oteWithFlags e (andNot (oteFlags e) 4)
      (s.putOte i e).sysRsp r e 0
    else
      let g := (s.coLocated (c % 65536)).filter (fun m => oteIdent m.2 != r.ident)
      if 64 ≤ g.length ∨ 2 ^ 38 < g.foldl (fun a m => a + oteSize m.2) 0 + oteSize e then s.sysRsp r e 6
      else
        let e := linePut (oteWithFlags e (oteFlags e ||| 4)) 18 2 (c % 65536)
        (s.putOte i e).sysRsp r e 0
  | .mig d =>
    let a := s.startMig e d (some r)
    if a.2 = 0 then a.1 else a.1.sysRsp r e a.2
  | _ => s

/-! ### Counting (R66) -/

/-- A line of an object here that no slice holds is read from memory, and its memory controller counts the request (R66). -/
def State.counted (s : State) (l : LineId) : Bool := l.obj && l.key != 0x3FF && !s.coh.lines.any (fun x => x.line == l)
/-- The entry of a line's object lies in a line whose home is busy: its counters are written after that. -/
def State.oteBusy (s : State) (l : LineId) : Bool :=
  match s.oteFind l.ident with
  | some (i, _) => s.coh.busy.any (fun t => !t.line.obj && decide (t.line.name / 2 = (tabBase s.dcb.otb + 256 * i) / 256))
  | none => false
/-- Counts a request; a proposal under AUTO starts a move (R66, R71). -/
def State.countLocal (s : State) (l : LineId) : State :=
  if !s.counted l then s
  else
    let c := s.countReq l.ident l.off s.devNum
    match c.2, c.1.oteFind l.ident with
    | some d, some (_, e) => (c.1.startMig e d none).1
    | _, _ => c.1

/-! ### Copying -/

/-- Class of a line of a recovery-class object at its source (R82): 0 below the committed point, 1 at it, 2 above. -/
def State.stampClass (s : State) (la : Nat) : Nat :=
  match s.pointsOf la with
  | none => 0
  | some (_, _, o, c) =>
    let t := (s.lm la).stamp
    if t = stampOf o then 2 else if t = stampOf c ∧ 1 ≤ c then 1 else 0

/-- Begins a pass with the given chunks. -/
def State.beginPass (s : State) (m : Mig) (todo : List Nat) : State :=
  let s := s.putMig { m with pass := m.pass + 1, todo := todo, dirty := m.dirty.filter (fun c => !todo.contains c) }
  if todo.isEmpty then s.push (.copyPassEnd m.ident) else s.push (.chunkSend m.ident)

/-- A line of a chunk has a write that its recovery unit has not accepted: its stamp is not yet that of its data. -/
def State.chunkInflight (s : State) (ident c : Nat) : Bool :=
  (List.range 32).any (fun j => match s.backing (s.objLineOf ident (4096 * c + 128 * j)) with
    | some la => s.rcv.inflight.any (fun q => q.2.1 == la)
    | none => false)

/-- Sends one chunk (R73): each line with its stamp, its class at the source above it (R82, log entry 41), and poison. -/
def State.sendChunk (s : State) (m : Mig) : State :=
  match m.todo with
  | [] => s.push (.copyPassEnd m.ident)
  | c :: rest =>
    if s.chunkInflight m.ident c then s.after 16 (.chunkSend m.ident) else
    let lines := (List.range 32).map (fun j => s.objLineOf m.ident (4096 * c + 128 * j))
    let vals := lines.map (fun l => s.lineNow l)
    let stamps := lines.map (fun l => match s.backing l with | some la => (s.lm la).stamp + 65536 * s.stampClass la | none => 0)
    let pois := (List.range 32).filter (fun j => (vals.getD j (0, false)).2)
    let s := s.sendDev m.dest .mcpy ([m.ident, c, s.devNum] ++ vals.map (·.1) ++ stamps ++ pois)
    let s := s.putMig { m with todo := rest, dirty := m.dirty.filter (· != c)
                               sent := if m.sent.contains c then m.sent else m.sent ++ [c], acks := m.acks + 1 }
    s.after 32 (if rest.isEmpty then .copyPassEnd m.ident else .chunkSend m.ident)

def execChunkSend (s : State) : Out :=
  match s.msg with
  | some (.chunkSend ident) =>
    .next (whenQuiet s (.chunkSend ident) fun s => match s.mig ident with
      | some m => if m.phase = 1 ∨ m.phase = 2 then s.sendChunk m else s
      | none => s)
  | _ => .fault .noMessage

/-- A member enters FREEZE (R73, R74): accesses queue and the rest of its chunks are recopied. -/
def State.freeze (s : State) (m : Mig) : State :=
  let s := match s.oteFind m.ident with | some (i, e) => s.putOte i (oteWithPhase e 2 m.dest) | none => s
  let left := List.insertionSort (· ≤ ·) (m.todo ++ m.dirty.filter (fun c => !m.todo.contains c))
  let s := s.putMig { m with phase := 2, todo := left, dirty := [] }
  if m.todo.isEmpty then (if left.isEmpty then s else s.push (.chunkSend m.ident)) else s

/-! ### Commit -/

/-- A line's stamp, in its metadata and in the durable queue. -/
def State.restamp (s : State) (la st : Nat) : State :=
  ({ s with rcv := { s.rcv with dq := s.rcv.dq.map (fun (q : Nat × Nat × Nat × Nat × Bool) =>
      if q.2.1 = la then (q.1, q.2.1, q.2.2.1, st, q.2.2.2.2) else q) } }).setLm la { s.lm la with stamp := st }
/-- The contribution of a line at the committed point enters or leaves its region's live digest. -/
def State.flipLive (s : State) (la : Nat) : State :=
  match s.pointsOf la with
  | none => s
  | some (n, r, _, c) =>
    { s with rcv := { s.rcv with
      rcpt := s.rcv.rcpt.set n { r with ldig := xorAt r.ldig (ioDieOf (la * 128)) (contrib (la * 128) (s.accLine la).1 (stampOf c)) } } }
/-- Lines of an object's extents that have metadata. -/
def State.objLines (s : State) (e : Nat) : List Nat :=
  (oteExtents e).flatMap (fun x =>
    (s.lmeta.filter (fun km => decide (x.1 / 128 ≤ km.1 ∧ km.1 < x.1 / 128 + 2 ^ x.2 / 128))).map (·.1))
/-- Before COMMIT the committed lines of a recovery-class object leave the source's digest, and their stamps with it (R82,
R83); the move keeps which. -/
def State.leaveRegion (s : State) (m : Mig) (e : Nat) : State :=
  if !oteRec e then s.putMig m else
  let mine := (s.objLines e).filter (fun la => s.stampClass la == 1)
  (mine.foldl (fun s la => (s.flipLive la).restamp la 0) s).putMig { m with gone := mine.map (fun la => (la, (s.lm la).stamp)) }
/-- The object stays at its source after all (R76): lines that had left the digest return; one whose point is no longer the
committed one is settled. -/
def State.returnRegion (s : State) (m : Mig) : State :=
  m.gone.foldl (fun s q =>
    match s.pointsOf q.1 with
    | some (_, _, _, c) => if q.2 = stampOf c then (s.flipLive q.1).restamp q.1 q.2 else s
    | none => s) s

/-- The collector of R63 comes back to a stub that the registry has acknowledged when it can have been unused for STCI
cycles. -/
def State.armStub (s : State) (i : Nat) : State :=
  let e := s.entAt s.dcb.stb 32 i
  if s.dcb.stci = 0 ∨ !bit (byteField e 10 1) 0 ∨ !bit (byteField e 10 1) 1 ∨ s.timers.any (fun t => t.2 == .stubCollect i) then s
  else s.after (max 1 (s.dcb.stci - (s.cycle - byteField e 16 8))) (.stubCollect i)
/-- A new STCI or a new table: the collector looks at every stub. -/
def State.armStubs (s : State) : State :=
  let s := { s with timers := s.timers.filter (fun t => match t.2 with | .stubCollect _ => false | _ => true) }
  if tabK s.dcb.stb < 10 then s else (List.range (2 ^ tabK s.dcb.stb)).foldl (fun s i => s.armStub i) s

/-- Step 2 of R75 for one member: the stub, MACT, the queue forwarded, the entry and extents released, DONE. -/
def State.commitOne (s : State) (m : Mig) : State :=
  match s.oteFind m.ident with
  | none => s.dropMig m.ident
  | some (i, e) =>
    let g := oteMgen e
    let s := s.putEnt s.dcb.stb 32 m.stub (stubEntry m.ident m.dest g (if m.ack = 1 then 3 else 1) s.cycle)
    let s := s.armStub m.stub
    let s := s.sendSeq m.dest .mact [m.ident, (g + 1) % 256, oteFlags e, s.devNum]
    let s := m.queue.foldl (fun s r => (s.sendSeq m.dest .ofwd (r.fields (r.hops + 1))).donePlane r.via r.seq) s
    let mine (l : LineId) : Bool := l.obj && l.ident == m.ident
    let s := { s with coh := { s.coh with lines := s.coh.lines.filter (fun x => !mine x.line)
                                          dir := s.coh.dir.filter (fun d => !mine d.line) } }
    let s := (s.freeOte i e).dropMig m.ident
    let s := if m.ack = 2 then s.postMer (merRecord 5 0 m.dest 0 (s.cycle / 2 ^ 20) e 0 0) else s
    s.postMer (merRecord 3 0 m.dest 0 (s.cycle / 2 ^ 20) e 0 0)

/-- Every member's registry has answered: the whole party commits in one step (R75, R80). -/
def State.tryCommit (s : State) (ident : Nat) : State :=
  match s.mig ident with
  | none => s
  | some m =>
    let ms := s.party m
    if ms.all (fun x => x.phase == 3 && x.ack != 0) then ms.foldl (fun s x => s.commitOne x) s else s

/-- Step 1 of R75: the digests change (R83), then PHASE COMMIT and REGUPD to the birth device. -/
def State.sendRegupd (s : State) (m : Mig) : State :=
  match s.oteFind m.ident with
  | none => s
  | some (i, e) =>
    let s := s.putOte i (oteWithPhase e 3 m.dest)
    let birth := m.ident / 2 ^ 20
    let g := (oteMgen e + 1) % 256
    if birth = s.devNum then (s.regSet m.ident m.dest g).leaveRegion { m with phase := 3, ack := 1 } e
    else if s.failed birth then s.leaveRegion { m with phase := 3, ack := 2 } e
    else (s.leaveRegion { m with phase := 3 } e).sendDev birth .regupd [m.ident, m.dest, g, s.devNum]

/-- The end of FREEZE (R74, R136): nothing left to copy and every MCPA in, then every PSIA, then COMMIT. -/
def State.endFreeze (s : State) (ident : Nat) : State :=
  match s.mig ident with
  | none => s
  | some m =>
    let ms := s.party m
    if !ms.all (fun x => x.phase == 2 && x.todo.isEmpty && x.dirty.isEmpty && x.acks == 0 && x.psis == 0) then s
    else if ms.any (fun x => s.objInflight x.ident) then s.after 16 (.copyPassEnd ident)
    else
      let shared := s.coh.dir.filter (fun d => d.ps && d.line.obj && ms.any (fun x => x.ident == d.line.ident))
      if !shared.isEmpty then
        shared.foldl (fun s d => match s.mig d.line.ident with
          | some x => (s.putMig { x with psis := x.psis + 1 }).push (.psi d.line.name s.devNum)
          | none => s) s
      else (ms.foldl (fun s x => s.sendRegupd x) s).tryCommit ident

/-- COPY_PASS_END (R73).  The passes of a group's members are one: it ends when every member's has ended, and at its end the
group enters FREEZE, or every member begins the next (R80). -/
def State.passEnd (s : State) (ident : Nat) : State :=
  match s.mig ident with
  | none => s
  | some m =>
    let ms := s.party m
    if m.phase = 2 then s.endFreeze ident
    else if !ms.all (fun x => x.phase == 1 && x.todo.isEmpty) then s
    else if ms.foldl (fun a x => a + x.dirty.length) 0 ≤ 256 ∨ 8 ≤ m.pass then (ms.foldl (fun s x => s.freeze x) s).endFreeze ident
    else ms.foldl (fun s x => s.beginPass x (List.insertionSort (· ≤ ·) x.dirty)) s

def execCopyPassEnd (s : State) : Out :=
  match s.msg with
  | some (.copyPassEnd ident) => .next (whenQuiet s (.copyPassEnd ident) fun s => s.passEnd ident)
  | _ => .fault .noMessage

/-- MALA at the source (R72): COPY begins, or the migration ends; an OMIG is answered when the last member of its party has
begun.  A destination without the tier of the object ends it as NOSPACE does, and its OMIG with UNITABS (R5, DEDUCED, log entry 82). -/
def State.takeMala (s : State) (ident status : Nat) : State :=
  match s.mig ident with
  | none => s
  | some m =>
    let s := s.acked m.dest (fun o => o.kind == .malc && o.args.headD 0 == ident)
    if m.phase ≠ 0 then s
    else if status = 256 then s.abort ident 2 256
    else if status ≠ 0 then s.abort ident status (if status = 6 then 7 else 2)
    else match s.oteFind ident with
      | none => s
      | some (i, e) =>
        let s := s.putOte i (oteWithPhase e 1 m.dest)
        let s := s.beginPass { m with phase := 1 } (List.range ((oteSize e + 4095) / 4096))
        let ms := (s.mig ident).elim [] s.party
        if ms.all (fun x => x.phase == 1) then
          ms.foldl (fun s x => match x.req with
            | some r => (s.putMig { x with req := none }).sysRsp r (s.oteAt i) 0
            | none => s) s
        else s

def execMala (s : State) : Out :=
  match s.msg with
  | some (.mala ident status) => .next (whenQuiet s (.mala ident status) fun s => s.takeMala ident status)
  | _ => .fault .noMessage

def execMcpa (s : State) : Out :=
  match s.msg with
  | some (.mcpa ident c) =>
    .next (whenQuiet s (.mcpa ident c) fun s => match s.mig ident with
      | some m => ((s.acked m.dest (fun o => o.kind == .mcpy && o.args.take 2 == [ident, c])).putMig { m with acks := m.acks - 1 }).endFreeze ident
      | none => s)
  | _ => .fault .noMessage

/-- REGACK (R75, R50): the party commits once every registry has answered; an OFRE that waited for its registry frees. -/
def State.takeRegack (s : State) (ident : Nat) : State :=
  let s := s.acked (ident / 2 ^ 20) (fun o => o.kind == .regupd && o.args.headD 0 == ident)
  match s.fab.frees.get ident, s.mig ident with
  | some w, _ => if w.reg then s.startFree ident w else s
  | none, some m => if m.phase = 3 then (s.putMig { m with ack := 1 }).tryCommit ident else s
  | none, none => s

def execRegack (s : State) : Out :=
  match s.msg with
  | some (.regack ident) => .next (whenQuiet s (.regack ident) fun s => s.takeRegack ident)
  | _ => .fault .noMessage

/-- REGUPD at the birth device (R75, R50); owner 255 frees the entry. -/
def execRegupd (s : State) : Out :=
  match s.msg with
  | some (.regupd ident owner mgen src seq) =>
    .next (if !s.devSet && src != s.devNum then s else
      whenQuiet (s.notePlane src seq (ident * 2 ^ 29)) (.regupd ident owner mgen src seq) fun s =>
        match s.accept src seq with
        | (s, false) => s.replay src seq
        | (s, true) =>
          let s := if owner = 255 then s.regFreed ident else s.regSet ident owner mgen
          s.reply src seq (.regack ident) [ident])
  | _ => .fault .noMessage

/-! ### The destination (R72, R73, R75, R77, R81, R82) -/

/-- MALC: extents and an INBOUND entry, or a refusal: 2 NOSPACE, 6 NOREGION, 256 the absent tier.  A part without the DDR-5 tier places
no object of that tier, recovery-class or not (R5). -/
def State.takeMalc (s : State) (ident size fl colid key : Nat) : State × Nat :=
  if fld fl 3 2 = 1 ∧ Config.ddrSize = 0 then (s, 256) else
  match s.alloc size (fld fl 3 2) (bit fl 1) with
  | (s, .error c) => (s, if c = 7 then 6 else 2)
  | (s, .ok xs) =>
    let pool := if bit fl 1 then (match xs.head? with
      | some x => ((s.extRegion x.1 (2 ^ x.2)).getD 0) + 2
      | none => 2) else fld fl 3 2
    match s.tabFree s.dcb.otb 256 ident with
    | none => (s.fxRelease pool xs, 2)
    | some i =>
      let s := s.putOte i (oteNew ident size fl colid 0 key xs 4)
      ({ s with fab := { s.fab with inbound := s.fab.inbound.set ident [] } }, 0)

def execMalc (s : State) : Out :=
  match s.msg with
  | some (.malc ident size fl colid key src seq) =>
    .next (if !s.devSet then s else
      whenQuiet (s.notePlane src seq (ident * 2 ^ 29)) (.malc ident size fl colid key src seq) fun s =>
        match s.accept src seq with
        | (s, false) => s.replay src seq
        | (s, true) =>
          let a := s.takeMalc ident size fl colid key
          a.1.reply src seq (.mala ident a.2) [ident, a.2])
  | _ => .fault .noMessage

/-- A line of a recovery-class object arrives (R82, R199): restamped for the points its recovery unit acts for, its
contribution added as R186 adds a write's; it is then in the durable queue (R83, R188). -/
def State.acceptMoved (s : State) (la data kid : Nat) (poison : Bool) (cls : Nat) : State :=
  let a := la * 128
  let io := ioDieOf a
  match s.pointsOf la with
  | none => s.memPut 0 la kid data poison
  | some (n, r, o, cp) =>
    let so := stampOf o
    let sc := stampOf cp
    let old := s.accLine la
    let c := s.stampClass la
    let r := if c = 2 then { r with odig := xorAt r.odig io (contrib a old.1 so) }
      else if c = 1 then { r with ldig := xorAt r.ldig io (contrib a old.1 sc) } else r
    let r := if cls = 2 then { r with odig := xorAt r.odig io (contrib a data so) }
      else if 1 ≤ cp then { r with ldig := xorAt r.ldig io (contrib a data sc) } else r
    let st := if cls = 2 then so else sc
    ({ s with rcv := { s.rcv with rcpt := s.rcv.rcpt.set n r, dq := s.rcv.dq ++ [(io, la, data, st, poison)] }
              lmeta := s.lmeta.set la { s.lm la with stamp := st, key := s.keyTag kid } }).push (.durableWriteback io)

/-- A chunk of a recovery-class object is held back while its region is scanned (R196) or a durable queue has no room for its
lines (R188). -/
def State.chunkHeld (s : State) (ident : Nat) : Bool :=
  match s.oteFind ident with
  | none => false
  | some (_, e) => oteRec e && otePhase e == 4 &&
    ((oteExtents e).any (fun x => match s.regionOf x.1 with | some n => s.scanning n | none => false)
      || (List.range 4).any (fun d => decide (8192 < (s.rcv.dq.filter (fun q => q.1 == d)).length + 32)))

/-- MCPY: the lines of a chunk of an INBOUND object, their check values tested (R146). -/
def State.takeChunk (s : State) (ident c : Nat) (data stamps poison : List Nat) : State :=
  match s.oteFind ident with
  | none => s
  | some (_, e) =>
    if otePhase e ≠ 4 then s else
    (List.range 32).foldl (fun s j =>
      let l := s.objLineOf ident (4096 * c + 128 * j)
      let (s, d) := s.chkReceipt l (data.getD j 0, poison.contains j)
      match s.backing l with
      | none => s
      | some la =>
        if oteRec e then s.acceptMoved la d.1 (oteKey e) d.2 (stamps.getD j 0 / 65536)
        else s.lineSet l d.1 d.2) s

def execMcpy (s : State) : Out :=
  match s.msg with
  | some (.mcpy ident c src seq data stamps poison) =>
    .next (if !s.devSet then s else
      whenQuiet (s.notePlane src seq (ident * 2 ^ 29 + 32 * c)) (.mcpy ident c src seq data stamps poison) fun s =>
        match s.accept src seq with
        | (s, false) => s.replay src seq
        | (s', true) => if s.chunkHeld ident then s.after 16 (.mcpy ident c src seq data stamps poison) else
          (s'.takeChunk ident c data stamps poison).reply src seq (.mcpa ident c) [ident, c])
  | _ => .fault .noMessage

/-- MACT: the entry becomes RESIDENT, a stub held here a tombstone, held requests go on (R62, R75). -/
def State.takeMact (s : State) (ident mgen fl : Nat) : State :=
  match s.oteFind ident with
  | none => s
  | some (i, e) =>
    if otePhase e ≠ 4 then s else
    let s := s.putOte i (oteWithFlags (linePut (oteWithPhase e 0 0) 20 1 mgen) fl)
    let s := match s.stubFind ident with
      | some (j, st) => s.putEnt s.dcb.stb 32 j (linePut st 10 1 (andNot (byteField st 10 1) 1))
      | none => s
    let held := (s.fab.inbound.get ident).getD []
    ({ s with fab := { s.fab with inbound := s.fab.inbound.erase ident } }).requeue held

def execMact (s : State) : Out :=
  match s.msg with
  | some (.mact ident mgen fl src seq) =>
    .next (if !s.devSet then s else
      whenQuiet s (.mact ident mgen fl src seq) fun s =>
        match s.accept src seq with
        | (s, false) => s
        | (s, true) => s.takeMact ident mgen fl)
  | _ => .fault .noMessage

/-- MREL: the INBOUND entry and its extents are released, held requests answered OABS (R77). -/
def State.takeMrel (s : State) (ident : Nat) : State :=
  match s.oteFind ident with
  | none => s
  | some (i, e) =>
    if otePhase e ≠ 4 then s else
    let held := (s.fab.inbound.get ident).getD []
    let s := (({ s with fab := { s.fab with inbound := s.fab.inbound.erase ident } }).dropObject ident).freeOte i e
    held.foldl (fun s r => s.sendNone r false) s

def execMrel (s : State) : Out :=
  match s.msg with
  | some (.mrel ident src seq) =>
    .next (if !s.devSet then s else
      whenQuiet s (.mrel ident src seq) fun s =>
        match s.accept src seq with
        | (s, false) => s
        | (s, true) => s.takeMrel ident)
  | _ => .fault .noMessage

/-- STUB_COLLECT (R63): a stub acknowledged by the registry and unused for STCI cycles is no longer live; the collector comes
back to one used since. -/
def execStubCollect (s : State) : Out :=
  match s.msg with
  | some (.stubCollect i) =>
    .next (whenQuiet s (.stubCollect i) fun s =>
      let e := s.entAt s.dcb.stb 32 i
      let fl := byteField e 10 1
      if 10 ≤ tabK s.dcb.stb ∧ i < 2 ^ tabK s.dcb.stb ∧ bit fl 0 ∧ bit fl 1 ∧ s.dcb.stci ≠ 0 ∧ s.dcb.stci ≤ s.cycle - byteField e 16 8 then
        s.putEnt s.dcb.stb 32 i (linePut e 10 1 (andNot fl 1))
      else if tabK s.dcb.stb < 10 ∨ 2 ^ tabK s.dcb.stb ≤ i then s else s.armStub i)
  | _ => .fault .noMessage

/-! ### A failed peer during a move (R76) -/

/-- The destination has failed after REGUPD (R76): a second REGUPD names this device, the entry keeps the newer generation, and
a recovery-class object's lines return to the digest. -/
def State.mendOne (s : State) (m : Mig) : State :=
  if m.phase ≠ 3 then s else
  match s.oteFind m.ident with
  | none => s
  | some (i, e) =>
    let g := (oteMgen e + 2) % 256
    let s := (s.putOte i (linePut e 20 1 g)).returnRegion m
    if m.ident / 2 ^ 20 = s.devNum then s.regSet m.ident s.devNum g
    else if s.failed (m.ident / 2 ^ 20) then s
    else s.sendDev (m.ident / 2 ^ 20) .regupd [m.ident, s.devNum, g, s.devNum]

/-- A device has failed: moves toward it end, and moves whose birth device it is complete without it. -/
def State.migPeerFail (s : State) (dev : Nat) : State :=
  s.fab.migs.foldl (fun s km =>
    match s.mig km.1 with
    | none => s
    | some m =>
      if m.dest = dev then ((s.party m).foldl (fun s x => s.mendOne x) s).abort m.ident 1 8
      else if m.phase = 3 ∧ m.ack = 0 ∧ m.ident / 2 ^ 20 = dev then (s.putMig { m with ack := 2 }).tryCommit m.ident
      else s) s

end Sys2Proof.Machine
end

