-- ==== Sys2Proof/Machine/Eng.lean ====
section
/-! DEFINITION. What every engine command shares: its descriptor and checks at issue (R363 to R366), the held table (R367,
R368), its accesses to spaces (R94, R169, R369), and the presenting of its status (R366). -/

namespace Sys2Proof.Machine

/-! ### Issue -/

/-- A failed check or access: address, subcode, KIND and SPACE of its record entry (R365). -/
abbrev EngBad := Nat × Nat × Nat × Nat

/-- Subcodes of R365. -/
def eDESC : Nat := 0x60
def eSPACE : Nat := 0x61
def eRANGE : Nat := 0x62
def eALIGN : Nat := 0x63
def eFMT : Nat := 0x64
def eSHAPE : Nat := 0x65
def eBIN : Nat := 0x66

/-- ADDR of an entry: a count, option, format, bin or quadrant is no address and gives 0 (R365; DEDUCED, log entry 26). -/
def engAddrOf (v sub : Nat) : Nat := if sub = eDESC ∨ sub = eFMT ∨ sub = eSHAPE ∨ sub = eBIN then 0 else v
/-- A check: none when it holds. -/
def unlessBad (ok : Bool) (v sub kind sp : Nat) : Option EngBad := if ok then none else some (engAddrOf v sub, sub, kind, sp)
/-- The first failing check of a list in the order of R365. -/
def firstFail (cs : List (Option EngBad)) : Option EngBad := (cs.find? Option.isSome).join

/-- The fault record of an engine command (R44, R47, R365).  REPLAY is 0 whatever the subcode: TRET never issues a command
again (R47; DEDUCED, log entry 26). -/
def engRec (pc frag act : Nat) (es : List EngBad) : FRec :=
  ⟨pc, 0, act, cENGF, 4, frag, es.map (fun e => (e.1, 0, e.2.1, e.2.2.1, e.2.2.2))⟩

/-- Registers a command names (R363): its descriptor, its status register, its sync word's address. -/
def cmdPlan (n : Nat) (x : Cmd) (_ : Gang) (f : Frag) : Plan :=
  let d := (List.range n).map (fun j => f.ur x.a + j)
  let sw := if x.sync then [f.ur x.c] else []
  { useU := d ++ [f.ur x.b] ++ sw, rdU := d ++ sw, scalar := true }

/-- Held commands of a gang (R367). -/
def Gang.heldOps (g : Gang) : Tab Op := g.ops.filter (fun ko => ko.2.held)
/-- Commands in the tile queue of a core (R402). -/
def State.tileCount (s : State) (core : Nat) : Nat := (s.eng.tileQ.filter (fun q => q.1 == core)).length

/-- The checks of a descriptor in the two passes of R365. -/
abbrev EngChecks := List (Option EngBad) × List (Option EngBad)

/-- A sync word inside the block (R333, R365). -/
def State.swOutside (s : State) (g : Gang) (core a : Nat) : Option EngBad :=
  unlessBad (match s.swPlace g core a with | .ok _ => true | .error e => e == subALIGN) a eRANGE 1 2

/-- Starts an unheld or released command: a drain before its first access to .O or .D (R169), else at once.  Phases of an
engine command: 0 queued, 1 draining, 2 ready, 3 performed. -/
def State.startCmd (s : State) (k o : Nat) (go : Msg) : State :=
  match s.op k o with
  | none => s
  | some x =>
    if x.sp < 2 then (s.putOp k o { x with phase := 1 }).startDrain (coreOf k) [(k, o)]
    else (s.putOp k o { x with phase := 2 }).push go

/-- The step of an engine command (R363 to R365): class `cls`, n descriptor registers, the checks of the descriptor, and the
operation built from it.  `sp` of the operation is below 2 when the command accesses .O or .D.  The path's earlier accesses come
first (R169); a path without a live lane in `active` issues no command (R364).  A held tile command enters its queue when it is
released (R433). -/
def cmdStep (what : Instr) (cls n : Nat) (x : Cmd) (check : State → Issue → Gang → List Nat → EngChecks)
    (build : Gang → List Nat → Op → Op) (s : State) : Out :=
  withPlan s (cmdPlan n x) fun i g f _ =>
    if g.active f = 0 then s.finish i g else
    let d := (List.range n).map (fun j => g.u (f.ur x.a + j))
    let sw := g.u (f.ur x.c)
    let core := coreOf i.key
    let c := check s i g d
    let cs := if x.sync then c.1 ++ [unlessBad (sw % 16 == 0) sw eALIGN 1 2] ++ c.2 ++ [s.swOutside g core sw] else c.1 ++ c.2
    match firstFail cs with
    | some b => s.trap i (2 ^ cENGF) (some (engRec i.pc i.frag (g.active f) [b]))
    | none =>
      let y := build g d { Op.blank what i.frag i.pc cls s.cycle g.hm with
        sp := 2, act := g.active f, desc := d, stReg := f.ur x.b, held := x.hold
        sync := if x.sync then (match s.swPlace g core sw with | .ok (c, a) => some (c * 2 ^ 24 + a) | .error _ => none) else none }
      if g.count cls = 255 ∨ (x.hold ∧ 16 ≤ g.heldOps.length) ∨ (cls = 3 ∧ !x.hold ∧ 32 ≤ s.tileCount core)
          ∨ g.memOwed true then s.hold i g .room
      else
        let o := g.newOp
        let s := s.finish i { g.bump cls with nextOp := o + 1, ops := g.ops ++ [(o, y)] }
        let s := if cls = 3 ∧ !x.hold then { s with eng := { s.eng with tileQ := s.eng.tileQ ++ [(core, i.key, o)] } } else s
        if x.hold then s
        else s.startCmd i.key o (y.goMsg i.key o)

/-! ### Accesses of an engine -/

/-- A command being performed: the state so far, what failed (CODE and entry), lines of other devices to fetch first, writes
to other devices, destination bytes performed here, status flags, whether it must be tried again, its results, and, when not
zero, that a second part follows once its writes are performed (R200); the lines here that it has asked for, and of those it has
written the bytes and whether they are poisoned. -/
structure EngX where
  st : State
  key : Nat
  fetched : Tab Nat
  bad : Option (Nat × EngBad)
  needs : List (Nat × Nat)
  outs : List (Nat × Nat × Nat × Nat × Bool)
  bytes : Nat
  flags : Nat
  again : Bool
  out : List Nat
  low : Nat
  later : Nat
  seen : List LineId
  cover : List (LineId × Nat × Bool)
  deriving DecidableEq, Repr

/-- A command about to be performed. -/
def State.engX (s : State) (k : Nat) (fetched : Tab Nat) : EngX := ⟨s, k, fetched, none, [], [], 0, 0, false, [], 0, 0, [], []⟩

/-- Where an address of an engine leads. -/
inductive EPlace where
  | line (l : LineId) (off : Nat)
  | remote (ident off : Nat)
  | core (c store off : Nat)
  | bad (sub : Nat)
  | wait
  deriving DecidableEq, Repr

/-- An address of a space from a base and a displacement (R14, R373). -/
def engAddr (sp base : Nat) (disp : Int) : Nat × Option Nat :=
  if sp = 0 ∨ sp = 1 then formAddr sp base disp
  else
    let a : Int := base + disp
    if a < 0 ∨ (2 ^ 32 : Nat) ≤ a then (wrapN 64 a, some subSPACE) else (a.toNat, none)

/-- A W-store offset of the issuing core (R369). -/
def State.wPlace (s : State) (g : Gang) (core a : Nat) : Except Nat Nat :=
  match s.block g.blk, s.launch g.launch with
  | some b, some l => if l.wBytes ≤ a then .error subSPACE else .ok (b.wBase.getD (b.rankOf core) 0 + a)
  | _, _ => .error subSPACE

/-- len bytes from a displacement of an on-core address lie in the block's allocation (R365); .O and .D are not checked. -/
def State.spanOk (s : State) (g : Gang) (core sp base : Nat) (lo : Int) (len : Nat) : Bool :=
  let a : Int := base + lo
  if sp < 2 ∨ len = 0 then true
  else if a < 0 ∨ (2 ^ 32 : Nat) ≤ a then false
  else match s.launch g.launch with
    | none => false
    | some l =>
      match sp with
      | 2 => (match s.hPlace g core a.toNat with | .ok _ => decide (fld a.toNat 0 20 + len ≤ l.shBytes) | .error _ => false)
      | 4 => decide (a.toNat + len ≤ l.aBytes)
      | 5 => decide (a.toNat + len ≤ l.cBytes)
      | _ => decide (a.toNat + len ≤ l.wBytes)
/-- n rows of w bytes at a stride lie in the block's allocation; those of .H may lie at several of its cores (R28). -/
def State.rowsOk (s : State) (g : Gang) (core sp base : Nat) (stride : Int) (n w : Nat) : Bool :=
  if sp < 2 then true else (List.range n).all (fun i => s.spanOk g core sp base (i * stride) w)

/-- Resolves an address of a gang's engine command: kind 0 read, 1 write.  A .O address is looked up as a core's is (R27, R58);
an earlier request of its line and a key being retired are waited for (R59, R152). -/
def State.engPlace (s : State) (key sp a kind : Nat) : State × EPlace :=
  match s.gang key with
  | none => (s, .bad subSPACE)
  | some g =>
    let core := coreOf key
    match sp with
    | 0 =>
      let ident := a / 2 ^ 36
      let off := a % 2 ^ 36
      if 128 ≤ fld a 56 8 ∨ fld a 36 20 = 0 then (s, .bad subBADPTR)
      else
        let (s, here) := s.lookHere ident
        if !here then (s, .remote ident off) else
        let s := s.otcFill ident off
        let l := s.objLineOf ident off
        if s.coh.retiring = some l.key ∨ s.lineAsked l then (s, .wait)
        else match s.ownerChk ident off with
          | some e => (s, .bad e)
          | none => (s, .line l (off % 128))
    | 1 =>
      let sa := s.space g
      if 2 ^ 57 ≤ a then (s, .bad subNONCANON) else
      (match s.dieTranslate (dieOf core) sa.1 sa.2 a kind with
       | (s, .error e) => (s, .bad e)
       | (s, .ok t) => match s.physChk t a kind with
         | .ok l o => (s, .line l o)
         | .bad e => (s, .bad e)
         | _ => (s, .wait))
    | 2 => (match s.hPlace g core a with
      | .error e => (s, .bad e)
      | .ok (c, o) => if s.clearing c o then (s, .wait) else (s, .core c 0 o))
    | 7 => (match s.wPlace g core a with | .error e => (s, .bad e) | .ok o => (s, .core core 3 o))
    | _ => (match s.acPlace g core sp a with
      | .error e => (s, .bad e)
      | .ok o => (s, .core core (if sp = 4 then 1 else 2) o))

/-- A command meets its first failure; what follows is not performed (R366). -/
def EngX.fail (x : EngX) (code : Nat) (b : EngBad) : EngX := if x.bad.isSome then x else { x with bad := some (code, b) }
/-- The command goes on. -/
def EngX.ok (x : EngX) : Bool := x.bad.isNone && !x.again
/-- CODE of an owner's or a translation's subcode: 257 stands for a failed peer (R366). -/
def codeOfSub (sub : Nat) : Nat := if sub = 257 then 2 else 1

/-- A line here that the command asks for: its first request is counted (R66), its check value tested (R146), and a read of it
from memory is met (R111). -/
def EngX.line (x : EngX) (s : State) (l : LineId) : EngX × Nat × Bool :=
  let s := if x.seen.contains l then s else s.countLocal l
  let (s, d) := s.chkReceipt l (s.lineNow l)
  ({ x with st := s.memMet l d.2, seen := if x.seen.contains l then x.seen else x.seen ++ [l] }, d.1, d.2)
/-- Bytes of a line written by the command: a line that it has written whole is poisoned only by what it wrote (R111). -/
def EngX.put (x : EngX) (l : LineId) (o n v : Nat) (poison : Bool) (old : Nat × Bool) : EngX :=
  let c := (x.cover.find? (fun q => q.1 == l)).elim (0, false) (·.2)
  let m := c.1 ||| maskOf o n
  let p := c.2 || poison
  { x with st := (x.st.noteWrite l).lineSet l (linePut old.1 o n v) (p || (old.2 && m != lineFull)), bytes := x.bytes + n
           cover := (l, m, p) :: x.cover.filter (fun q => q.1 != l) }
/-- What the command has written of a line at another device, over the bytes fetched. -/
def EngX.written (x : EngX) (ident off : Nat) (d : Nat) : Nat :=
  x.outs.foldl (fun d o => if o.1 = ident ∧ o.2.1 = off then lineMerge d o.2.2.1 o.2.2.2.1 else d) d

/-- An engine's read of n bytes that lie in one line: value, and whether they were uncorrectable. -/
def EngX.read (x : EngX) (sp n base : Nat) (disp : Int) : EngX × Nat × Bool :=
  if !x.ok then (x, 0, false) else
  let fa := engAddr sp base disp
  match fa.2 with
  | some e => (x.fail 1 (fa.1, e, 0, sp), 0, false)
  | none =>
    match x.st.engPlace x.key sp fa.1 0 with
    | (s, .line l o) => let r := x.line s l; (r.1, lineGet r.2.1 o n, r.2.2)
    | (s, .core c st o) => let d := s.onRead c st o n; ({ x with st := s }, d.1, d.2)
    | (s, .remote ident o) =>
      (match x.fetched.get (ident * 2 ^ 29 + o / 128) with
       | some v =>
         let e := v / 2 ^ 1025
         if e = 0 then ({ x with st := s }, lineGet (x.written ident (o / 128 * 128) (v % 2 ^ 1024)) (o % 128) n, bit v 1024)
         else (x.fail (codeOfSub e) (fa.1, e, 0, sp), 0, false)
       | none => ({ x with st := s, needs := if x.needs.contains (ident, o / 128 * 128) then x.needs else x.needs ++ [(ident, o / 128 * 128)] }, 0, false))
    | (s, .bad e) => ({ x with st := s }.fail (codeOfSub e) (fa.1, e, 0, sp), 0, false)
    | (s, .wait) => ({ x with st := s, again := true }, 0, false)

/-- An engine's write of n bytes that lie in one line. -/
def EngX.write (x : EngX) (sp n base : Nat) (disp : Int) (v : Nat) (poison : Bool) : EngX :=
  if !x.ok then x else
  let fa := engAddr sp base disp
  match fa.2 with
  | some e => x.fail 1 (fa.1, e, 1, sp)
  | none =>
    match x.st.engPlace x.key sp fa.1 1 with
    | (s, .line l o) => let r := x.line s l; r.1.put l o n v poison r.2
    | (s, .core c st o) => { x with st := s.onWrite c st o n v, bytes := x.bytes + n }
    | (s, .remote ident o) => { x with st := s, outs := x.outs ++ [(ident, o / 128 * 128, linePut 0 (o % 128) n v, maskOf (o % 128) n, poison)] }
    | (s, .bad e) => { x with st := s }.fail (codeOfSub e) (fa.1, e, 1, sp)
    | (s, .wait) => { x with st := s, again := true }

/-- Reads n bytes, four at a time or fewer; n may be odd at the end.  The address of the first word that is uncorrectable. -/
def EngX.readBytes (x : EngX) (sp n base : Nat) (disp : Int) : EngX × Nat × Option Nat :=
  (List.range ((n + 3) / 4)).foldl (fun (acc : EngX × Nat × Option Nat) j =>
    let r := acc.1.read sp (min 4 (n - 4 * j)) base (disp + 4 * j)
    (r.1, acc.2.1 + r.2.1 * 256 ^ (4 * j),
      if acc.2.2.isNone && r.2.2 then some (engAddr sp base (disp + 4 * j)).1 else acc.2.2)) (x, 0, none)
/-- Reads n bytes that must be sound: the first word that is not fails with DATAERR at its address (R366). -/
def EngX.readSound (x : EngX) (sp n base : Nat) (disp : Int) : EngX × Nat :=
  let r := x.readBytes sp n base disp
  (match r.2.2 with | some a => r.1.fail 3 (a, 0, 0, sp) | none => r.1, r.2.1)
/-- Writes n bytes, four at a time or fewer. -/
def EngX.writeBytes (x : EngX) (sp n base : Nat) (disp : Int) (v : Nat) (poison : Bool) : EngX :=
  (List.range ((n + 3) / 4)).foldl (fun x j =>
    x.write sp (min 4 (n - 4 * j)) base (disp + 4 * j) (v / 256 ^ (4 * j) % 256 ^ (min 4 (n - 4 * j))) poison) x

/-- Writes to other devices, one request a line. -/
def mergeOuts (outs : List (Nat × Nat × Nat × Nat × Bool)) : List (Nat × Nat × Nat × Nat × Bool) :=
  outs.foldl (fun acc o =>
    match acc.find? (fun p => p.1 == o.1 && p.2.1 == o.2.1) with
    | some _ => acc.map (fun p => if p.1 == o.1 && p.2.1 == o.2.1 then
        (p.1, p.2.1, lineMerge p.2.2.1 o.2.2.1 o.2.2.2.1, p.2.2.2.1 ||| o.2.2.2.1, p.2.2.2.2 || o.2.2.2.2) else p)
    | none => acc ++ [o]) []

/-- Requests of this device that serve a command. -/
def State.cmdReqs (s : State) (k o : Nat) : Bool := s.fab.reqs.any (fun r => r.2.cont == .cmd k o)

/-- Counts bytes at a command's sync word (R334). -/
def State.countBytes (s : State) (k o : Nat) (x : Op) (n : Nat) : State :=
  match x.sync with
  | some a => if n = 0 then s else s.push (.syncWordCount (a / 2 ^ 24) (a % 2 ^ 24) n k o)
  | none => s

/-- CODE of a failure: an attention or state-store command that needs a unit the part lacks ends UNITABS (R384). -/
def Op.codeFor (x : Op) (code : Nat) (b : EngBad) : Nat := if b.2.1 = 256 ∧ 4 ≤ x.cls then 10 else code

/-- Performs a command: with lines of other devices still to be fetched nothing is kept and they are asked for; else its
effects stand, its remote writes leave, its bytes are counted, and it awaits their answers; a second part that follows is kept
in `bin`. -/
def State.engRun (s : State) (k o : Nat) (go : Msg) (f : Op → EngX → EngX) : State :=
  match s.op k o with
  | none => s
  | some y =>
    let x := f y (s.engX k y.fetched)
    if x.again then s.after 16 go
    else if !x.needs.isEmpty then
      x.needs.foldl (fun s n => s.newReq n.1 n.2 .read (.cmd k o)) s
    else
      let b := x.bad.getD (0, (0, 0, 0, 0))
      let y := { y with phase := if x.later = 0 then 3 else 2, code := if y.code = 0 then y.codeFor b.1 b.2 else y.code, flags := y.flags ||| x.flags
                        bin := if y.cls = 5 then x.later else y.bin, fetched := if x.later = 0 then y.fetched else []
                        out := x.out, pcnt := y.pcnt + x.low
                        errAddr := b.2.1, errSub := b.2.2.1, errKind := b.2.2.2.1, errSp := b.2.2.2.2 }
      let s := x.st.putOp k o y
      let s := (mergeOuts x.outs).foldl (fun s w => s.newReq w.1 w.2.1 (.write w.2.2.1 w.2.2.2.1 w.2.2.2.2) (.cmd k o)) s
      let s := s.countBytes k o y x.bytes
      if s.cmdReqs k o then s else if x.later ≠ 0 then s.after 16 go else s.push (.engineCompletion k o)

/-- A command meets a failure outside its accesses. -/
def Op.fails (x : Op) (code : Nat) (b : EngBad) : Op :=
  if x.code ≠ 0 then x else { x with code := x.codeFor code b, errAddr := b.1, errSub := b.2.1, errKind := b.2.2.1, errSp := b.2.2.2 }

/-! ### Presenting (R366) -/

/-- The status word. -/
def Op.status (x : Op) : Nat := x.code * 2 ^ 28 + x.flags % 16 * 2 ^ 24 + x.pcnt % 2 ^ 24

/-- Presents a completed command: status, counter, sample, and the cause of its CODE. -/
def State.presentEng1 (s : State) (k o : Nat) (x : Op) : State :=
  match s.gang k with
  | none => s
  | some g =>
    let g := ({ g with ops := g.ops.erase o } : Gang).unbump x.cls
    let s := { s with eng := { s.eng with tileQ := s.eng.tileQ.filter (fun q => !(q.2.1 == k && q.2.2 == o)) } }
    let s := if x.cls = 3 ∧ s.tileCount (coreOf k) ≠ 0 then s.push (.tilePassStart (coreOf k)) else s
    if g.retired then (s.putGang k g).checkBlock g.blk
    else
      let g := (x.res.zip x.out).foldl (fun g rv => g.setU rv.1 rv.2) (g.setU x.stReg x.status)
      let s := (s.putGang k g).sample k (x.cls + 3) (s.cycle - x.issued)
      let rec1 := some (engRec x.pc x.frag x.act [(x.errAddr, x.errSub, x.errKind, x.errSp)])
      match x.code with
      | 1 => s.raiseLate k x (if x.errSub = 256 then 2 ^ cUNITABS else 2 ^ cENGF) rec1
      | 2 => ((match s.gang k with | some g => s.putGang k { g with peerlost := true } | none => s)).raiseLate k x (2 ^ cPEERLOST)
          (some (peerRec x.pc x.frag 0 false true x.act s.peerSub [(x.errAddr, 0, x.errKind, x.errSp)])) |>.drawn
      | 3 => s.raiseLate k x (2 ^ cENGF) rec1
      | 4 => s.raiseLate k x (2 ^ cENGF) (some (engRec x.pc x.frag x.act []))
      | 10 => s.raiseLate k x (2 ^ cUNITABS) none
      | _ => s

/-- Presents the completed commands of a class in issue order (R331). -/
def State.presentEng (s : State) (k cls : Nat) : Nat → State
  | 0 => s
  | n + 1 =>
    match (s.gang k).bind (fun g => g.headOf cls) with
    | some ko => (s.presentEng1 k ko.1 ko.2).presentEng k cls n
    | none => s

/-- A performed command whose requests have all been answered completes. -/
def State.completeCmd (s : State) (k o : Nat) : State :=
  match s.op k o with
  | none => s
  | some x => if s.cmdReqs k o then s else (s.putOp k o { x with done := true }).presentEng k x.cls 256

end Sys2Proof.Machine
end

