-- ==== Sys2Proof/Machine/Copy.lean ====
section
/-! DEFINITION. The copy engine and the bins (R367, R370 to R375). -/

namespace Sys2Proof.Machine

/-! ### Formats (R97, R98, R369) -/

/-- Bits of an element of a tile format. -/
def tileBits (f : Nat) : Nat := match f with | 0 => 4 | 1 => 8 | 2 => 8 | 3 => 8 | 4 => 16 | 5 => 16 | 7 => 4 | _ => 32
/-- Planes P of an activation format. -/
def tilePlanes (f : Nat) : Nat := match f with | 0 => 4 | 1 => 8 | 2 => 3 | 3 => 4 | 4 => 8 | 5 => 11 | _ => 24
/-- The floating-point format of a code. -/
def tileFmt (f : Nat) : Option Fmt := match f with | 2 => some e5m2 | 3 => some e4m3 | 4 => some bf16 | 5 => some f16 | 6 => some f32 | _ => none
/-- Group size Z (R97). -/
def groupBytes (f : Nat) : Nat := 32 * tilePlanes f + (if f < 2 then 0 else 512)
/-- Image size of a weight format (R99). -/
def imageBytes (f : Nat) : Nat := match f with | 0 => 32768 | 1 => 65536 | 2 => 65536 | 3 => 65536 | 7 => 34816 | _ => 131072
/-- Bytes of n elements of a format in a source row. -/
def elemBytes (f n : Nat) : Nat := (tileBits f * n + 7) / 8

/-- Exponent field of a float element. -/
def expField (m : Fmt) (v : Nat) : Nat := fld v m.fbits (m.width - 1 - m.fbits)
/-- The significand bits that the planes hold (R97, R98). -/
def planeBits (f v : Nat) : Nat :=
  match tileFmt f with
  | none => v
  | some m => v % 2 ^ m.fbits + (if expField m v = 0 then 0 else 2 ^ m.fbits)
/-- The side word of an element (R98). -/
def sideWord (f v : Nat) : Nat :=
  match tileFmt f with
  | none => 0
  | some m => (if bit v (m.width - 1) then 2 ^ 15 else 0) + (if isSpecial m v then 2 ^ 14 else 0) + max 1 (expField m v)

/-- One plane group of up to 256 elements, the rest zero (R97). -/
def planeGroup (f : Nat) (es : List Nat) : Nat :=
  let idx := List.range 256
  let plane (j : Nat) : Nat := idx.foldl (fun a e => if bit (planeBits f (es.getD e 0)) j then a + 2 ^ e else a) 0
  let planes := (List.range (tilePlanes f)).foldl (fun a j => a + plane j * 2 ^ (256 * j)) 0
  planes + (if f < 2 then 0 else idx.foldl (fun a e => a + sideWord f (es.getD e 0) * 2 ^ (16 * e)) 0 * 2 ^ (256 * tilePlanes f))

/-! ### Checks at issue (R372, R374, R375) -/

def cwSsp (cw : Nat) : Nat := fld cw 0 4
def cwDsp (cw : Nat) : Nat := fld cw 4 4
def cwFmt (cw : Nat) : Nat := fld cw 16 4
def cwPsh (cw : Nat) : Nat := fld cw 20 4
def cwBin (cw : Nat) : Nat := fld cw 24 8

/-- The five copy commands. -/
inductive CopyKind where
  | flat | rows | gather | planes | quant
  deriving DecidableEq, Repr

/-- Destination spaces of a command (R372). -/
def CopyKind.dests (c : CopyKind) : List Nat := match c with | .planes => [4, 7] | .quant => [0, 1, 7] | _ => [0, 1, 2, 4, 7]
/-- Descriptor registers (R372). -/
def CopyKind.regs (c : CopyKind) : Nat := match c with | .flat => 6 | .gather => 10 | _ => 9

/-- NB of a gang's block (R370). -/
def State.nbins (s : State) (g : Gang) : Nat := match s.launch g.launch with | some l => l.nbins | none => 0

/-- A copy's descriptor read into its parts. -/
structure CopyDesc where
  src : Nat
  dst : Nat
  ssp : Nat
  dsp : Nat
  fmt : Nat
  n5 : Nat
  n6 : Nat
  n7 : Nat
  n8 : Nat
  n9 : Nat
  deriving DecidableEq, Repr

def copyDesc (d : List Nat) : CopyDesc :=
  let r (n : Nat) := d.getD n 0
  ⟨r 0 + 2 ^ 32 * r 1, r 2 + 2 ^ 32 * r 3, cwSsp (r 4), cwDsp (r 4), cwFmt (r 4), r 5, r 6, r 7, r 8, r 9⟩

/-- The strides of a command: S32 for CPY2 and the destination of CPYG, else N32 (R372; DEDUCED, log entry 20: a register is S32
where a rule says so, and R374 and R375 bound these strides from below). -/
def CopyDesc.sstr (c : CopyDesc) (k : CopyKind) : Int := if k = .rows then sextN 32 c.n7 else c.n7
def CopyDesc.dstr (c : CopyDesc) (k : CopyKind) : Int := if k = .rows ∨ k = .gather then sextN 32 c.n8 else c.n8

/-- The registers after CW: ranges, then alignments (R372, R374, R375). -/
def copyOwn (k : CopyKind) (c : CopyDesc) : List (Option EngBad) :=
  let desc (ok : Bool) (v : Nat) := unlessBad ok v eDESC 1 0
  let algn (n v : Nat) := unlessBad (v % n == 0) v eALIGN 1 0
  let gq := k = .planes ∧ c.dsp = 7 ∧ c.fmt = 7
  match k with
  | .flat => [desc (decide (c.n5 ≤ 0xFFFFFC)) c.n5, algn 4 c.n5]
  | .rows => [desc (decide (4 ≤ c.n5 ∧ c.n5 ≤ 65536)) c.n5, algn 4 c.n5, desc (decide (c.n6 ≤ 65536)) c.n6, algn 4 c.n7, algn 4 c.n8]
  | .gather => [desc (decide (4 ≤ c.n5 ∧ c.n5 ≤ 65536)) c.n5, algn 4 c.n5, desc (decide (c.n6 ≤ 65536)) c.n6, algn 4 c.n7, algn 4 c.n8,
      unlessBad (c.n9 % 4 == 0) c.n9 eALIGN 1 2]
  | .planes =>
    if c.dsp = 4 then [desc (decide (1 ≤ c.n5 ∧ c.n5 ≤ 65536)) c.n5, desc (decide (1 ≤ c.n6 ∧ c.n6 ≤ 65536)) c.n6, algn 4 c.n7, desc (c.n8 == 0) c.n8]
    else if gq then [desc (c.n5 == 256) c.n5, desc (decide (1 ≤ c.n6 ∧ c.n6 ≤ 256)) c.n6, desc (decide (8576 ≤ c.n7)) c.n7, algn 128 c.n7,
      desc (decide (c.n8 < 16384)) c.n8, algn 256 c.n8]
    else [desc (decide (1 ≤ c.n5 ∧ c.n5 ≤ 256)) c.n5, desc (decide (1 ≤ c.n6 ∧ c.n6 ≤ (if c.fmt = 6 then 128 else 256))) c.n6, algn 4 c.n7,
      desc (c.n8 == 0) c.n8]
  | .quant =>
    if c.dsp = 7 then [desc (decide (1 ≤ c.n5 ∧ c.n5 ≤ 256)) c.n5, desc (decide (1 ≤ c.n6 ∧ c.n6 ≤ 256)) c.n6, algn 4 c.n7, desc (c.n8 == 0) c.n8]
    else [desc (decide (1 ≤ c.n5 ∧ c.n5 ≤ 16384)) c.n5, desc (decide (1 ≤ c.n6 ∧ c.n6 ≤ 65536)) c.n6, algn 4 c.n7,
      desc (decide (8576 ≤ c.n8)) c.n8, algn 128 c.n8]

/-- The ranges of source and destination, and what else needs several registers (R365).  An on-core address with a bit of [63:32] set
lies outside the allocation: RANGE (DEDUCED, log entry 20). -/
def copyPair (s : State) (i : Issue) (g : Gang) (k : CopyKind) (c : CopyDesc) : List (Option EngBad) :=
  let core := coreOf i.key
  -- an on-core address is a 32-bit offset (R14)
  let src (ok : Bool) := unlessBad (ok && decide (c.ssp < 2 ∨ c.src < 2 ^ 32)) c.src eRANGE 0 c.ssp
  let dst (ok : Bool) := unlessBad (ok && decide (c.dsp < 2 ∨ c.dst < 2 ^ 32)) c.dst eRANGE 1 c.dsp
  let total := unlessBad (decide (c.n5 * c.n6 ≤ 0xFFFFFC)) c.n5 eDESC 1 0
  match k with
  | .flat => [src (s.spanOk g core c.ssp c.src 0 c.n5), dst (s.spanOk g core c.dsp c.dst 0 c.n5)]
  | .rows => [src (s.rowsOk g core c.ssp c.src (c.sstr k) c.n6 c.n5), dst (s.rowsOk g core c.dsp c.dst (c.dstr k) c.n6 c.n5), total]
  | .gather => [src true, dst (s.rowsOk g core c.dsp c.dst (c.dstr k) c.n6 c.n5), total,
      unlessBad (s.spanOk g core 2 c.n9 0 (4 * c.n6)) c.n9 eRANGE 1 2]
  | .planes =>
    if c.dsp = 4 then [src (s.rowsOk g core c.ssp c.src (c.sstr k) c.n5 (elemBytes c.fmt c.n6)),
      dst (s.spanOk g core 4 c.dst 0 (c.n5 * ((c.n6 + 255) / 256) * groupBytes c.fmt))]
    else if c.fmt = 7 then [src (s.rowsOk g core c.ssp c.src (c.sstr k) c.n6 8576), dst (s.spanOk g core 7 c.dst 0 (imageBytes 7))]
    else [src (s.rowsOk g core c.ssp c.src (c.sstr k) c.n5 (elemBytes c.fmt c.n6)), dst (s.spanOk g core 7 c.dst 0 (imageBytes c.fmt))]
  | .quant => [src (s.rowsOk g core c.ssp c.src (c.sstr k) c.n5 (elemBytes c.fmt c.n6)),
      dst (if c.dsp = 7 then s.spanOk g core 7 c.dst 0 (imageBytes 7) else true)]

/-- Alignment of the destination (R372, R374, R375). -/
def dstAlign (k : CopyKind) (dsp : Nat) : Nat :=
  match k with
  | .planes => if dsp = 7 then 1024 else 32
  | .quant => if dsp = 7 then 1024 else 128
  | _ => 4
/-- Formats a command accepts (R374, R375); 0 where the command has none (R372). -/
def copyFmtOk (k : CopyKind) (c : CopyDesc) : Bool :=
  match k with
  | .planes => decide (c.fmt ≤ 6) || (c.fmt == 7 && c.dsp == 7)
  | .quant => c.fmt == 4 || c.fmt == 6
  | _ => true

def copyCheck (k : CopyKind) (hold : Bool) (s : State) (i : Issue) (g : Gang) (d : List Nat) : EngChecks :=
  let c := copyDesc d
  let cw := d.getD 4 0
  let noFmt := k = .flat ∨ k = .rows ∨ k = .gather
  ([unlessBad (c.src % (if k = .planes ∧ c.dsp = 7 ∧ c.fmt = 7 then 128 else 4) == 0) c.src eALIGN 0 c.ssp,
    unlessBad (c.dst % dstAlign k c.dsp == 0) c.dst eALIGN 1 c.dsp,
    unlessBad (fld cw 8 8 == 0 && (hold || fld cw 20 12 == 0) && (!decide noFmt || c.fmt == 0)) cw eDESC 1 0,
    unlessBad (!hold || decide (cwBin cw < s.nbins g)) (cwBin cw) eBIN 1 0,
    unlessBad (copyFmtOk k c) cw eFMT 1 0,
    unlessBad ([0, 1, 2, 4].contains c.ssp) c.src eSPACE 0 c.ssp,
    unlessBad (k.dests.contains c.dsp) c.dst eSPACE 1 c.dsp] ++ copyOwn k c, copyPair s i g k c)

/-- The operation of a copy: its bin, and whether it meets .O or .D. -/
def copyBuild (k : CopyKind) (_ : Gang) (d : List Nat) (x : Op) : Op :=
  let c := copyDesc d
  { x with sp := if c.ssp < 2 ∨ c.dsp < 2 then 1 else 2, bin := cwBin (d.getD 4 0)
           pcnt := 0, n := if k = .flat then 5 else 6 }

def copyCmd (what : Instr) (k : CopyKind) (x : Cmd) (s : State) : Out :=
  cmdStep what 2 k.regs x (copyCheck k x.hold) (copyBuild k) s

def execCpy (x : Cmd) (s : State) : Out := copyCmd (.cpy x) .flat x s
def execCpy2 (x : Cmd) (s : State) : Out := copyCmd (.cpy2 x) .rows x s
def execCpyg (x : Cmd) (s : State) : Out := copyCmd (.cpyg x) .gather x s
def execCpyp (x : Cmd) (s : State) : Out := copyCmd (.cpyp x) .planes x s
def execCpyq (x : Cmd) (s : State) : Out := copyCmd (.cpyq x) .quant x s

/-! ### Performing a copy (R373 to R375) -/

/-- One word moved: poison follows it to .O and .D, and fails it elsewhere (R373). -/
def copyWord (c : CopyDesc) (so dO : Int) (x : EngX) : EngX :=
  let r := x.read c.ssp 4 c.src so
  if !r.1.ok then r.1
  else if r.2.2 && 2 ≤ c.dsp then r.1.fail 3 ((engAddr c.ssp c.src so).1, 0, 0, c.ssp)
  else r.1.write c.dsp 4 c.dst dO r.2.1 r.2.2
/-- One row of words. -/
def copyRow (c : CopyDesc) (so dO : Int) (n : Nat) (x : EngX) : EngX :=
  (List.range (n / 4)).foldl (fun x (o : Nat) => copyWord c (so + 4 * o) (dO + 4 * o) x) x

/-- A gathered row: its index read, its place checked, its words moved. -/
def gatherRow (c : CopyDesc) (i : Nat) (x : EngX) : EngX :=
  let r := x.read 2 4 c.n9 (4 * i)
  let so : Int := r.2.1 * c.n7
  if !r.1.ok then r.1
  else if r.2.2 then r.1.fail 3 (c.n9 + 4 * i, 0, 0, 2)
  else match r.1.st.gang r.1.key with
    | none => r.1
    | some g =>
      if r.1.st.spanOk g (coreOf r.1.key) c.ssp c.src so c.n5 then copyRow c so (i * c.dstr .gather) c.n5 r.1
      else r.1.fail 1 ((engAddr c.ssp c.src so).1, subSPACE, 0, c.ssp)

/-- Reads a source row or record whole; uncorrectable data fails with DATAERR. -/
def EngX.readRow (x : EngX) (c : CopyDesc) (n : Nat) (disp : Int) : EngX × Nat := x.readSound c.ssp n c.src disp

/-- Reads the source rows of an element matrix: ROWS rows of COLS elements. -/
def readMatrix (k : CopyKind) (c : CopyDesc) (x : EngX) : EngX × List (List Nat) :=
  let w := tileBits c.fmt
  (List.range c.n5).foldl (fun (acc : EngX × List (List Nat)) (i : Nat) =>
    let r := acc.1.readRow c (elemBytes c.fmt c.n6) (i * c.sstr k)
    (r.1, acc.2 ++ [(List.range c.n6).map (fun j => fld r.2 (w * j) w)])) (x, [])

/-- CPYP to the A-store: every row's plane groups (R97). -/
def planesRun (c : CopyDesc) (x : EngX) : EngX :=
  let r := readMatrix .planes c x
  let gs := (c.n6 + 255) / 256
  (r.2.zipIdx).foldl (fun x ri => (List.range gs).foldl (fun x (gi : Nat) =>
    x.writeBytes 4 (groupBytes c.fmt) c.dst (((ri.2 * gs + gi) * groupBytes c.fmt : Nat) : Int)
      (planeGroup c.fmt ((ri.1.drop (256 * gi)).take 256)) false) x) r.1

/-- CPYP to the W-store, FMT 0 to 6: the image of R99. -/
def weightRun (c : CopyDesc) (x : EngX) : EngX :=
  let r := readMatrix .planes c x
  let w := tileBits c.fmt
  let img := (r.2.zipIdx).foldl (fun a ri => (ri.1.zipIdx).foldl (fun a e => a + e.1 * 2 ^ (w * (256 * e.2 + ri.2))) a) 0
  r.1.writeBytes 7 (imageBytes c.fmt) c.dst 0 img false

/-- A GQ4 image from columns of (S, four scales, 256 codes); the columns left are code 7, q 0, S +0 (R99, R374). -/
def gqImage (cols : List (Nat × List Nat × List Nat)) : Nat :=
  (List.range 256).foldl (fun a n =>
    let col := cols.getD n (0, [], [])
    let codes := (List.range 256).foldl (fun b k => b + col.2.2.getD k 7 * 2 ^ (4 * k)) 0
    let qs := (List.range 4).foldl (fun b k => b + col.2.1.getD k 0 * 2 ^ (8 * k)) 0
    a + codes * 2 ^ (1024 * n) + qs * 2 ^ (8 * (32768 + 4 * n)) + col.1 * 2 ^ (8 * (33792 + 4 * n))) 0

/-- CPYP of GQ4 records to the W-store (R374, R245). -/
def recordsRun (c : CopyDesc) (x : EngX) : EngX :=
  let r := (List.range c.n6).foldl (fun (acc : EngX × List (Nat × List Nat × List Nat)) (n : Nat) =>
    let q := acc.1.readRow c 8576 (n * c.sstr .planes)
    let rsv := (List.range 124).find? (fun j => byteField q.2 (8452 + j) 1 != 0)
    let x := match rsv with
      | none => q.1
      | some j => q.1.fail 3 ((engAddr c.ssp c.src (n * c.sstr .planes + (8452 + j : Nat))).1, 0, 0, c.ssp)
    (x, acc.2 ++ [(byteField q.2 8448 4, (List.range 4).map (fun b => byteField q.2 (8192 + c.n8 / 64 + b) 1),
      (List.range 256).map (fun k => fld q.2 (4 * (c.n8 + k)) 4))])) (x, [])
  r.1.writeBytes 7 (imageBytes 7) c.dst 0 (gqImage r.2) false

/-- Splits a column into blocks of 64 with zero fill. -/
def blocksOf (n : Nat) (es : List Nat) : List (List Nat) :=
  (List.range n).map (fun b => (List.range 64).map (fun e => es.getD (64 * b + e) 0))

/-- A record of R245. -/
def gqRecord (q : Quant) (fill : Nat) : Nat :=
  let codes := (List.range 16384).foldl (fun a k => a + ((q.codes.getD (k / 64) []).getD (k % 64) 7) * 2 ^ (4 * k)) 0
  let qs := (List.range 256).foldl (fun a b => a + q.q.getD b fill * 2 ^ (8 * b)) 0
  codes + qs * 2 ^ (8 * 8192) + q.s * 2 ^ (8 * 8448)

/-- CPYQ (R375, R246). -/
def quantRun (c : CopyDesc) (x : EngX) : EngX :=
  let m := if c.fmt = 4 then bf16 else f32
  let r := readMatrix .quant c x
  let nb := if c.dsp = 7 then 4 else (c.n5 + 63) / 64
  let qs := (List.range c.n6).map (fun n => quantise m (blocksOf nb (r.2.map (fun row => row.getD n 0))))
  let x := if qs.any (·.special) then { r.1 with flags := r.1.flags ||| 2 } else r.1
  if c.dsp = 7 then x.writeBytes 7 (imageBytes 7) c.dst 0 (gqImage (qs.map (fun q => (q.s, q.q, q.codes.flatten)))) false
  else (qs.zipIdx).foldl (fun x qn =>
    x.writeBytes c.dsp 8576 c.dst (qn.2 * c.dstr .quant) (gqRecord qn.1 (if qn.1.special then 255 else 0)) false) x

/-- What a copy command performs. -/
def copyRun (k : CopyKind) (y : Op) (x : EngX) : EngX :=
  let c := copyDesc y.desc
  match k with
  | .flat => copyRow c 0 0 c.n5 x
  | .rows => (List.range c.n6).foldl (fun x (i : Nat) => copyRow c (i * c.sstr .rows) (i * c.dstr .rows) c.n5 x) x
  | .gather => (List.range c.n6).foldl (fun x i => gatherRow c i x) x
  | .planes => if c.dsp = 4 then planesRun c x else if c.fmt = 7 then recordsRun c x else weightRun c x
  | .quant => quantRun c x

/-! ### Bins (R370, R371) and CPREL (R367) -/

/-- A bin counter of the issuing core's block. -/
def State.binIndex (s : State) (key : Nat) (g : Gang) (k : Nat) : Nat :=
  match s.block g.blk with | some b => b.binBase.getD (b.rankOf (coreOf key)) 0 + k | none => k
def State.binGet (s : State) (key : Nat) (g : Gang) (k : Nat) : Nat := ((s.core (coreOf key)).bins.get (s.binIndex key g k)).toNat
def State.binSet (s : State) (key : Nat) (g : Gang) (k v : Nat) : State :=
  let c := s.core (coreOf key)
  s.putCore (coreOf key) { c with bins := c.bins.put (s.binIndex key g k) (BitVec.ofNat 32 v) }
/-- A bin number at or above NB. -/
def State.binFault (s : State) (i : Issue) (g : Gang) (f : Frag) (v : Nat) : State :=
  s.trap i (2 ^ cENGF) (some (engRec i.pc i.frag (g.active f) [(engAddrOf v eBIN, eBIN, 1, 0)]))

def execBincl (a b : Nat) (s : State) : Out :=
  withPlan s (uPlan [a, b] []) fun i g f _ =>
    let first := g.u (f.ur a)
    let n := g.u (f.ur b)
    if s.nbins g < first + n then s.binFault i g f first
    else ((List.range n).foldl (fun s j => s.binSet i.key g (first + j) 0) s).finish i g

/-- BINAD: ascending lanes, each seeing the ones before. -/
def execBinad (a b : Nat) (s : State) : Out :=
  withPlan s (fun g f => { useV := [f.vr a, f.vr b], rdV := [f.vr a], rdLanes := g.active f }) fun i g f bad =>
    let ls := laneList (andNot (g.active f) bad)
    match ls.find? (fun l => decide (s.nbins g ≤ g.v (f.vr a) l)) with
    | some l => s.binFault i g f (g.v (f.vr a) l)
    | none =>
      let r := ls.foldl (fun (acc : State × Gang) l =>
        let k := g.v (f.vr a) l
        let n := acc.1.binGet i.key g k
        (acc.1.binSet i.key g k (min (n + 1) 0xFFFFFFFF), acc.2.setV (f.vr b) l n)) (s, g)
      let s' := r.1.finish i r.2
      if bad = 0 then s' else s'.killLanes i.key bad (2 ^ cLANEKILL)

def execBinrd (a b : Nat) (s : State) : Out :=
  withPlan s (uPlan [a] [b]) fun i g f _ =>
    let k := g.u (f.ur a)
    if s.nbins g ≤ k then s.binFault i g f k
    else s.finish i (g.setU (f.ur b) (s.binGet i.key g k))

/-- The patch shift, cap and patched descriptor of a held command (R367): `n` of a copy's operation is the patched register. -/
def Op.patchReg (x : Op) : Nat := if x.cls = 3 then 2 else x.n
def Op.patchShift (x : Op) : Nat := cwPsh (x.desc.getD 4 0)

/-- Releases one held command with a bin's count; it enters its engine's queue now (R433). -/
def State.releaseHeld (s : State) (k o n : Nat) : State :=
  match s.op k o with
  | none => s
  | some x =>
    let cap := x.desc.getD x.patchReg 0
    let v := min (n * 2 ^ x.patchShift) cap
    let y := { x with held := false, desc := x.desc.set x.patchReg v, pcnt := v
                      flags := if cap < n * 2 ^ x.patchShift then x.flags ||| 8 else x.flags }
    let s := s.putOp k o y
    let s := if x.cls = 3 ∧ v ≠ 0 then { s with eng := { s.eng with tileQ := s.eng.tileQ ++ [(coreOf k, k, o)] } } else s
    if v = 0 then (s.putOp k o { y with phase := 3 }).push (.engineCompletion k o)
    else s.startCmd k o (y.goMsg k o)

/-- CPREL (R367): held commands of the bin start in issue order; accesses of the path before it come first (R169), and it waits for
room in the tile queue (R433). -/
def execCprel (a : Nat) (s : State) : Out :=
  withPlan s (uPlan [a] []) fun i g f _ =>
    let k := g.u (f.ur a)
    if s.nbins g ≤ k then s.binFault i g f k
    else
      let es := g.heldOps.filter (fun ko => ko.2.bin == k)
      let n := s.binGet i.key g k
      let tiles := (es.filter (fun ko => ko.2.cls == 3 && n != 0)).length
      if (g.memOwed true && !es.isEmpty) || (tiles != 0 && decide (32 < s.tileCount (coreOf i.key) + tiles)) then s.hold i g .room
      else
        es.foldl (fun s ko => s.releaseHeld i.key ko.1 n) (s.finish i g)

end Sys2Proof.Machine
end

