-- ==== Sys2Proof/Machine/Tile.lean ====
section
/-! DEFINITION. The tile engine (R376 to R382, R401 to R407): its commands, and the events that start a pass and latch a
weight set. -/

namespace Sys2Proof.Machine

/-! ### Descriptors -/

/-- Fields of TCW (R377). -/
def tcwFmt (t : Nat) : Nat := fld t 0 4
def tcwSet (t : Nat) : Nat := fld t 8 1
def tcwQr (t : Nat) : Nat := fld t 12 4
/-- Reserved bits of TCW, with QR when not TMUL.X4.  BIN and PSH of a command that is not held must be zero as in CW, which the table
of TCW does not say (DESIGN CHOICE, log entry 80). -/
def tcwOk (t : Nat) (hold x4 : Bool) : Bool :=
  fld t 4 4 == 0 && fld t 9 3 == 0 && fld t 16 4 == 0 && (x4 || tcwQr t == 0) && (hold || fld t 20 12 == 0)

/-- Rows of the C-store lie in it and in the allocation (R379). -/
def State.crowsOk (s : State) (g : Gang) (crow rows : Nat) : Bool :=
  match s.launch g.launch with
  | some l => decide (crow + rows ≤ 1024 ∧ (crow + rows) * 1024 ≤ l.cBytes)
  | none => false

/-! ### Issue -/

def twldCheck (s : State) (i : Issue) (g : Gang) (d : List Nat) : EngChecks :=
  let woff := d.getD 0 0
  let t := d.getD 1 0
  ([unlessBad (woff % 1024 == 0) woff eALIGN 0 7, unlessBad (tcwOk t false false) t eDESC 1 0,
    unlessBad (decide (tcwFmt t ≤ 7)) t eFMT 1 0],
   [unlessBad (s.spanOk g (coreOf i.key) 7 woff 0 (imageBytes (tcwFmt t))) woff eRANGE 0 7])

/-- TMUL, TMULS and TMUL.X4 (R379, R380). -/
def tmulCheck (hold x4 sparse : Bool) (s : State) (i : Issue) (g : Gang) (d : List Nat) : EngChecks :=
  let ab := d.getD 0 0
  let st := d.getD 1 0
  let rows := d.getD 2 0
  let crow := d.getD 3 0
  let t := d.getD 4 0
  let mb := d.getD 5 0
  let core := coreOf i.key
  let n := if x4 then min 256 rows else rows
  let shape := match s.launch g.launch with
    | some l => decide (tcwQr t % l.rectW + 1 < l.rectW ∧ tcwQr t / l.rectW + 1 < l.rectH)
    | none => false
  ([unlessBad (ab % 32 == 0) ab eALIGN 0 4, unlessBad (st % 32 == 0) st eALIGN 0 4,
    unlessBad (decide (1 ≤ rows ∧ rows ≤ (if x4 then 512 else 1024))) rows eDESC 1 0,
    unlessBad (tcwOk t hold x4) t eDESC 1 0, unlessBad (!hold || decide (cwBin t < s.nbins g)) (cwBin t) eBIN 1 0,
    unlessBad (decide (tcwFmt t ≤ 6)) t eFMT 1 0, unlessBad (!x4 || shape) t eSHAPE 1 0]
    ++ (if sparse then [unlessBad (mb % 32 == 0) mb eALIGN 0 4] else []),
   [unlessBad (s.rowsOk g core 4 ab st n (groupBytes (tcwFmt t))) ab eRANGE 0 4, unlessBad (s.crowsOk g crow n) crow eRANGE 1 0]
    ++ (if sparse then [unlessBad (s.spanOk g core 4 mb 0 (32 * rows)) mb eRANGE 0 4] else []))

def tzeroCheck (s : State) (_ : Issue) (g : Gang) (d : List Nat) : EngChecks :=
  let crow := d.getD 0 0
  let rows := d.getD 1 0
  ([unlessBad (decide (1 ≤ rows ∧ rows ≤ 1024)) rows eDESC 1 0], [unlessBad (s.crowsOk g crow rows) crow eRANGE 1 0])

/-- Fields of RCW (R382). -/
def rcwOfmt (r : Nat) : Nat := fld r 12 4
def rcwDsp (r : Nat) : Nat := fld r 24 4
def rcwNcol (r : Nat) : Nat := fld r 0 8 + 1
def rcwScl (r : Nat) : Bool := bit r 8
def rcwExp (r : Nat) : Bool := bit r 9
def rcwRmax (r : Nat) : Bool := bit r 10
def rcwMaxb (r : Nat) : Bool := bit r 11
/-- Output element size. -/
def ofmtSize (f : Nat) : Nat := match f with | 2 => 1 | 3 => 1 | 4 => 2 | 5 => 2 | _ => 4

def trdCheck (s : State) (i : Issue) (g : Gang) (d : List Nat) : EngChecks :=
  let dst := d.getD 0 0 + 2 ^ 32 * d.getD 1 0
  let crow := d.getD 2 0
  let rows := d.getD 3 0
  let r := d.getD 4 0
  let ds := d.getD 6 0
  let maxo := d.getD 8 0
  let core := coreOf i.key
  let sz := ofmtSize (rcwOfmt r)
  ([unlessBad (dst % sz == 0) dst eALIGN 1 (rcwDsp r), unlessBad (decide (1 ≤ rows ∧ rows ≤ 1024)) rows eDESC 1 0,
    unlessBad (fld r 28 4 == 0 && fld r 16 8 == 0 && (rcwOfmt r != 8 || fld r 8 4 == 0) && (!rcwMaxb r || rcwExp r)) r eDESC 1 0,
    unlessBad (decide (2 ≤ rcwOfmt r ∧ rcwOfmt r ≤ 6) || rcwOfmt r == 8) r eFMT 1 0,
    unlessBad ([0, 1, 2, 4].contains (rcwDsp r)) dst eSPACE 1 (rcwDsp r),
    unlessBad (ds % sz == 0) ds eALIGN 1 (rcwDsp r),
    unlessBad (rcwRmax r || maxo == 0) maxo eDESC 1 0, unlessBad (maxo % 4 == 0) maxo eALIGN 1 2],
   [unlessBad (s.rowsOk g core (rcwDsp r) dst (sextN 32 ds) rows (rcwNcol r * sz)) dst eRANGE 1 (rcwDsp r),
    unlessBad (s.crowsOk g crow rows) crow eRANGE 1 0,
    unlessBad (!rcwRmax r || s.spanOk g core 2 maxo 0 (4 * rows)) maxo eRANGE 1 2])

/-- The operation of a tile command: its bin; for TRD whether it meets .O or .D, and FPCTL.F8OV. -/
def tileBuild (g : Gang) (d : List Nat) (x : Op) : Op :=
  match x.what with
  | .trd _ => { x with sp := if rcwDsp (d.getD 4 0) < 2 then 1 else 2, ext := if f8ov g.fpctl then 1 else 0 }
  | .tmul _ => { x with bin := cwBin (d.getD 4 0) }
  | .tmuls _ => { x with bin := cwBin (d.getD 4 0) }
  | _ => x

def execTwld (x : Cmd) (s : State) : Out := cmdStep (.twld x) 3 2 x twldCheck tileBuild s
def execTmul (x : Cmd) (s : State) : Out := cmdStep (.tmul x) 3 5 x (tmulCheck x.hold false false) tileBuild s
def execTmulX4 (x : Cmd) (s : State) : Out := cmdStep (.tmulX4 x) 3 5 x (tmulCheck false true false) tileBuild s
def execTmuls (x : Cmd) (s : State) : Out := cmdStep (.tmuls x) 3 6 x (tmulCheck x.hold false true) tileBuild s
def execTzero (x : Cmd) (s : State) : Out := cmdStep (.tzero x) 3 2 x tzeroCheck tileBuild s
def execTrd (x : Cmd) (s : State) : Out := cmdStep (.trd x) 3 9 x trdCheck tileBuild s

/-! ### The array (R247, R248, R379) -/

/-- A weight set of a core. -/
def State.wset (s : State) (core n : Nat) : WeightSet := (s.core core).sets.getD n ⟨none, 0, 0, []⟩

/-- The weights of column n of a set as values (R99, R244): a column's elements lie one after another. -/
def weightCol (w : WeightSet) (n : Nat) : List FV :=
  let b := tileBits w.fmt
  let col := Mem.load w.image (32 * b * n) (32 * b)
  let el (k : Nat) : Nat := fld col (b * k) b
  match tileFmt w.fmt with
  | some m => (List.range 256).map (fun k => m.unpack (el k))
  | none =>
    if w.fmt = 7 then
      let cs := Mem.load w.image (32768 + 4 * n) 4
      let sc := Mem.load w.image (33792 + 4 * n) 4
      (List.range 256).map (fun k => gq4Weight (el k) (byteField cs (k / 64) 1) sc)
    else (List.range 256).map (fun k => let x := sextN b (el k); .fin (decide (x < 0)) x.natAbs 0)

/-- Element k of a plane group (R97, R98). -/
def planeVal (f grp k : Nat) : FV :=
  let p := tilePlanes f
  let sig := (List.range p).foldl (fun a j => if bit grp (256 * j + k) then a + 2 ^ j else a) 0
  match tileFmt f with
  | none => let x := sextN p sig; .fin (decide (x < 0)) x.natAbs 0
  | some m =>
    let side := fld grp (256 * p + 16 * k) 16
    if bit side 14 then (if m.ieee && sig % 2 ^ m.fbits == 0 then .inf (bit side 15) else .nan false)
    else .fin (bit side 15) sig ((fld side 0 8 : Int) - m.bias - m.fbits)

/-- The value of an integer term. -/
def FV.toInt : FV → Int
  | .fin n m _ => if n then -(m : Int) else m
  | _ => 0

/-- The accumulator is S32 (R379). -/
def s32Acc (f : Nat) : Bool := decide (f < 2)
/-- The pairings of R379. -/
def pairs (act w : Nat) : Bool :=
  if act < 2 then decide (w < 2) else if act = 6 then w == 6 else decide (2 ≤ w ∧ w ≤ 5) || w == 7
/-- Status flags of R366 from the flags of tacc: FNV 2, FOF 1. -/
def engFlags (fl r : Nat) : Nat := (if isSpecial f32 r && r % 2 ^ 23 != 0 then 2 else 0) + (if bit fl 2 then 1 else 0)

/-- One accumulator through the eight k-blocks of 32 products, those absent left out: its new value and flags. -/
def tileAcc (f : Nat) (prods : List (Option FV)) (c : Nat) : Nat × Nat :=
  (List.range 8).foldl (fun (acc : Nat × Nat) kb =>
    let ps := ((prods.drop (32 * kb)).take 32).filterMap id
    if s32Acc f then
      let r := taccInt acc.1 (ps.map FV.toInt)
      (r.1, acc.2 ||| (if r.2 then 8 else 0))
    else
      let r := tacc acc.1 ps
      (r.1, acc.2 ||| engFlags r.2 r.1)) (c, 0)

/-- A pass on one core: where its activations, accumulators and masks lie. -/
structure Pass where
  core : Nat
  actCore : Nat
  actBase : Nat
  cBase : Nat
  set : Nat
  fmt : Nat
  stride : Nat
  rows : Nat
  mask : Option Nat
  addr : Nat                   -- ABASE
  maddr : Nat                  -- MBASE
  crow : Nat
  deriving DecidableEq, Repr

/-- What a pass gave: state, flags, and the first failing address with its space. -/
structure PassOut where
  st : State
  flags : Nat
  bad : Option (Nat × Nat)
  deriving DecidableEq, Repr

/-- A row: uncorrectable activations or masks write the value of R379 in every accumulator, an uncorrectable C-store word or a
column adder that mismatches again on retry in its own (R379, R406).  R369 has no space code for the C-store, and the record of an
error that names a word or row of it gives SPACE 0 (DESIGN CHOICE, log entry 80). -/
def passRow (p : Pass) (cols : List (List FV)) (acc : PassOut) (i : Nat) : PassOut :=
  let s := acc.st
  let a := s.onRead p.actCore 1 (p.actBase + i * p.stride) (groupBytes p.fmt)
  let m := match p.mask with | some b => s.onRead p.core 1 (b + 32 * i) 32 | none => (0, false)
  let res := s.eng.residueBad
  let s := if res.isEmpty then s else
    ({ s with eng := { s.eng with residueBad := (res.dedup).foldl (fun l j => (l.erase j).erase j) res } } : State).errEvent
      fun d => { d with resrt := errInc d.resrt }
  let rowBad := a.2 || m.2
  let acts := (List.range 256).map (fun k =>
    if p.mask.isSome && !bit m.1 k then none else some (planeVal p.fmt a.1 k))
  let off := p.cBase + 1024 * i
  let row := (s.onRead p.core 2 off (4 * cols.length)).1
  let bad := ((s.core p.core).badWord.filter (fun w => w.1 == 2)).map (·.2)
  let twice (j : Nat) : Bool := decide (2 ≤ res.count j)
  let out := (cols.zipIdx).map (fun (wj : List FV × Nat) =>
    if rowBad || bad.contains (off / 4 + wj.2) || twice wj.2 then (if s32Acc p.fmt then 0x80000000 else f32.nan, 0, true)
    else
      let r := tileAcc p.fmt ((acts.zip wj.1).map (fun aw => aw.1.map (fun v => v.mul aw.2))) (lineGet row (4 * wj.2) 4)
      (r.1, r.2, false))
  let firstOut := (out.zipIdx.find? (fun x => x.1.2.2)).map (fun x => (1024 * (p.crow + i) + 4 * x.2, 0))
  let s := s.onWrite p.core 2 off (4 * cols.length) (out.foldr (fun x v => x.1 % 2 ^ 32 + 2 ^ 32 * v) 0)
  ⟨s, acc.flags ||| orAll (out.map (·.2.1)),
    if acc.bad.isSome then acc.bad
    else match s.firstBad p.actCore 1 (p.actBase + i * p.stride) (groupBytes p.fmt), p.mask with
      | some w, _ => some (p.addr + (w - p.actBase), 4)
      | none, some b => (match s.firstBad p.core 1 (b + 32 * i) 32 with
        | some w => some (p.maddr + (w - b), 4)
        | none => firstOut)
      | none, none => firstOut⟩

def runPass (p : Pass) (s : State) : PassOut :=
  let w := s.wset p.core p.set
  let cols := (List.range (if w.fmt = 6 then 128 else 256)).map (weightCol w)
  (List.range p.rows).foldl (passRow p cols) ⟨s, 0, none⟩

/-- The passes of a TMUL, TMULS or TMUL.X4 command (R379, R380), in the order of the cores. -/
def Op.passes (x : Op) (b : Block) (l : Launch) (core : Nat) : List Pass :=
  let d (n : Nat) := x.desc.getD n 0
  let rank := b.rankOf core
  let one (r ar rows : Nat) (mask : Option Nat) : Pass :=
    ⟨b.cores.getD r 0, b.cores.getD ar 0, b.aBase.getD ar 0 + d 0, b.cBase.getD r 0 + 1024 * d 3, tcwSet (d 4), tcwFmt (d 4), d 1, rows, mask, d 0, d 5, d 3⟩
  match x.what with
  | .tmulX4 _ =>
    let q := tcwQr (d 4)
    [(0, 0), (0, 1), (1, 0), (1, 1)].map (fun (rc : Nat × Nat) =>
      one (q + rc.1 * l.rectW + rc.2) (q + rc.1 * l.rectW) (min 256 (d 2 - 256 * rc.1)) none)
  | .tmuls _ => [one rank rank (d 2) (some (b.aBase.getD rank 0 + d 5))]
  | _ => [one rank rank (d 2) none]

/-- A set that the command cannot use (R379). -/
def Pass.setBad (p : Pass) (s : State) (blk : Nat) : Bool :=
  let w := s.wset p.core p.set
  w.blk != some blk || !pairs p.fmt w.fmt

/-- Performs a multiply command. -/
def tileMul (b : Block) (l : Launch) (blk : Nat) (y : Op) (x : EngX) : EngX :=
  let ps := y.passes b l (coreOf x.key)
  if ps.any (fun p => p.setBad x.st blk) then x.fail 4 (0, 0, 0, 0)
  else ps.foldl (fun x p =>
    let r := runPass p x.st
    let x := { x with st := r.st, flags := x.flags ||| r.flags }
    match r.bad with
    | some a => x.fail 3 (a.1, 0, 0, a.2)
    | none => x) x

/-- TZERO (R381). -/
def tileZero (b : Block) (y : Op) (x : EngX) : EngX :=
  let core := coreOf x.key
  { x with st := x.st.onWrite core 2 (b.cBase.getD (b.rankOf core) 0 + 1024 * y.desc.getD 0 0) (1024 * y.desc.getD 1 0) 0 }

/-- A NaN of a format. -/
def isNanIn (m : Fmt) (v : Nat) : Bool := isSpecial m v && !(m.ieee && v % 2 ^ m.fbits == 0)
/-- An infinity of F32. -/
def isInf32 (v : Nat) : Bool := isSpecial f32 v && v % 2 ^ 23 == 0

/-- An output element of TRD: the read path, then the conversion (R382, R251, R241).  FNV reports a NaN produced and a special
value the conversion met, FOF an overflow of the read path or of the conversion (R366). -/
def trdElem (r f8 s b v : Nat) : Nat × Nat :=
  if rcwOfmt r = 8 then (v, 0)
  else
    let y : Flagged := if rcwExp r then (exp2s v s b, 0) else if rcwScl r then fmul f32 .rne false v s else (v, 0)
    let o := match tileFmt (rcwOfmt r) with
      | some m => cvt (.flt f32) (.flt m) .rne false (f8 == 1) y.1
      | none => (y.1, 0)
    let nan := isNanIn f32 y.1 || isNanIn ((tileFmt (rcwOfmt r)).getD f32) o.1 || bit (y.2 ||| o.2) 4
    let ovf := bit (y.2 ||| o.2) 2
      || (rcwExp r && isInf32 y.1 && !isSpecial f32 v && !isSpecial f32 s && !isSpecial f32 b)
    (o.1, (if nan then 2 else 0) + (if ovf then 1 else 0))

/-- One row of TRD. -/
def trdRow (b : Block) (y : Op) (x : EngX) (i : Nat) : EngX :=
  let d (n : Nat) := y.desc.getD n 0
  let core := coreOf x.key
  let r := d 4
  let nc := rcwNcol r
  let sz := ofmtSize (rcwOfmt r)
  let off := b.cBase.getD (b.rankOf core) 0 + 1024 * (d 2 + i)
  let row := x.st.onRead core 2 off (4 * nc)
  if !x.ok then x
  else if row.2 then x.fail 3 (1024 * (d 2 + i) + ((x.st.firstBad core 2 off (4 * nc)).getD off - off), 0, 0, 0)
  else
    let vs := (List.range nc).map (fun j => lineGet row.1 (4 * j) 4)
    let sc := if rcwScl r then d 5 else f32one
    let sv := vs.map (fun v => f32mul v sc)
    let m := sv.tail.foldl f32max (sv.headD 0)
    -- the maximum that the row gives out or takes as its bias overflows like any result (R366)
    let mfl := if !(rcwRmax r || rcwMaxb r) then 0 else
      (if isNanIn f32 m then 2 else 0)
        + (if (vs.zip sv).any (fun p => isInf32 p.2 && !isSpecial f32 p.1 && !isSpecial f32 sc) && isInf32 m then 1 else 0)
    let bias := if rcwMaxb r then m else d 7
    let dst := d 0 + 2 ^ 32 * d 1
    let es := vs.map (trdElem r y.ext sc bias)
    let x := { x with flags := x.flags ||| mfl ||| orAll (es.map (·.2)) }
    let x := (es.zipIdx).foldl (fun x (e : (Nat × Nat) × Nat) =>
      x.write (rcwDsp r) sz dst (i * sextN 32 (d 6) + (e.2 * sz : Nat)) e.1.1 false) x
    if rcwRmax r then x.write 2 4 (d 8) (4 * i) m false else x

/-- What a tile command other than TWLD performs. -/
def tileRun (y : Op) (x : EngX) : EngX :=
  match x.st.gang x.key with
  | none => x
  | some g =>
    match x.st.block g.blk, x.st.launch g.launch with
    | some b, some l =>
      (match y.what with
       | .tzero _ => tileZero b y x
       | .trd _ => (List.range (y.desc.getD 3 0)).foldl (trdRow b y) x
       | _ => tileMul b l g.blk y x)
    | _, _ => x

/-- TWLD latches its set (R378). -/
def loadRun (y : Op) (x : EngX) : EngX :=
  match x.st.gang x.key with
  | none => x
  | some g =>
    match x.st.block g.blk with
    | none => x
    | some b =>
      let core := coreOf x.key
      let t := y.desc.getD 1 0
      let woff := y.desc.getD 0 0
      let n := imageBytes (tcwFmt t)
      let base := b.wBase.getD (b.rankOf core) 0 + woff
      let img := x.st.onRead core 3 base n
      let c := x.st.core core
      let ws : WeightSet := ⟨some g.blk, tcwFmt t, woff, Mem.store [] 0 n img.1⟩
      let sets := (List.range 2).map (fun k => if k = tcwSet t then ws else c.sets.getD k ⟨none, 0, 0, []⟩)
      let x := { x with st := x.st.putCore core { c with sets := sets } }
      match x.st.firstBad core 3 base n with
      | some w => x.fail 3 (woff + (w - base), 0, 0, 7)
      | none => x

/-! ### The queue (R402, R403) -/

/-- A tile command uses a weight set. -/
def Op.usesSet (x : Op) (n : Nat) : Bool :=
  match x.what with
  | .twld _ => tcwSet (x.desc.getD 1 0) == n
  | .tmul _ => tcwSet (x.desc.getD 4 0) == n
  | .tmuls _ => tcwSet (x.desc.getD 4 0) == n
  | .tmulX4 _ => tcwSet (x.desc.getD 4 0) == n
  | _ => false

/-- C-store rows of a tile command: the first and their number. -/
def Op.tileRows (x : Op) : Nat × Nat :=
  match x.what with
  | .tmul _ => (x.desc.getD 3 0, x.desc.getD 2 0)
  | .tmuls _ => (x.desc.getD 3 0, x.desc.getD 2 0)
  | .tmulX4 _ => (x.desc.getD 3 0, min 256 (x.desc.getD 2 0))
  | .tzero _ => (x.desc.getD 0 0, x.desc.getD 1 0)
  | .trd _ => (x.desc.getD 2 0, x.desc.getD 3 0)
  | _ => (0, 0)
/-- Two tile commands touch a common C-store row or weight set (R376). -/
def Op.touches (x y : Op) : Bool :=
  (x.usesSet 0 && y.usesSet 0) || (x.usesSet 1 && y.usesSet 1)
    || decide (x.tileRows.1 < y.tileRows.1 + y.tileRows.2 ∧ y.tileRows.1 < x.tileRows.1 + x.tileRows.2)
/-- An earlier command of the gang on the same rows or set is still held (R367, R376). -/
def State.heldFirst (s : State) (k o : Nat) (x : Op) : Bool :=
  match s.gang k with
  | none => false
  | some g => g.ops.any (fun ko => decide (ko.1 < o) && ko.2.held && ko.2.cls == 3 && ko.2.touches x)

def Op.isTwld (x : Op) : Bool := match x.what with | .twld _ => true | _ => false

/-- A queued command may start: it is ready, no earlier command of its gang waits or is held on its rows or set, and for TWLD no
earlier one that uses its set. -/
def State.tileReady (s : State) (before : List (Nat × Nat × Nat)) (q : Nat × Nat × Nat) : Bool :=
  match s.op q.2.1 q.2.2 with
  | none => false
  | some x =>
    x.phase == 2 && !s.heldFirst q.2.1 q.2.2 x && before.all (fun p => p.1 != q.1 || (p.2.1 != q.2.1 && (!x.isTwld
      || (match s.op p.2.1 p.2.2 with | some y => !y.usesSet (tcwSet (x.desc.getD 1 0)) | none => true))))

/-- The first command of a core's queue that may start. -/
def State.tileNext (s : State) (core : Nat) : Option (Nat × Nat × Nat) :=
  (s.eng.tileQ.zipIdx.find? (fun q => q.1.1 == core && s.tileReady (s.eng.tileQ.take q.2) q.1)).map (·.1)

/-- Another command may start now that one has been performed. -/
def State.tileKick (s : State) (core : Nat) : State :=
  match s.tileNext core with
  | none => s
  | some q => match s.op q.2.1 q.2.2 with
    | some x => if s.pending.contains (x.goMsg q.2.1 q.2.2) then s else s.push (x.goMsg q.2.1 q.2.2)
    | none => s

/-- Performs a queued tile command and lets the next one start. -/
def State.tileDo (s : State) (q : Nat × Nat × Nat) (go : Msg) (f : Op → EngX → EngX) : State :=
  let s := s.engRun q.2.1 q.2.2 go f
  match s.op q.2.1 q.2.2 with
  | some x => if x.phase = 3 then
      ({ s with eng := { s.eng with tileQ := s.eng.tileQ.filter (fun p => p != q) } }).tileKick q.1 else s
  | none => s

/-- TILE_PASS_START (R401, R402): the first command of the core's queue that may start is performed. -/
def execTilePassStart (s : State) : Out :=
  match s.msg with
  | some (.tilePassStart core) =>
    .next (whenQuiet s (.tilePassStart core) fun s =>
      match s.tileNext core with
      | none => s
      | some q => match s.op q.2.1 q.2.2 with
        | none => s
        | some x => if x.isTwld then s.push (.weightLatch q.2.1 q.2.2) else s.tileDo q (.tilePassStart core) tileRun)
  | _ => .fault .noMessage

/-- WEIGHT_LATCH (R378, R403): a TWLD latches once every earlier command that uses its set has been performed. -/
def execWeightLatch (s : State) : Out :=
  match s.msg with
  | some (.weightLatch k o) =>
    .next (whenQuiet s (.weightLatch k o) fun s =>
      let q := (coreOf k, k, o)
      let before := s.eng.tileQ.takeWhile (fun p => p != q)
      if s.tileReady before q then s.tileDo q (.weightLatch k o) loadRun else s.tileKick (coreOf k))
  | _ => .fault .noMessage

end Sys2Proof.Machine
end

