-- ==== Sys2Proof/Machine/Attn.lean ====
section
/-! DEFINITION. Attention (R384 to R391): its commands, the walks of the page-chain prefetcher (R408 to R414) and the
recomputation of pages (R415 to R418), with their events. -/

namespace Sys2Proof.Machine

/-! ### Descriptors and issue -/

/-- The step of a command of R383 without HOLD and SYNC; `res` result registers from field c. -/
def atStep (what : Instr) (cls n : Nat) (x : Cmd) (res : Nat) (check : State → Issue → Gang → List Nat → EngChecks)
    (sp : Nat) (s : State) : Out :=
  withPlan s (fun g f => let p := cmdPlan n { x with sync := false } g f
                         { p with useU := p.useU ++ (List.range res).map (fun j => f.ur x.c + j) }) fun i _ f _ =>
    match cmdStep what cls n { x with sync := false, hold := false } check
        (fun _ _ y => { y with sp := sp, res := (List.range res).map (fun j => f.ur x.c + j) }) { s with issue := some i } with
    | .next s' => s'
    | _ => s

def noCheck (_ : State) (_ : Issue) (_ : Gang) (_ : List Nat) : EngChecks := ([], [])

def aprefCheck (_ : State) (_ : Issue) (_ : Gang) (d : List Nat) : EngChecks :=
  ([unlessBad (decide (1 ≤ d.getD 2 0 ∧ d.getD 2 0 ≤ 4)) (d.getD 2 0) eDESC 1 0], [])

/-- Checks of ATTN (R388). -/
def attnCheck (s : State) (_ : Issue) (g : Gang) (d : List Nat) : EngChecks :=
  let nq := fld (d.getD 4 0) 0 4 + 1
  ([unlessBad (d.getD 4 0 / 16 == 0) (d.getD 4 0) eDESC 1 0,
    unlessBad (decide (1 ≤ d.getD 7 0 ∧ d.getD 7 0 ≤ 65536)) (d.getD 7 0) eDESC 1 0],
   [unlessBad (s.crowsOk g (d.getD 2 0) nq) (d.getD 2 0) eRANGE 0 0, unlessBad (s.crowsOk g (d.getD 3 0) nq) (d.getD 3 0) eRANGE 1 0])

/-- Checks of AMRG and ARCP (R391): `rows` the register of ROWS, after the row ranges; the last range is the destination. -/
def mergeCheck (n : Nat) (s : State) (_ : Issue) (g : Gang) (d : List Nat) : EngChecks :=
  let rows := d.getD n 0
  ([unlessBad (decide (1 ≤ rows ∧ rows ≤ 1024)) rows eDESC 1 0],
   (List.range n).map (fun j => unlessBad (s.crowsOk g (d.getD j 0) rows) (d.getD j 0) eRANGE (if j + 1 = n then 1 else 0) 0))

def execAplnk (x : Cmd) (s : State) : Out := atStep (.aplnk x) 4 6 x 2 noCheck 0 s
def execApref (x : Cmd) (s : State) : Out := atStep (.apref x) 4 3 x 0 aprefCheck 0 s
def execAttn (x : Cmd) (s : State) : Out := atStep (.attn x) 4 8 x 0 attnCheck 0 s
def execAmrg (x : Cmd) (s : State) : Out := atStep (.amrg x) 4 4 x 0 (mergeCheck 3) 2 s
def execArcp (x : Cmd) (s : State) : Out := atStep (.arcp x) 4 3 x 0 (mergeCheck 2) 2 s

/-! ### Order of a gang's commands (R384) -/

/-- An earlier command of the class of the same gang has not been performed. -/
def State.clsEarlier (s : State) (k o cls : Nat) : Bool :=
  match s.gang k with
  | none => false
  | some g => g.ops.any (fun ko => decide (ko.1 < o) && ko.2.cls == cls && decide (ko.2.phase < 3))

/-- The first command of the class that is ready but not performed looks again. -/
def State.clsKick (s : State) (k cls : Nat) : State :=
  match s.gang k with
  | none => s
  | some g => match g.ops.find? (fun ko => ko.2.cls == cls && decide (ko.2.phase < 3)) with
    | some ko => if ko.2.phase = 2 ∧ !s.pending.contains (ko.2.goMsg k ko.1) then s.push (ko.2.goMsg k ko.1) else s
    | none => s

/-! ### Triples (R390, R391) -/

/-- A partial attention triple: O, M and L. -/
structure Triple where
  o : List Nat
  m : Nat
  l : Nat
  deriving DecidableEq, Repr

def Triple.words (t : Triple) : List Nat := t.o ++ [t.m, t.l]
def tripleOf (ws : List Nat) : Triple := ⟨ws.take 128, ws.getD 128 0, ws.getD 129 0⟩
/-- An empty triple as it is stored (R388). -/
def emptyTriple : Triple := ⟨List.replicate 128 0, f32ninf, 0⟩

/-- FNV for a NaN among F32 values (R366). -/
def nanFlag (ws : List Nat) : Nat := if ws.any (fun w => isSpecial f32 w && w % 2 ^ 23 != 0) then 2 else 0
/-- FNV for a special value among the O and L words of a source row (R366); M of an empty row is one by its rule. -/
def srcFlag (t : Triple) : Nat := if (t.o ++ [t.l]).any (isSpecial f32) then 2 else 0

/-- mrg of R390. -/
def mrg (a b : Triple) : Triple :=
  let m := f32max a.m b.m
  let al := exp2s a.m f32one m
  let be := exp2s b.m f32one m
  ⟨(a.o.zip b.o).map (fun p => f32fma p.1 al (f32mul p.2 be)), m, f32fma a.l al (f32mul b.l be)⟩

/-- Status flags of a merged triple from its two sides: FNV for a NaN, FOF where finite words gave an infinity (R366, R384). -/
def mrgFlags (a b : Option Triple) (t : Triple) : Nat :=
  nanFlag t.words ||| a.elim 0 srcFlag ||| b.elim 0 srcFlag ||| (match a, b with
    | some x, some y => if ((x.words.zip y.words).zip t.words).any (fun w => isInf32 w.2 && !isSpecial f32 w.1.1 && !isSpecial f32 w.1.2)
        then 1 else 0
    | _, _ => 0)

/-- mrg with an empty side given by none. -/
def mrgOpt (a b : Option Triple) : Option Triple :=
  match a, b with
  | none, y => y
  | x, none => x
  | some x, some y => some (mrg x y)

/-- The triple of one page for one query row (R390): its flags beside it.  `q` 128 BF16 values, `kv` the 16 384 bytes of K
and V. -/
def pageTriple (q : List Nat) (nval bpos poslim scale kv : Nat) : Option Triple × Nat :=
  let elem (t d : Nat) := fld kv (16 * (128 * t + d)) 16
  let inc := (List.range nval).filter (fun t => decide (bpos + t < poslim))
  if inc.isEmpty then (none, 0)
  else
    let zs := inc.map (fun t => (List.range 4).foldl (fun (z : Nat × Nat) kb =>
      let r := tacc z.1 ((List.range 32).map (fun e =>
        (bf16.unpack (q.getD (32 * kb + e) 0)).mul (bf16.unpack (elem t (32 * kb + e)))))
      (r.1, z.2 ||| (if bit r.2 2 then 1 else 0))) (0, 0))
    let m := (zs.map (·.1)).tail.foldl f32max ((zs.headD (0, 0)).1)
    let mp := f32mul m scale
    let ws := zs.map (fun z => exp2s z.1 scale mp)
    let l := ws.foldl f32add 0
    let o := (List.range 128).map (fun d => (inc.zip ws).foldl (fun a tw => f32fma tw.2 (elem (32 + tw.1) d * 2 ^ 16) a) 0)
    let t : Triple := ⟨o, mp, l⟩
    let fin := ws.all (fun w => !isSpecial f32 w)
    let ovf := (isInf32 mp && !isSpecial f32 m && !isSpecial f32 scale)
      || (zs.zip ws).any (fun p => isInf32 p.2 && !isSpecial f32 p.1.1 && !isSpecial f32 scale && !isSpecial f32 mp)
      || fin && (isInf32 l || (o.zipIdx).any (fun (w : Nat × Nat) =>
      isInf32 w.1 && inc.all (fun t => !isSpecial bf16 (elem (32 + t) w.2))))
    (some t, orAll (zs.map (·.2)) ||| nanFlag t.words ||| (if ovf then 1 else 0))

/-! ### C-store rows of a gang's block -/

/-- n words of a C-store row of the issuing core, and whether a word is uncorrectable. -/
def State.crowRead (s : State) (k row n : Nat) : List Nat × Bool :=
  match (s.gang k).bind (fun g => s.block g.blk) with
  | none => ([], true)
  | some b =>
    let core := coreOf k
    let r := s.onRead core 2 (b.cBase.getD (b.rankOf core) 0 + 1024 * row) (4 * n)
    ((List.range n).map (fun j => lineGet r.1 (4 * j) 4), r.2)
/-- Words written from the start of a C-store row. -/
def State.crowWrite (s : State) (k row : Nat) (ws : List Nat) : State :=
  match (s.gang k).bind (fun g => s.block g.blk) with
  | none => s
  | some b =>
    let core := coreOf k
    s.onWrite core 2 (b.cBase.getD (b.rankOf core) 0 + 1024 * row) (4 * ws.length) (packBytes (ws.zipIdx.map (fun (w : Nat × Nat) => (4 * w.2, w.1))))

/-- A stored triple read back; empty as R391 says. -/
def State.tripleRead (s : State) (k row : Nat) : Option Triple × Bool :=
  let r := s.crowRead k row 130
  let t := tripleOf r.1
  (if t.l = 0 ∧ t.m = f32ninf then none else some t, r.2)
/-- The C-store address of the first uncorrectable word of a row. -/
def State.crowBad (s : State) (k row n : Nat) : Nat :=
  match (s.gang k).bind (fun g => s.block g.blk) with
  | none => 1024 * row
  | some b =>
    let base := b.cBase.getD (b.rankOf (coreOf k)) 0 + 1024 * row
    1024 * row + ((s.firstBad (coreOf k) 2 base (4 * n)).getD base - base)

/-- AMRG and ARCP over their rows, in ascending order (R391). -/
def amrgRun (k : Nat) (y : Op) (x : EngX) : EngX :=
  let d (n : Nat) := y.desc.getD n 0
  (List.range (d 3)).foldl (fun x i =>
    let a := x.st.tripleRead k (d 0 + i)
    let b := x.st.tripleRead k (d 1 + i)
    if !x.ok then x
    else if a.2 || b.2 then x.fail 3 (x.st.crowBad k ((if a.2 then d 0 else d 1) + i) 130, 0, 0, 0)
    else
      let t := (mrgOpt a.1 b.1).getD emptyTriple
      { x with st := x.st.crowWrite k (d 2 + i) t.words, flags := x.flags ||| mrgFlags a.1 b.1 t }) x
def arcpRun (k : Nat) (y : Op) (x : EngX) : EngX :=
  let d (n : Nat) := y.desc.getD n 0
  (List.range (d 2)).foldl (fun x i =>
    let a := x.st.crowRead k (d 0 + i) 130
    let t := tripleOf a.1
    if !x.ok then x
    else if a.2 then x.fail 3 (x.st.crowBad k (d 0 + i) 130, 0, 0, 0)
    else
      let o := if t.l = 0 then List.replicate 128 0 else t.o.map (fun v => f32div v t.l)
      -- a division by zero is no overflow (R236, R238)
      let ovf := !isSpecial f32 t.l && t.l % 2 ^ 31 != 0 && (t.o.zip o).any (fun w => isInf32 w.2 && !isSpecial f32 w.1)
      { x with st := x.st.crowWrite k (d 1 + i) o, flags := x.flags ||| nanFlag o ||| srcFlag t ||| (if ovf then 1 else 0) }) x

/-! ### Walks (R408 to R414) -/

def kvPage : Nat := 16512
def hdrSucc (h : Nat) : Nat := byteField h 0 8
def hdrBpos (h : Nat) : Nat := byteField h 8 4
def hdrNval (h : Nat) : Nat := byteField h 12 2
def hdrFlags (h : Nat) : Nat := byteField h 14 2
def hdrLinp (h : Nat) : Nat := byteField h 20 8
def hdrTag (h : Nat) : Nat := byteField h 28 8
def hdrLayer (h : Nat) : Nat := byteField h 36 2
def hdrHgrp (h : Nat) : Nat := byteField h 38 2
def hdrDemoted (h : Nat) : Bool := bit (hdrFlags h) 5
def hdrAbsent (h : Nat) : Bool := bit (hdrFlags h) 4
def hdrRecomp (h : Nat) : Bool := bit (hdrFlags h) 7
/-- A malformed page (R385). -/
def pageBad (ptr h : Nat) : Bool :=
  ptr % 2 ^ 36 % kvPage != 0 || decide (32 < hdrNval h ∨ 2 ^ 32 < hdrBpos h + hdrNval h) || fld (hdrFlags h) 0 4 != 0
    || fld (hdrFlags h) 8 8 != 0 || byteField h 40 88 != 0

/-- The header of the predecessor page: a malformed one ends the command with DATAERR (R385). -/
def EngX.aplnkPage (x : EngX) (ptr : Nat) : EngX :=
  if ptr % 2 ^ 36 % kvPage ≠ 0 then x.fail 3 (ptr, 0, 0, 0)
  else
    let r := x.readSound 0 128 ptr 0
    if r.1.ok && r.1.needs.isEmpty && pageBad ptr r.2 then r.1.fail 3 (ptr, 0, 0, 0) else r.1

/-- APLNK at an owner that is this device (R386): the CAS in one step. -/
def aplnkRun (y : Op) (x : EngX) : EngX × Option Nat :=
  let d (n : Nat) := y.desc.getD (2 * n) 0 + 2 ^ 32 * y.desc.getD (2 * n + 1) 0
  let x := x.aplnkPage (d 0)
  let r := x.read 0 8 (d 0) 0
  if !r.1.ok then (r.1, none)
  else (if r.2.1 = d 2 then r.1.write 0 8 (d 0) 0 (d 1) false else r.1, some r.2.1)

/-- APLNK: performed here, or asked of the owner (R386) once the page's header has been read.  One that ends with a CODE other than OK
or MISMATCH leaves its result pair unwritten, which no rule says (DESIGN CHOICE, log entry 80). -/
def State.aplnkGo (s : State) (k o : Nat) (y : Op) : State :=
  let d (n : Nat) := y.desc.getD (2 * n) 0 + 2 ^ 32 * y.desc.getD (2 * n + 1) 0
  let p := d 0
  let give (s : State) (old : Nat) : State :=
    match s.op k o with
    | some z => (s.putOp k o { z with code := if z.code ≠ 0 then z.code else if old = d 2 then 0 else 8, out := [old % 2 ^ 32, old / 2 ^ 32] }).selfInvalidate (coreOf k)
    | none => s
  let h := (s.engX k y.fetched).aplnkPage p
  match s.engPlace k 0 p 1 with
  | (_, .remote ident off) =>
    if !h.ok || !h.needs.isEmpty then s.engRun k o (.engineCompletion k o) (fun _ x => x.aplnkPage p)
    else (h.st.putOp k o { y with phase := 3 }).newReq ident off (.atomic [⟨0, off % 128, 8, 15, d 1, d 2⟩]) (.cmd k o)
  | _ =>
    let r := aplnkRun y (s.engX k y.fetched)
    let s := s.engRun k o (.engineCompletion k o) (fun y x => (aplnkRun y x).1)
    match r.2 with | some old => give s old | none => s

def State.walkOf (s : State) (w : Nat) : Option PeaWalk := s.eng.walks.get w
def State.putWalk (s : State) (w : Nat) (x : PeaWalk) : State := { s with eng := { s.eng with walks := s.eng.walks.set w x } }

/-- A line enters its home slice as RDS by the home die does, one step: another die's M copy becomes O, its E copy S (R129). -/
def State.homeFill (s : State) (l : LineId) : State :=
  let h := s.homeDie l
  if s.slSt h l != .i then s else
  let s := s.countLocal l
  let x := s.lineNow l
  let s := s.memMet l x.2
  let e := (s.dirOf l).withDie h false
  let s := s.putDir { e with own := if s.coh.lines.any (fun y => y.line == l && y.st == .e) then none else e.own }
  let s := { s with coh := { s.coh with lines := s.coh.lines.map (fun (y : SLine) =>
    if y.line ≠ l then y else if y.st = Moesi.m then { y with st := .o } else if y.st = Moesi.e then { y with st := .s } else y) } }
  s.install h l .s x.1 x.2
/-- Another line can be HELD in a slice: at most 4 of its set and 4 096 of the slice are (R107). -/
def State.holdRoom (s : State) (l : LineId) : Bool :=
  let held := s.coh.lines.filter (fun x => x.held && s.localSlice x.line x.die == s.home l)
  decide (held.length < 4096) && decide ((held.filter (fun x => s.setOf x.line == s.setOf l)).length < 4)
/-- One line of a page here enters its home slice and is HELD; none when a limit of R107 would be exceeded. -/
def State.holdLine (s : State) (ptr j : Nat) : Option State :=
  let off := ptr % 2 ^ 36 + 128 * j
  let l := s.objLineOf (ptr / 2 ^ 36) off
  let h := s.homeDie l
  if (s.ownerChk (ptr / 2 ^ 36) off).isSome then some s
  else if ((s.sl h l).map (·.held)).getD false then some s
  else if !s.holdRoom l then none
  else
    let s := s.homeFill l
    match s.sl h l with
    | some y => some (s.putSl { y with held := true })
    | none => some s
/-- One line of a page at another device, as its owner's answer brought it, enters its home slice here as a remote S copy (R132) and
is HELD; nothing is filled while a new pod map is being adopted (R143). -/
def State.holdFar (s : State) (fetched : Tab Nat) (ptr j : Nat) : Option State :=
  let off := ptr % 2 ^ 36 + 128 * j
  let l := objLine (ptr / 2 ^ 36) off 0x3FF
  let h := s.homeDie l
  match s.sl h l, fetched.get l.name with
  | some y, _ => if y.held then some s else if s.holdRoom l then some (s.putSl { y with held := true }) else none
  | none, none => some s
  | none, some v =>
    if s.fab.epochWait ∨ v / 2 ^ 1025 ≠ 0 then some s
    else if !s.holdRoom l then none
    else
      let s := (s.putDir ((s.dirOf l).withDie h false)).install h l .s (v % 2 ^ 1024) (bit v 1024)
      match s.sl h l with
      | some y => some (s.putSl { y with held := true })
      | none => some s
/-- The lines of a page at another device enter their home slices and are HELD (R113, R409 steps 1 and 3). -/
def State.holdPageFar (s : State) (fetched : Tab Nat) (ptr : Nat) : Option State :=
  (List.range 129).foldl (fun (a : Option State) j => a.bind (fun s => s.holdFar fetched ptr j)) (some s)
/-- The lines of a page here enter their home slices and are HELD (R113, R409 step 3); none when Pea must wait (R114). -/
def State.holdPage (s : State) (ptr : Nat) : Option State :=
  (List.range 129).foldl (fun (a : Option State) j => a.bind (fun s => s.holdLine ptr j)) (some s)
/-- A walk or the holds of an APREF keep a page. -/
def State.pageKept (s : State) (ptr : Nat) : Bool :=
  s.eng.walks.any (fun w => w.2.pages.any (fun q => q.ptr == ptr && (q.st == 1 || q.st == 4)))
    || s.eng.holds.any (fun h => h.2.2.2.contains ptr)
/-- The lines of a page are released (R410), unless another walk keeps them. -/
def State.freePage (s : State) (ptr : Nat) : State :=
  if s.pageKept ptr then s else
  let mine (l : LineId) : Bool := l.obj && l.ident == ptr / 2 ^ 36 && decide (ptr % 2 ^ 36 ≤ l.off ∧ l.off < ptr % 2 ^ 36 + kvPage)
  { s with coh := { s.coh with lines := s.coh.lines.map (fun (y : SLine) => if mine y.line then { y with held := false } else y) } }

/-- A page of a walk replaced, added if new. -/
def PeaWalk.setPage (x : PeaWalk) (p : WalkPage) : PeaWalk :=
  { x with pages := x.pages.filter (fun q => q.p != p.p) ++ [p] }
def PeaWalk.page (x : PeaWalk) (p : Nat) : Option WalkPage := x.pages.find? (fun q => q.p == p)
/-- The lowest page whose triples are not yet computed. -/
def PeaWalk.lowest (x : PeaWalk) : Nat := (x.pages.filter (fun q => q.st != 5)).foldl (fun a q => min a q.p) x.idx

/-- Asks for the next header as far as R408 lets it. -/
def State.walkOn (s : State) (w : Nat) : State :=
  match s.walkOf w with
  | none => s
  | some x =>
    if x.ended || x.pages.any (fun q => q.st == 0 || q.st == 6 || q.st == 7) || (!x.apref && decide (x.lowest + 4 < x.idx)) then s
    else (s.putWalk w { (x.setPage ⟨x.idx, x.next, 0, 0⟩) with idx := x.idx + 1 }).push (.headerReturn w x.idx)

/-- The pages an APREF holds at its end (R387, R410): they pass to the next ATTN of the gang with the same HEAD, or lapse after
2^20 cycles. -/
def State.leaveHolds (s : State) (x : PeaWalk) : State :=
  let held := (x.pages.filter (fun q => q.st == 4)).map WalkPage.ptr
  if !x.apref || held.isEmpty then s else
  let head := match s.op x.g x.op with | some y => y.desc.getD 0 0 + 2 ^ 32 * y.desc.getD 1 0 | none => 0
  let s := { s with eng := { s.eng with holds := s.eng.holds ++ [(x.g, head, s.cycle + 2 ^ 20, held)] } }
  s.after (2 ^ 20) (.holdLapse x.g head)

/-- A walk is over: its pages are released, and the next waiting command of the die gets it.  What an ATTN takes over from an
APREF is released with it. -/
def State.walkEnd (s : State) (w : Nat) (x : PeaWalk) : State :=
  let s := { s with eng := { s.eng with walks := s.eng.walks.erase w
                                        regens := s.eng.regens.map (fun (r : Regen) => { r with joined := r.joined.filter (· != w) }) } }
  let s := s.leaveHolds x
  let s := if x.apref then s else
    let passed := s.eng.holds.filter (fun h => h.1 == x.g && h.2.2.1 == 0)
    let s := { s with eng := { s.eng with holds := s.eng.holds.filter (fun h => !passed.contains h) } }
    (x.pages.map WalkPage.ptr ++ passed.flatMap (fun h => h.2.2.2)).foldl (fun s p => s.freePage p) s
  match s.eng.walkQ.find? (fun (q : Nat × Nat) => dieOf (coreOf q.1) == dieOf (coreOf x.g)) with
  | some q => ({ s with eng := { s.eng with walkQ := s.eng.walkQ.filter (· != q) } }).push (.peaWalkStart q.1 q.2)
  | none => s

/-- A command of a walk is performed: it completes, and the gang's next one may start. -/
def State.walkDone (s : State) (w : Nat) (x : PeaWalk) (code : Nat) (b : EngBad) (flags pcnt : Nat) : State :=
  let s := match s.op x.g x.op with
    | some y => s.putOp x.g x.op { (y.fails code b) with phase := 3, flags := y.flags ||| flags, pcnt := pcnt }
    | none => s
  ((s.walkEnd w x).push (.engineCompletion x.g x.op)).clsKick x.g 4

/-- A walk fails (R389): no result row is written. -/
def State.walkFail (s : State) (w code : Nat) (b : EngBad) : State :=
  match s.walkOf w with
  | none => s
  | some x => s.walkDone w x code b 0 0

/-- An APREF completes when every page it walks is held or left (R387). -/
def State.aprefCheck (s : State) (w : Nat) : State :=
  match s.walkOf w with
  | none => s
  | some x =>
    if x.apref && x.ended && x.pages.all (fun q => q.st == 4 || q.st == 5) then
      s.walkDone w x 0 (0, 0, 0, 0) 0 (x.pages.filter (fun q => q.st == 4)).length
    else s

/-- Every page step of a walk that waits for lines of another device looks again. -/
def State.pokeWalk (s : State) (w : Nat) : State :=
  match s.walkOf w with
  | none => s
  | some x => x.pages.foldl (fun s q =>
    let m : Msg := match q.st with | 0 | 6 => .headerReturn w q.p | 2 | 7 => .promotionCheck w q.p | _ => .attnItem w q.p
    if (2 < q.st ∧ q.st < 6) ∨ s.pending.contains m then s else s.push m) s

/-- PEA_WALK_START (R408): a command gets a walk of its die, or waits for one. -/
def execPeaWalkStart (s : State) : Out :=
  match s.msg with
  | some (.peaWalkStart k o) =>
    (match s.op k o with
     | none => .next s
     | some y =>
       if y.phase ≠ 2 then .next s
       else match s.eng.walks.find? (fun w => w.2.g == k && w.2.op == o) with
       | some w => .next (s.pokeWalk w.1)
       | none =>
         if s.clsEarlier k o 4 then .next s
         else if 256 ≤ (s.eng.walks.filter (fun w => dieOf (coreOf w.2.g) == dieOf (coreOf k))).length then
           .next (if s.eng.walkQ.contains (k, o) then s else { s with eng := { s.eng with walkQ := s.eng.walkQ ++ [(k, o)] } })
         else
           let head := y.desc.getD 0 0 + 2 ^ 32 * y.desc.getD 1 0
           let apref := match y.what with | .apref _ => true | _ => false
           let w := s.eng.nextWalk
           let nq := if apref then 0 else fld (y.desc.getD 4 0) 0 4 + 1
           let x : PeaWalk := ⟨k, o, apref, [], head, 0, if apref then y.desc.getD 2 0 else y.desc.getD 7 0, 0, 0,
             List.replicate nq none, [], 0, false⟩
           -- holds of an APREF of the same chain pass to this ATTN (R387)
           let s := if apref then s else
             { s with eng := { s.eng with holds := s.eng.holds.map (fun h => if h.1 = k ∧ h.2.1 = head then (h.1, h.2.1, 0, h.2.2.2) else h) } }
           .next (({ s with eng := { s.eng with nextWalk := w + 1, walks := s.eng.walks.set w x } }).walkOn w))
  | _ => .fault .noMessage

/-- Reads of a walk: lines of other devices are asked for under its command, those of APREF as prefetches, and a failure ends it.
A prefetch that a migration drops leaves the walk of its APREF at that page (R78). -/
def State.walkRead (s : State) (w : Nat) (x : PeaWalk) (q : WalkPage) (n ptr : Nat) (disp : Int) (go : Msg)
    (f : State → Nat → Option Nat → State) : State :=
  match s.op x.g x.op with
  | none => s
  | some y =>
    let r := (s.engX x.g y.fetched).readBytes 0 n ptr disp
    if r.1.again then s.after 16 go
    else if !r.1.needs.isEmpty then
      r.1.needs.foldl (fun s nd => if s.fab.reqs.any (fun q => q.2.cont == .cmd x.g x.op && q.2.req.ident == nd.1 && q.2.req.off == nd.2) then s
        else s.newReq nd.1 nd.2 (if x.apref then .prefetch else .read) (.cmd x.g x.op)) s
    else match r.1.bad with
      | some (c, b) =>
        if x.apref ∧ b.2.1 = 300 then (r.1.st.putWalk w { x.setPage { q with st := 5 } with ended := true }).aprefCheck w
        else r.1.st.walkFail w c b
      | none => f r.1.st r.2.1 r.2.2

/-! ### Regeneration (R415 to R418) -/

/-- Fields of RCRT.n (R415). -/
def rcrtEn (v : Nat) : Bool := bit v 0
def rcrtMax (v : Nat) : Nat := fld v 1 3 + 1
def rcrtTmpl (v : Nat) : Nat := fld v 7 39 * 128
def rcrtLayer (v : Nat) : Nat := fld v 48 16

/-- The lowest enabled entry for a layer. -/
def State.rcrtFor (s : State) (layer : Nat) : Option Nat :=
  (List.range 16).find? (fun n => rcrtEn (s.dcb.rcrt.getD n 0) && rcrtLayer (s.dcb.rcrt.getD n 0) == layer)

/-- A template's record with the uniform registers of the page's routine, s0 to s6, in its UPRE (R417, R422). -/
def regenRecord (tmpl ptr h : Nat) : Nat :=
  linePut tmpl 192 28 (packBytes [(0, ptr), (8, hdrLinp h), (16, hdrBpos h), (20, hdrNval h), (24, hdrLayer h), (26, hdrHgrp h)])

/-- Enqueues a regeneration's launch on queue 63 (R417 step 3): the template's record written to the ring, TAIL advanced.  What
happens when that ring is full is not stated: the record is written and TAIL advances all the same (DESIGN CHOICE, log entry 81). -/
def State.enqueueRegen (s : State) (r : Regen) : State :=
  let c := s.dcb.lqcfg.getD 63 0
  let p := s.dcb.lqptr.getD 63 0
  let tmpl := rcrtTmpl (s.dcb.rcrt.getD r.entry 0)
  let rec1 := regenRecord (s.physRead 0 tmpl 256).1 r.ptr r.hdr
  let s := s.physMet 0 tmpl 256
  let s := s.physWrite 0 (lqBase c + 256 * (lqTail p % lqSize c)) 256 rec1
  let s := { s with dcb := { s.dcb with lqptr := s.dcb.lqptr.set 63 (lqHead p + 2 ^ 32 * ((lqTail p + 1) % 2 ^ 32)) } }
  ((s.push .launchAccept).after s.dcb.regto (.regenTimeout r.ptr))

/-- A walk that waits for a regeneration loses it (R418): an ATTN ends with DATAERR, an APREF leaves the page to the ATTN that uses it
(R387). -/
def State.regenLost (s : State) (ptr w : Nat) : State :=
  match s.walkOf w with
  | none => s
  | some x =>
    if !x.apref then s.walkFail w 3 (ptr, 0, 0, 0)
    else ({ s with eng := { s.eng with walks := s.eng.walks.set w { x with pages := x.pages.map (fun q =>
      if q.ptr = ptr ∧ q.st = 3 then { q with st := 5 } else q) } } } : State).aprefCheck w

/-- The waiting requests of the engine, in arrival order: each takes an enabled entry with room, or fails without one
(R416, R417 step 2). -/
def State.regenSelect (s : State) : State :=
  s.eng.regens.foldl (fun s r0 =>
    match s.eng.regens.find? (fun r => r.ptr == r0.ptr) with
    | none => s
    | some r =>
      if r.enq then s else
      match s.rcrtFor (hdrLayer r.hdr) with
      | none =>
        let s := { s with eng := { s.eng with regens := s.eng.regens.filter (fun q => q.ptr != r.ptr) } }
        r.joined.foldl (fun s w => s.regenLost r.ptr w) s
      | some n =>
        if rcrtMax (s.dcb.rcrt.getD n 0) ≤ (s.eng.regens.filter (fun q => q.enq && q.entry == n)).length then s
        else
          let r := { r with entry := n, index := lqTail (s.dcb.lqptr.getD 63 0), enq := true, start := s.cycle }
          ({ s with eng := { s.eng with regens := s.eng.regens.map (fun (q : Regen) => if q.ptr = r.ptr then r else q) } }).enqueueRegen r) s

/-- A regeneration fails (R418). -/
def State.regenFail (s : State) (ptr : Nat) : State :=
  match s.eng.regens.find? (fun r => r.ptr == ptr) with
  | none => s
  | some r =>
    let s := { s with eng := { s.eng with regens := s.eng.regens.filter (fun q => q.ptr != ptr) } }
    (r.joined.foldl (fun s w => s.regenLost ptr w) s).regenSelect

/-- The regeneration whose routine a gang belongs to. -/
def State.routineOf (s : State) (k : Nat) : Option Regen :=
  ((s.gang k).bind (fun g => s.launch g.launch)).bind (fun l => l.regen.bind (fun n =>
    s.eng.regens.find? (fun r => r.enq && r.index == n && !r.ended)))

/-- A page is handed to the engine, or its walk ends (R389, R417, R418).  A page that may not be regenerated needs no engine, and
ends the ATTN with DATAERR on either part; an APREF leaves it, and every page that failed its tag, to the ATTN that uses it (R387);
an ATTN of a routine that reaches a page being regenerated ends, and the routine's regeneration fails (DEDUCED, log entry 77). -/
def State.toRegen (s : State) (w : Nat) (x : PeaWalk) (q : WalkPage) (failed : Bool) : State :=
  if x.apref && (failed || !hdrRecomp q.hdr || !Config.isA1) then (s.putWalk w (x.setPage { q with st := 5 })).aprefCheck w
  else if !hdrRecomp q.hdr then s.walkFail w 3 (q.ptr, 0, 0, 0)
  else if !Config.isA1 then s.walkFail w 10 (q.ptr, 0, 0, 0)
  else
    match s.eng.regens.find? (fun r => r.ptr == q.ptr) with
    | some r =>
      if !x.apref && (s.routineOf x.g).isSome then
        (match s.routineOf x.g with
         | some mine => (s.walkFail w 3 (q.ptr, 0, 0, 0)).regenFail mine.ptr
         | none => s)
      else
        let s := s.putWalk w (x.setPage { q with st := 3 })
        { s with eng := { s.eng with regens := s.eng.regens.map (fun (z : Regen) => if z.ptr = r.ptr then { z with joined := z.joined ++ [w] } else z) } }
    | none =>
      let s := s.putWalk w (x.setPage { q with st := 3 })
      ({ s with eng := { s.eng with regens := s.eng.regens ++ [(⟨q.ptr, 0, 0, false, none, s.cycle, [w], q.hdr, false, []⟩ : Regen)] } }).regenSelect

/-- A page of which every line that may be is HELD, or none of them: it goes on to its slice, or the walk pauses at it (R410). -/
def State.heldOn (w : Nat) (x : PeaWalk) (q : WalkPage) (go : Msg) (s : State) : Option State → State
  | none => (s.putWalk w (x.setPage q)).after 64 go
  | some s =>
    if x.apref then (s.putWalk w (x.setPage { q with st := 4 })).aprefCheck w
    else (s.putWalk w (x.setPage { q with st := 1 })).push (.attnItem w q.p)
/-- Step 3 of R409 for a page: its lines fill their home slices and are HELD; those of another device are read first. -/
def State.holdOrWait (s : State) (w : Nat) (x : PeaWalk) (q : WalkPage) (go : Msg) : State :=
  if s.objHere (q.ptr / 2 ^ 36) then State.heldOn w x q go s (s.holdPage q.ptr)
  else
    let x := x.setPage q
    (s.putWalk w x).walkRead w x q 16384 q.ptr 128 go fun s _ _ =>
      State.heldOn w x q go s (s.holdPageFar (((s.op x.g x.op).map (·.fetched)).getD []) q.ptr)

/-- HEADER_RETURN (R112, R409, R411): the header is read once and checked, so the walk uses the page that its predecessor named when it
was read; its page is filled, promoted or handed to the recomputation engine, and the
walk goes on; it pauses at a page that cannot be held yet (R114, R410). -/
def execHeaderReturn (s : State) : Out :=
  match s.msg with
  | some (.headerReturn w p) =>
    .next (whenQuiet s (.headerReturn w p) fun s =>
      match s.walkOf w with
      | none => s
      | some x => match x.page p with
        | none => s
        | some q =>
          if q.st = 6 then (s.holdOrWait w x q (.headerReturn w p)).walkOn w
          else if q.st ≠ 0 then s else
          s.walkRead w x q 128 (q.ptr / 128 * 128) 0 (.headerReturn w p) fun s h poison =>
            if let some a := poison then s.walkFail w 3 (a, 0, 0, 0)
            else if pageBad q.ptr h then s.walkFail w 3 (q.ptr, 0, 0, 0)
            else
              let q := { q with hdr := h }
              let x := { x with next := hdrSucc h, ended := hdrSucc h == 0 || decide (x.limit ≤ x.idx) }
              let s := if hdrAbsent h then s.toRegen w (x.setPage q) q false
                else if hdrDemoted h then (s.putWalk w (x.setPage { q with st := 2 })).push (.promotionCheck w p)
                else s.holdOrWait w x { q with st := 6 } (.headerReturn w p)
              s.walkOn w)
  | _ => .fault .noMessage

/-- The lines of K and V of a page that failed its tag go without write-back (R113). -/
def State.dropPage (s : State) (ptr : Nat) : State :=
  if !s.objHere (ptr / 2 ^ 36) then s else
  (List.range 128).foldl (fun s j =>
    let l := s.objLineOf (ptr / 2 ^ 36) (ptr % 2 ^ 36 + 128 * (j + 1))
    let s := { s with coh := { s.coh with lines := s.coh.lines.filter (fun y => y.line != l) } }
    s.putDir { s.dirOf l with pres := 0, own := none }) s

/-- PROMOTION_CHECK (R113): the CRC-64 over K and V against the header's TAG.  The lines of a page that fails are dropped, unless it
is being regenerated or another walk keeps it. -/
def execPromotionCheck (s : State) : Out :=
  match s.msg with
  | some (.promotionCheck w p) =>
    .next (whenQuiet s (.promotionCheck w p) fun s =>
      match s.walkOf w with
      | none => s
      | some x => match x.page p with
        | none => s
        | some q =>
          if q.st = 7 then (s.holdOrWait w x q (.promotionCheck w p)).walkOn w
          else if q.st ≠ 2 then s else
          s.walkRead w x q 16384 q.ptr 128 (.promotionCheck w p) fun s kv poison =>
            if Config.ddrSize = 0 then s.walkFail w 10 (q.ptr, 0, 0, 0)
            else if poison.isNone && crc64 (byteList 16384 kv) == hdrTag q.hdr then
              s.holdOrWait w x { q with st := 7 } (.promotionCheck w p)
            else
              (if s.eng.regens.any (fun r => r.ptr == q.ptr) || s.pageKept q.ptr then s else s.dropPage q.ptr).toRegen w x q true)
  | _ => .fault .noMessage

/-- The 128 BF16 values of a query row (R388). -/
def queryRow (ws : List Nat) : List Nat := ws.flatMap (fun w => [w % 2 ^ 16, w / 2 ^ 16])

/-- A page that an ATTN took over from an APREF is held for it no longer (R410). -/
def State.unpass (s : State) (k ptr : Nat) : State :=
  { s with eng := { s.eng with holds := s.eng.holds.map (fun h =>
      if h.1 = k ∧ h.2.2.1 = 0 then (h.1, h.2.1, 0, h.2.2.2.filter (· != ptr)) else h) } }

/-- ATTN_ITEM (R112, R390, R410, R412): the page's slice reads the bytes as they stand in it, also of a slot used anew, and computes the triples of every query row; they return to the merge unit. -/
def execAttnItem (s : State) : Out :=
  match s.msg with
  | some (.attnItem w p) =>
    .next (whenQuiet s (.attnItem w p) fun s =>
      match s.walkOf w with
      | none => s
      | some x => match x.page p, s.op x.g x.op with
        | some q, some y =>
          if q.st ≠ 1 then s
          else if x.merged + 64 ≤ p then s.after 64 (.attnItem w p)
          else
          s.walkRead w x q 16384 q.ptr 128 (.attnItem w p) fun s kv poison =>
            let d (n : Nat) := y.desc.getD n 0
            let rows := (List.range x.run.length).map (fun r => s.crowRead x.g (d 2 + r) 64)
            if let some a := poison then s.walkFail w 3 (a, 0, 0, 0)
            else if let some r := rows.zipIdx.find? (·.1.2) then s.walkFail w 3 (s.crowBad x.g (d 2 + r.2) 64, 0, 0, 0)
            else
              let ts := rows.map (fun r => pageTriple (queryRow r.1) (hdrNval q.hdr) (hdrBpos q.hdr) (d 6) (d 5) kv)
              let s := ((s.putWalk w (x.setPage { q with st := 5 })).unpass x.g q.ptr).freePage q.ptr
              (s.push (.tripleReturn w p (ts.map (fun t => t.1.map Triple.words)) (orAll (ts.map (·.2))))).walkOn w
        | _, _ => s)
  | _ => .fault .noMessage

/-- Merges the pages of the window that are next in order (R413). -/
def PeaWalk.mergeOn (x : PeaWalk) : Nat → PeaWalk
  | 0 => x
  | n + 1 =>
    match x.window.find? (fun t => t.1 == x.merged) with
    | none => x
    | some t =>
      let run := (x.run.zip t.2).map (fun (ab : Option (List Nat) × Option (List Nat)) =>
        (mrgOpt (ab.1.map tripleOf) (ab.2.map tripleOf)).map Triple.words)
      PeaWalk.mergeOn { x with run := run, merged := x.merged + 1, window := x.window.filter (fun q => q.1 != t.1)
                               flags := x.flags ||| orAll (((x.run.zip t.2).zip run).map (fun r =>
                                 mrgFlags (r.1.1.map tripleOf) (r.1.2.map tripleOf) (tripleOf (r.2.getD emptyTriple.words)))) } n

/-- TRIPLE_RETURN (R413): triples merge in page order; after the last, the result rows are written.  The count of pages regenerated
saturates like that of pages merged, which alone R389 says (DESIGN CHOICE, log entry 80). -/
def execTripleReturn (s : State) : Out :=
  match s.msg with
  | some (.tripleReturn w p ts flags) =>
    (match s.walkOf w with
     | none => .next s
     | some x =>
       let x := PeaWalk.mergeOn { x with window := x.window ++ [(p, ts)], flags := x.flags ||| flags } 65
       let s := s.putWalk w x
       if x.ended && x.merged == x.idx then
         match s.op x.g x.op with
         | none => .next (s.walkEnd w x)
         | some y =>
           let s := (x.run.zipIdx).foldl (fun s (r : Option (List Nat) × Nat) =>
             s.crowWrite x.g (y.desc.getD 3 0 + r.2) (r.1.getD emptyTriple.words)) s
           .next (s.walkDone w x 0 (0, 0, 0, 0) x.flags (min x.merged 4095 * 4096 + min x.regen 4095))
       else .next (s.walkOn w))
  | _ => .fault .noMessage

/-- HOLD_LAPSE (R387, R410): the holds of an APREF end after 2^20 cycles. -/
def execHoldLapse (s : State) : Out :=
  match s.msg with
  | some (.holdLapse k head) =>
    let mine := s.eng.holds.filter (fun h => h.1 == k && h.2.1 == head && decide (h.2.2.1 ≠ 0 ∧ h.2.2.1 ≤ s.cycle))
    let s := { s with eng := { s.eng with holds := s.eng.holds.filter (fun h => !mine.contains h) } }
    .next (mine.foldl (fun s h => h.2.2.2.foldl (fun s ptr => s.freePage ptr) s) s)
  | _ => .fault .noMessage

/-- Cores that hold dirty bytes of an object. -/
def State.dirtyCores (s : State) (ident : Nat) : List Nat :=
  (s.cores.filter (fun c => c.2.l1.any (fun y => y.dirty != 0 && y.line.obj && y.line.ident == ident))).map (·.1)

/-- A page read for its seal: the 129 lines of it here, or as fetched from its owner; none while some are still to be fetched,
`.error` when one cannot be had. -/
def State.sealLines (s : State) (fetched : Tab Nat) (ptr : Nat) : Option (Except Unit (List Nat)) :=
  let ident := ptr / 2 ^ 36
  let line (j : Nat) : LineId := s.objLineOf ident (ptr % 2 ^ 36 + 128 * j)
  if s.objHere ident then
    (if (s.ownerChk ident (ptr % 2 ^ 36)).isSome ∨ (s.ownerChk ident (ptr % 2 ^ 36 + kvPage - 1)).isSome then some (.error ())
     else some (.ok ((List.range 129).map (fun j => (s.lineNow (line j)).1))))
  else
    let got := (List.range 129).map (fun j => fetched.get (objLine ident (ptr % 2 ^ 36 + 128 * j) 0x3FF).name)
    if got.any Option.isNone then none
    else if got.any (fun v => v.any (fun n => n / 2 ^ 1025 != 0)) then some (.error ())
    else some (.ok (got.map (fun v => v.getD 0 % 2 ^ 1024)))

/-- The seal of a page whose 129 lines are given (R417 step 5): TAG and PFLG in one write of its line 0. -/
def State.sealPage (s : State) (ptr : Nat) (ls : List Nat) : State :=
  let h := ls.headD 0
  let kv := ls.tail.foldr (fun v a => v + 2 ^ 1024 * a) 0
  let fl := andNot (byteField h 14 2) 16
  let put (d : Nat) : Nat := linePut (linePut d 14 2 fl) 28 8 (crc64 (byteList 16384 kv))
  let ident := ptr / 2 ^ 36
  let l := s.objLineOf ident (ptr % 2 ^ 36)
  if s.objHere ident then (s.noteWrite l).lineSet l (put h) (s.lineNow l).2
  else s.newReq ident (ptr % 2 ^ 36) (.write (put 0) (maskOf 14 2 ||| maskOf 28 8) false) .none

/-- What a joined command has read of a page before its seal is not used again. -/
def State.unfetch (s : State) (x : PeaWalk) (ptr : Nat) : State :=
  match s.op x.g x.op with
  | none => s
  | some y =>
    let first := ptr / 2 ^ 36 * 2 ^ 29 + ptr % 2 ^ 36 / 128
    s.putOp x.g x.op { y with fetched := y.fetched.filter (fun q => !decide (first ≤ q.1 ∧ q.1 < first + 129)) }

/-- Step 6 of R417 for a joined walk: its page is held and goes on under the header that the walk first read (R411). -/
def State.resumeWalk (s : State) (ptr w : Nat) : State :=
  match s.walkOf w with
  | none => s
  | some x => match x.pages.find? (fun q => q.ptr == ptr && q.st == 3) with
    | none => s
    | some q =>
      let x := { x with regen := x.regen + 1 }
      ((s.unfetch x ptr).holdOrWait w x { q with st := 7 } (.promotionCheck w q.p)).walkOn w

/-- REGEN_SEAL (R417 steps 5 and 6): with the routine's cores drained, TAG and PFLG are written in one step, and the page goes
to every joined walk; the lines of a page of another device are read first. -/
def execRegenSeal (s : State) : Out :=
  match s.msg with
  | some (.regenSeal ptr) =>
    .next (whenQuiet s (.regenSeal ptr) fun s =>
      match s.eng.regens.find? (fun r => r.ptr == ptr) with
      | none => s
      | some r =>
        let dirty := s.dirtyCores (ptr / 2 ^ 36)
        if !r.ended then s
        else if !dirty.isEmpty then (dirty.foldl (fun s c => s.startDrain c []) s).after 64 (.regenSeal ptr)
        else match s.sealLines r.fetched ptr with
        | none =>
          (List.range 129).foldl (fun s j =>
            let off := ptr % 2 ^ 36 + 128 * j
            if s.fab.reqs.any (fun q => q.2.cont == .seal ptr && q.2.req.off == off)
              || r.fetched.has (objLine (ptr / 2 ^ 36) off 0x3FF).name then s
            else s.newReq (ptr / 2 ^ 36) off .read (.seal ptr)) s
        | some (.error _) => s.regenFail ptr
        | some (.ok ls) =>
          let s := s.sealPage ptr ls
          let s := ({ s with eng := { s.eng with regens := s.eng.regens.filter (fun q => q.ptr != ptr) } })
          (r.joined.foldl (fun (s : State) w => s.resumeWalk ptr w) s).regenSelect)
  | _ => .fault .noMessage

/-- REGEN_TIMEOUT (R418): a regeneration runs longer than REGTO; one that has time left is looked at again. -/
def execRegenTimeout (s : State) : Out :=
  match s.msg with
  | some (.regenTimeout ptr) =>
    (match s.eng.regens.find? (fun r => r.ptr == ptr) with
     | some r => .next (if !r.enq || r.ended then s
       else if r.start + s.dcb.regto ≤ s.cycle then s.regenFail ptr
       else if s.timers.any (fun t => t.2 == .regenTimeout ptr && decide (t.1 ≤ r.start + s.dcb.regto)) then s
       else s.after (r.start + s.dcb.regto - s.cycle) (.regenTimeout ptr))
     | none => .next s)
  | _ => .fault .noMessage

/-! ### Completion of every engine command -/

/-- ENGINE_COMPLETION (R366, R373, R384): a command that is ready is performed; a performed command completes and is presented
in issue order. -/
def execEngineCompletion (s : State) : Out :=
  match s.msg with
  | some (.engineCompletion k o) =>
    (match s.op k o with
     | none => .next s
     | some x =>
       let m : Msg := .engineCompletion k o
       let copy (c : CopyKind) : Out :=
         if x.phase = 2 then .next (whenQuiet s m fun s => s.engRun k o m (copyRun c))
         else if x.phase = 3 then .next (s.completeCmd k o) else .next s
       let attn (f : State → State) : Out :=
         if x.phase = 2 then
           (if s.clsEarlier k o 4 then .next s else .next (whenQuiet s m fun s => (f s).clsKick k 4))
         else if x.phase = 3 then .next (s.completeCmd k o) else .next s
       match x.what with
       | .cpy _ => copy .flat
       | .cpy2 _ => copy .rows
       | .cpyg _ => copy .gather
       | .cpyp _ => copy .planes
       | .cpyq _ => copy .quant
       | .amrg _ => attn fun s => s.engRun k o m (amrgRun k)
       | .arcp _ => attn fun s => s.engRun k o m (arcpRun k)
       | .aplnk _ => attn fun s => if s.remoteOwed k o then s.after 16 m else s.aplnkGo k o x
       | _ => if x.phase = 3 then .next (s.completeCmd k o) else .next s)
  | _ => .fault .noMessage

end Sys2Proof.Machine
end

