-- ==== Sys2Proof/Machine/Recovery.lean ====
section
/-! DEFINITION. The recovery domain (R179 to R201): durability waits and commits, the durable queues, the settler, resets of a
compute die and their containment, and the region registers' events. -/

namespace Sys2Proof.Machine

/-! ### Lines of a region -/

/-- Lines of a region with metadata; every other line of it is as LineMeta.fresh, with stamp 0. -/
def State.regionLines (s : State) (n : Nat) : List Nat :=
  let lo := rrdBase (s.rrd n) / 128
  let hi := lo + rrdSize (s.rrd n) / 128
  (s.lmeta.map (·.1)).filter (fun la => decide (lo ≤ la ∧ la < hi))

/-- What a walk of a region finds (R194, R196): V, torn lines, poisoned lines. -/
structure Scan where
  v : Nat
  torn : List Nat
  poisoned : Nat
  deriving DecidableEq, Repr

def State.scanRegion (s : State) (n : Nat) (r : Rcpt) : Scan :=
  let ls := s.regionLines n
  let com := ls.filter (fun la => decide (1 ≤ r.cpt) && (s.lm la).stamp == stampOf r.cpt)
  ⟨com.foldl (fun a la => a ^^^ contrib (la * 128) (s.accLine la).1 (stampOf r.cpt)) 0,
    ls.filter (fun la => (s.lm la).stamp == stampOf r.opt),
    (ls.filter (fun la => (s.accLine la).2)).length⟩

/-- RESULT bits of R197. -/
def Scan.result (x : Scan) (r : Rcpt) : Nat :=
  let l := xorAll r.ldig
  (if x.v = l ∧ l = r.cdig then 1 else 0) + (if l ≠ r.cdig then 2 else 0) + (if x.v ≠ l then 4 else 0)
    + (if x.poisoned ≠ 0 then 8 else 0) + (if x.torn.isEmpty then 0 else 16)

/-- FLAGS bits of an RCPT (R184). -/
def Rcpt.setFlag (r : Rcpt) (i : Nat) (b : Bool) : Rcpt :=
  { r with flags := if b then r.flags ||| 2 ^ i else andNot r.flags (2 ^ i) }
/-- The 64 bytes of an RCPT (R184). -/
def Rcpt.bytes (r : Rcpt) : Nat :=
  packBytes [(0, r.cpt), (8, r.opt), (16, r.cursor), (24, r.cdig), (32, xorAll r.ldig), (40, xorAll r.odig), (48, r.ctime),
    (56, r.flags), (58, r.sweep)]
def State.putRcpt (s : State) (n : Nat) (r : Rcpt) : State := { s with rcv := { s.rcv with rcpt := s.rcv.rcpt.set n r } }
/-- A new RCPT (R180). -/
def Rcpt.fresh : Rcpt := ⟨0, 1, 0, 0, [0, 0, 0, 0], [0, 0, 0, 0], 0, 1, 0⟩
/-! ### The durable queues (R186, R188) -/

/-- DURABLE_ACCEPT: the oldest write on its way to a die is accepted, unless its queue is full or its region is scanned. -/
def State.acceptNext (s : State) (die : Nat) : State :=
  match s.rcv.inflight.find? (fun e => ioDieOf (e.2.1 * 128) == die
      && !(match s.regionOf (e.2.1 * 128) with | some n => s.scanning n | none => false)) with
  | none => if s.rcv.inflight.any (fun e => ioDieOf (e.2.1 * 128) == die) then s.after 16 (.durableAccept die) else s
  | some e =>
    if 8192 ≤ (s.rcv.dq.filter (fun q => q.1 == die)).length then s.after 16 (.durableAccept die)
    else
      let s := { s with rcv := { s.rcv with inflight := s.rcv.inflight.erase e } }
      (s.rcvAccept e.2.1 e.2.2.1 e.2.2.2.1 e.2.2.2.2).push (.durableWriteback die)

/-- The write on its way keeps its key identifier for the check of its line (R153). -/
def execDurableAccept (s : State) : Out :=
  match s.msg with
  | some (.durableAccept die) => .next (s.acceptNext die)
  | _ => .fault .noMessage

/-- DURABLE_WRITEBACK: the oldest queued line of a die goes to memory; its stamp went with its acceptance. -/
def execDurableWriteback (s : State) : Out :=
  match s.msg with
  | some (.durableWriteback die) =>
    .next (match s.rcv.dq.find? (fun e => e.1 == die) with
      | none => s
      | some e =>
        let la := e.2.1
        let s := { s with rcv := { s.rcv with dq := s.rcv.dq.erase e }, mem := Mem.store s.mem (la * 128) 128 e.2.2.1 }
        s.setLm la { s.lm la with poison := e.2.2.2.2, chk := chkOf e.2.2.1, chkv := true })
  | _ => .fault .noMessage

/-! ### RCOMM (R189 to R192) -/

/-- An RCOMM is over: its result, and CODE NOCOMMIT (13) with what it met: flag 1 a failed peer, 2 LOSTW. -/
def State.commitDone (s : State) (c : Commit) (result code flags : Nat) : State :=
  match s.op c.g c.op with
  | none => s
  | some x =>
    (s.putOp c.g c.op { x with phase := 3, code := code, flags := flags, out := [result % 2 ^ 32, result / 2 ^ 32] }).push
      (.blockingAnswer c.g c.op)

/-- The RCOMM at the head of a region's order closes the open point (R190 step 2), unless a sweep must end first (R183). -/
def State.tryClose (s : State) (n : Nat) : State :=
  match s.rcv.order.find? (fun t => match s.rcv.commits.get t with | some c => c.region == n | none => false) with
  | none => s
  | some t =>
    match s.rcv.commits.get t, s.rcv.rcpt.get n with
    | some c, some r =>
      if c.step ≠ 1 then s
      else if 65532 ≤ r.sweep then
        if s.pending.any (fun m => match m with | .settlerSweep n' _ => n' == n | _ => false) then s
        else (List.range 4).foldl (fun s d => s.push (.settlerSweep n d)) s
      else
        let s := { s with rcv := { s.rcv with commits := s.rcv.commits.set t { c with step := 2, left := 4, point := r.opt }
                                              closing := s.rcv.closing.set n 0 } }
        (List.range 4).foldl (fun s d => s.push (.rclose n r.opt d)) s
    | _, _ => s

/-- Every answer of a durability wait is in (R190 step 1, R192).  R192 speaks of a gang that is lost after step 2; an RCOMM whose gang is
lost during step 1 closes the point and commits all the same (DESIGN CHOICE, log entry 83). -/
def State.durable (s : State) (tag : Nat) (c : Commit) : State :=
  let drop := { s with rcv := { s.rcv with commits := s.rcv.commits.erase tag } }
  if c.region = 64 then
    let s := match drop.op c.g c.op with
      | some x => if c.peer then drop.putOp c.g c.op { x with flags := x.flags ||| 16 } else drop
      | none => drop
    s.push (.releaseAcksDone c.g c.op)
  else
    let fail := (match drop.op c.g c.op with | some x => x.flags / 16 % 2 | none => 0) + (if c.peer then 1 else 0)
    if fail ≠ 0 then drop.commitDone c 0 13 1
    else if c.lost then drop.commitDone c 0 13 2
    else ({ s with rcv := { s.rcv with order := s.rcv.order ++ [tag] } }).tryClose c.region

/-- Who hears of lost writes: a gang of this device (log entry 72). -/
def Gang.lostKey (g : Gang) : Nat := 512 + g.launch * 2 ^ 32 + g.g
/-- Another device has lost writes, and tells it to one wait of this device: the other commits under way are lost with it, and every
other gang's next one (log entry 72). -/
def State.lostThere (s : State) (tag : Nat) (c : Commit) : State :=
  let busy (k : Nat) : Bool := s.rcv.commits.any (fun t => t.2.g == k && t.2.step == 1 && t.2.region != 64)
  let keys := (s.gangs.filter (fun kg => !kg.2.retired && kg.1 != c.g && !busy kg.1)).map (fun kg => kg.2.lostKey)
  { s with rcv := { s.rcv with
      lostFor := (s.rcv.lostFor ++ keys).dedup
      commits := s.rcv.commits.map (fun (t : Nat × Commit) => if t.1 ≠ tag ∧ t.2.step = 1 then (t.1, { t.2 with lost := true }) else t) } }

/-- The first answer of a device to a durability wait; it counts once (R190, R201). -/
def State.durAnswer (s : State) (tag dev : Nat) (lost peer : Bool) : State :=
  match s.rcv.commits.get tag with
  | none => s
  | some c =>
    if c.step ≠ 1 ∨ !c.awaited.contains dev then s else
    let s := if lost ∧ dev ≠ s.devNum then s.lostThere tag c else s
    let c := { c with awaited := c.awaited.filter (· != dev), lost := c.lost || lost, peer := c.peer || peer }
    let s := { s with rcv := { s.rcv with commits := s.rcv.commits.set tag c } }
    if c.awaited.isEmpty then s.durable tag c else s

/-- Whom a durability wait serves: the gang of an RCOMM here, or another device, from 256 on; 64 for any other release (log
entry 72). -/
def State.durKey (s : State) (tag src : Nat) : Nat :=
  if src ≠ s.devNum then 256 + src else
  match s.rcv.commits.get tag with
  | some c => if c.region = 64 then 64 else (match s.gang c.g with | some g => g.lostKey | none => 64)
  | none => 64
/-- A message is an RDUR of a durability wait for the same. -/
def State.sameWait (s : State) (key : Nat) (m : Msg) : Bool :=
  match m with | .rdur tag src => s.durKey tag src == key | _ => false

/-- The plane on which an RDUR came (R139). -/
def State.rdurPlane (s : State) (tag src : Nat) : Nat :=
  ((s.rcv.rdurs.find? (fun q => q.1 == src && q.2.1 == tag)).map (fun q => q.2.2)).getD (s.planeFor (src * 2 ^ 32 + tag))
/-- RDUR: answered once every write performed here before it is durable (R189).  LOST answers every wait during a containment
that follows lost writes, and those that wait then or come first after it for each gang and device, also when one is resent (R195,
log entry 72). -/
def execRdur (s : State) : Out :=
  match s.msg with
  | some (.rdur tag src) =>
    let plane := s.rdurPlane tag src
    let rest := s.rcv.rdurs.filter (fun q => !(q.1 == src && q.2.1 == tag))
    if !s.rcv.inflight.isEmpty then
      .next (({ s with rcv := { s.rcv with rdurs := if src = s.devNum then rest else rest ++ [(src, tag, plane)] } }).after 16 (.rdur tag src))
    else
      let s := { s with rcv := { s.rcv with rdurs := rest } }
      let key := s.durKey tag src
      let told := s.rcv.lostTags.contains (src, tag)
      let lost := !s.rcv.lostDie.isEmpty || s.rcv.lostFor.contains key || told
      let s := if lost && !told then { s with rcv := { s.rcv with lostTags := s.rcv.lostTags ++ [(src, tag)] } } else s
      let more := !s.rcv.lostDie.isEmpty || s.pending.any (s.sameWait key) || s.timers.any (fun t => s.sameWait key t.2)
      let s := if more then s else { s with rcv := { s.rcv with lostFor := s.rcv.lostFor.filter (· != key) } }
      .next (if src = s.devNum then s.push (.rdura tag src lost)
        else if s.devSet then s.sendAt plane src .rdura [tag, s.devNum, if lost then 1 else 0] else s)
  | _ => .fault .noMessage

def execRdura (s : State) : Out :=
  match s.msg with
  | some (.rdura tag dev lost) =>
    .next ((s.acked dev (fun o => o.kind == .rdur && o.args.headD 0 == tag)).durAnswer tag dev lost false)
  | _ => .fault .noMessage

/-- RCLOSE at an I/O die: its running digest becomes its live one, and later writes belong to the next point. -/
def execRclose (s : State) : Out :=
  match s.msg with
  | some (.rclose n p die) =>
    .next (match s.rcv.rcpt.get n with
      | none => s
      | some r =>
        let od := r.odig.getD die 0
        let r := { r with ldig := r.ldig.set die od, odig := r.odig.set die 0 }
        let c := (s.rcv.closing.get n).getD 0
        ({ s with rcv := { s.rcv with rcpt := s.rcv.rcpt.set n r, closing := s.rcv.closing.set n (c ||| 2 ^ die) } }).push
          (.rclosa n p die od))
  | _ => .fault .noMessage

/-- The commit record (R190 step 3), in one step: CDIG is the XOR of the four partials at their closes; a write accepted since
has changed the live digest alone. -/
def Rcpt.commit (r : Rcpt) (p cursor now dig : Nat) : Rcpt :=
  { r with cpt := p, opt := p + 1, cursor := cursor, cdig := dig, ctime := now, sweep := r.sweep + 1 }

def execRclosa (s : State) : Out :=
  match s.msg with
  | some (.rclosa n p _die od) =>
    .next (match s.rcv.commits.find? (fun kc => kc.2.region == n && kc.2.step == 2 && kc.2.point == p), s.rcv.rcpt.get n with
      | some (t, c), some r =>
        if 1 < c.left then { s with rcv := { s.rcv with commits := s.rcv.commits.set t { c with left := c.left - 1, dig := c.dig ^^^ od } } }
        else
          let s := { s with rcv := { s.rcv with commits := s.rcv.commits.erase t, order := s.rcv.order.erase t
                                                closing := s.rcv.closing.erase n
                                                rcpt := s.rcv.rcpt.set n (r.commit p c.cursor s.cycle (c.dig ^^^ od)) } }
          (s.commitDone c p 0 0).tryClose n
      | _, _ => s)
  | _ => .fault .noMessage

/-- SETTLER_SWEEP (R183): stamps of earlier points become 0; when the four dies have finished, SWEEP counts from the sweep's
start. -/
def State.settleStamps (s : State) (n die : Nat) (r : Rcpt) : State :=
  (s.regionLines n).foldl (fun s la =>
    let m := s.lm la
    if ioDieOf (la * 128) = die ∧ m.stamp ≠ 0 ∧ m.stamp ≠ stampOf r.cpt ∧ m.stamp ≠ stampOf r.opt then s.setLm la { m with stamp := 0 }
    else s) s

def execSettlerSweep (s : State) : Out :=
  match s.msg with
  | some (.settlerSweep n die) =>
    .next (match s.rcv.rcpt.get n with
      | none => s
      | some r =>
        if rrdBusy (s.rrd n) then s else
        let s := s.settleStamps n die r
        let w := (s.rcv.sweeps.get n).getD (16 * r.sweep)
        let w := w ||| 2 ^ die
        if w % 16 = 15 then
          (({ s with rcv := { s.rcv with sweeps := s.rcv.sweeps.erase n } }).putRcpt n { r with sweep := r.sweep - w / 16 }).tryClose n
        else { s with rcv := { s.rcv with sweeps := s.rcv.sweeps.set n w } })
  | _ => .fault .noMessage

/-! ### Resets of a compute die (R195 to R197, R472) -/

/-- Messages of the cores and slices of a die. -/
def Msg.ofDie (d : Nat) : Msg → Bool
  | .l1Writeback core _ _ _ _ _ => dieOf core == d
  | .drn _ die _ _ => die == d
  | .rclr die _ _ => die == d
  | .rds _ die | .rdo _ die _ | .upg _ die _ | .wbd _ die _ _ | .evc _ die => die == d
  | .weightLatch g _ | .peaWalkStart g _ | .loadReturn g _ | .engineCompletion g _ => dieOf (coreOf g) == d
  | .tilePassStart core | .levelSample core => dieOf core == d
  | _ => false

/-- The gangs of a die: killed with DIERESET, whatever they had issued is lost with the die. -/
def State.killDie (s : State) (d : Nat) : State :=
  let ks := (s.gangs.filter (fun kg => dieOf (coreOf kg.1) == d)).map (·.1)
  ks.foldl (fun s k =>
    match s.gang k with
    | none => s
    | some g =>
      let s := s.putGang k { g with ops := [] }
      let s := s.stopLaunch g.launch 7
      (s.killGang k rDIERESET g.reportPc).checkBlock g.blk) s

/-- COMPUTE_DIE_RESET (R195): what die d held is lost; dirty lines homed there that other dies hold go to memory. -/
def State.resetDie (s : State) (d : Nat) : State :=
  let s := s.killDie d
  let s := s.coh.lines.foldl (fun s x =>
    if x.die ≠ d ∧ s.homeDie x.line = d ∧ (x.st == .m || x.st == .o) then
      s.toMem x.die x.line x.data x.poison
    else s) s
  let gone (l : LineId) : Bool := s.homeDie l == d
  let lost := s.rcv.inflight.filter (fun e => e.1 == d)
  let s := { s with
    cores := s.cores.filter (fun kc => dieOf kc.1 != d)
    pending := s.pending.filter (fun m => !m.ofDie d)
    timers := s.timers.filter (fun t => !t.2.ofDie d)
    coh := { s.coh with
      lines := s.coh.lines.filter (fun x => x.die != d && !gone x.line)
      dir := (s.coh.dir.filter (fun (e : DirEnt) => !gone e.line)).map (fun (e : DirEnt) => e.without d)
      wbw := s.coh.wbw.filter (fun w => w.die != d)
      drains := s.coh.drains.filter (fun kd => dieOf kd.2.core != d)
      dtlb := s.coh.dtlb.filter (fun e => e.1 != d)
      wcache := s.coh.wcache.filter (fun e => e.1 != d) }
    rcv := { s.rcv with inflight := s.rcv.inflight.filter (fun e => e.1 != d)
                        lostDie := if lost.isEmpty then s.rcv.lostDie else s.rcv.lostDie ++ [d]
                        lostFor := if lost.isEmpty then s.rcv.lostFor
                          else (s.rcv.lostFor ++ (s.gangs.filter (fun (kg : Nat × Gang) => !kg.2.retired)).map (fun (kg : Nat × Gang) => kg.2.lostKey)
                            ++ s.fab.members.map (256 + ·)).dedup
                        scanning := s.rcv.scanning ++ [(d, s.cycle)] }
    eng := { s.eng with walks := s.eng.walks.filter (fun w => dieOf (coreOf w.2.g) != d)
                        walkQ := s.eng.walkQ.filter (fun w => dieOf (coreOf w.1) != d)
                        holds := s.eng.holds.filter (fun h => dieOf (coreOf h.1) != d)
                        tileQ := s.eng.tileQ.filter (fun q => dieOf q.1 != d) }
    sched := { s.sched with dieAt := s.sched.dieAt.set d s.cycle }
    dcb := { s.dcb with drst := s.dcb.drst ||| 2 ^ (4 + d) } }
  let s := (List.range 64).foldl (fun s n =>
    if rrdEn (s.rrd n) then (match s.rcv.rcpt.get n with | some r => s.putRcpt n (r.setFlag 1 true) | none => s) else s) s
  s.after 64 (.containmentScan d)

/-- A die reset asked for and not under way (R472). -/
def State.askDieReset (s : State) (d : Nat) : State := if bit s.dcb.drst (4 + d) then s else s.resetDie d

/-- DRST: a write of 1 to bit d resets compute die d. -/
def execDrst (s : State) : Out :=
  match s.msg with
  | some (.drst v) =>
    .next (whenQuiet s (.drst v) fun s => (List.range 4).foldl (fun s d => if bit v d then s.askDieReset d else s) s)
  | _ => .fault .noMessage

/-- WATCHDOG: the watchdog of a compute die. -/
def execWatchdog (s : State) : Out :=
  match s.msg with
  | some (.watchdog d) => .next (whenQuiet s (.watchdog d) fun s => if d < 4 then s.askDieReset d else s)
  | _ => .fault .noMessage

/-- A region after a die reset (R196 steps 3 to 5): its record's fields, torn lines poisoned unless TPOL keeps them; SCAN
stays while the reset of another die is still to be contained. -/
def State.scanOne (s : State) (n d at' : Nat) (r0 : Rcpt) : State :=
  let x := s.scanRegion n r0
  let r := (r0.setFlag 2 (!x.torn.isEmpty)).setFlag 3 (xorAll r0.ldig != r0.cdig)
  let rec0 := packBytes [(0, 2), (1, d), (2, n), (3, x.result r0), (8, at'), (16, r.cpt), (24, r.cursor), (32, x.torn.length),
    (40, 128 * (x.torn.foldl (fun (b : Option Nat) la => match b with | none => some la | some m => some (min m la)) none).getD 0),
    (48, x.poisoned)]
  let keep := rrdTpol (s.rrd n)
  let r := if keep then r else { r with odig := [0, 0, 0, 0] }
  let s := if keep then s else
    { s with lmeta := x.torn.foldl (fun t la => t.set la { ((t.get la).getD LineMeta.fresh) with poison := true, stamp := 0 }) s.lmeta
             rcv := { s.rcv with dq := s.rcv.dq.map (fun (q : Nat × Nat × Nat × Nat × Bool) =>
               if x.torn.contains q.2.1 then (q.1, q.2.1, q.2.2.1, 0, true) else q) }
             coh := { s.coh with lines := s.coh.lines.map (fun y => match s.backing y.line with
               | some la => if x.torn.contains la then { y with poison := true } else y
               | none => y) } }
  (s.putRcpt n (r.setFlag 1 (s.rcv.scanning.any (fun q => q.1 != d)))).postCr rec0

/-- CONTAINMENT_SCAN (R196), once no point is being closed (log entry 85): one DIERESET record, one REGSCAN record a region, and the die is out of reset. -/
def State.contain (s : State) (d : Nat) : State :=
  let at' := ((s.rcv.scanning.find? (fun x => x.1 == d)).map (·.2)).getD s.cycle
  let s := s.postCr (packBytes [(0, 1), (1, d), (8, at')])
  let s := (List.range 64).foldl (fun s n =>
    if rrdEn (s.rrd n) then (match s.rcv.rcpt.get n with | some r => s.scanOne n d at' r | none => s) else s) s
  { s with dcb := { s.dcb with drst := andNot s.dcb.drst (2 ^ (4 + d)) }
           rcv := { s.rcv with scanning := s.rcv.scanning.filter (fun x => x.1 != d)
                               lostDie := s.rcv.lostDie.filter (· != d) } }

def execContainmentScan (s : State) : Out :=
  match s.msg with
  | some (.containmentScan d) =>
    .next (if !s.rcv.closing.isEmpty then s.after 16 (.containmentScan d)
      else whenQuiet s (.containmentScan d) fun s => s.contain d)
  | _ => .fault .noMessage

/-! ### Region registers (R179, R180) -/

/-- Software's fields of RRD.n. -/
def rrdFields (v : Nat) : Nat := fld v 0 1 + fld v 3 1 * 8 + fld v 16 32 * 2 ^ 16
def rrdNgib (v : Nat) : Nat := fld v 32 16
def State.setRrd (s : State) (n v : Nat) : State := { s with dcb := { s.dcb with rrd := s.dcb.rrd.set n v } }
/-- The write keeps NGIB and BASE. -/
def sameRange (old v : Nat) : Bool := fld old 16 32 == fld v 16 32
/-- A range that may be enabled (R179). -/
def State.mayEnable (s : State) (n v : Nat) : Bool :=
  decide (1 ≤ rrdNgib v ∧ rrdNgib v ≤ 4096) && populatedRange (rrdBase v) (rrdSize v)
    && (List.range 64).all (fun m => m == n || !(rrdEn (s.rrd m) || rrdBusy (s.rrd m))
      || decide (rrdBase v + rrdSize v ≤ rrdBase (s.rrd m) ∨ rrdBase (s.rrd m) + rrdSize (s.rrd m) ≤ rrdBase v))

/-- A copy of a line of a range that becomes a region: modified data goes to memory, a die that is not the line's home gives up
M, O or E, and the home's own copy stays clean (R187). -/
def State.cleanCopy (s : State) (x : SLine) : State :=
  let s := if x.st == .m || x.st == .o then s.toMem x.die x.line x.data x.poison else s
  if x.die ≠ s.homeDie x.line then
    (if x.st == .s then s else (s.dropSl x.die x.line).putDir ((s.dirOf x.line).without x.die))
  else if x.st == .m then s.putSl { x with st := .e }
  else if x.st == .o then (s.putSl { x with st := .s }).putDir { s.dirOf x.line with own := none }
  else s
/-- Steps 2 to 4 of enabling (R180): every stamp of the range is zeroed and the RCPT initialised. -/
def State.enableRegion (s : State) (n v : Nat) : State :=
  let inside (la : Nat) : Bool := decide (rrdBase v ≤ 128 * la ∧ 128 * la < rrdBase v + rrdSize v)
  let s := (s.coh.lines.filter (fun x => (s.backing x.line).any inside)).foldl (fun s x => s.cleanCopy x) s
  let s := s.setRrd n (rrdFields v)
  let s := (s.regionLines n).foldl (fun s la => s.setLm la { s.lm la with stamp := 0 }) s
  let s := s.putRcpt n Rcpt.fresh
  { s with rcv := { s.rcv with sweeps := s.rcv.sweeps.erase n, closing := s.rcv.closing.erase n } }

/-- RRD_ENABLE (R179, R180): a write that may set EN sets BUSY; the region is enabled once coherence is at rest.  EN reads 0
until then (DESIGN CHOICE, log entry 73). -/
def execRrdEnable (s : State) : Out :=
  match s.msg with
  | some (.rrdEnable n v) =>
    let begun := s.rrd n == rrdFields v + 3
    .next (if 64 ≤ n ∨ !bit v 0 ∨ (!begun ∧ (rrdBusy (s.rrd n) ∨ rrdEn (s.rrd n) ∨ !s.mayEnable n v)) then s
      else whenQuiet (s.setRrd n (rrdFields v + 3)) (.rrdEnable n v) fun s => s.enableRegion n v)
  | _ => .fault .noMessage

/-- RRD_DISABLE: BUSY is set; the region stays as it is until its commits, moves and writes are done.  The spec does not say
when EN itself reads 0: it reads 1 until BUSY clears (DESIGN CHOICE, log entry 73). -/
def execRrdDisable (s : State) : Out :=
  match s.msg with
  | some (.rrdDisable n v) =>
    .next (if 64 ≤ n ∨ rrdBusy (s.rrd n) ∨ !rrdEn (s.rrd n) ∨ bit v 0 ∨ !sameRange (s.rrd n) v then s
      else (s.setRrd n (rrdFields v ||| 5)).push (.rrdDisableComplete n))
  | _ => .fault .noMessage

/-- Extents of an object lie in a region. -/
def State.objInRegion (s : State) (ident n : Nat) : Bool :=
  match s.oteFind ident with
  | some (_, e) => oteRec e && (oteExts e).any (fun x => s.extRegion (extBase x) (2 ^ extLsz x) == some n)
  | none => false
/-- An RCOMM of a region has been issued and has neither completed nor failed. -/
def State.commOwed (s : State) (n : Nat) : Bool :=
  s.gangs.any (fun kg => kg.2.ops.any (fun ko => match ko.2.what with
    | .rcomm _ => ko.2.desc.getD 0 0 == n && ko.2.phase != 3
    | _ => false))
/-- Something of a region is still under way (R180 step 2). -/
def State.regionOwed (s : State) (n : Nat) : Bool :=
  let here (la : Nat) : Bool := s.regionOf (la * 128) == some n
  s.commOwed n || s.rcv.commits.any (fun c => c.2.region == n) || s.fab.migs.any (fun m => s.objInRegion m.2.ident n)
    || s.fab.inbound.any (fun i => s.objInRegion i.1 n)
    || s.rcv.dq.any (fun e => here e.2.1) || s.rcv.inflight.any (fun e => here e.2.1)

/-- RRD_DISABLE_COMPLETE: translations into the range are removed, the RCPT is discarded. -/
def execRrdDisableComplete (s : State) : Out :=
  match s.msg with
  | some (.rrdDisableComplete n) =>
    .next (if 64 ≤ n ∨ !rrdBusy (s.rrd n) then s
      else if s.regionOwed n then s.after 64 (.rrdDisableComplete n)
      else
        let lo := rrdBase (s.rrd n)
        let hi := lo + rrdSize (s.rrd n)
        let out (t : TlbEnt) : Bool := decide (t.pa + t.size ≤ lo ∨ hi ≤ t.pa)
        let s := { s with
          cores := s.cores.map (fun (kc : Nat × CoreSt) => (kc.1, { kc.2 with tlb := kc.2.tlb.filter out }))
          coh := { s.coh with dtlb := s.coh.dtlb.filter (fun e => out e.2), wcache := [] }
          rcv := { s.rcv with rcpt := s.rcv.rcpt.erase n, sweeps := s.rcv.sweeps.erase n, closing := s.rcv.closing.erase n } }
        s.setRrd n (andNot (s.rrd n) 5))
  | _ => .fault .noMessage

/-- RRD_SET_TPOL: a write that keeps every other field, or that leaves the region disabled. -/
def execRrdSetTpol (s : State) : Out :=
  match s.msg with
  | some (.rrdSetTpol n v) =>
    .next (if 64 ≤ n ∨ rrdBusy (s.rrd n) ∨ rrdEn (s.rrd n) ≠ bit v 0 ∨ (rrdEn (s.rrd n) ∧ !sameRange (s.rrd n) v) then s
      else s.setRrd n (rrdFields v))
  | _ => .fault .noMessage

end Sys2Proof.Machine
end

