-- ==== Sys2Proof/Machine/Blocking.lean ====
section
/-! DEFINITION. The blocking system instructions (R394 to R400): object instructions, collectives and recovery instructions,
the reduction units of the switch chips (R396 to R399), and BLOCKING_ANSWER. -/

namespace Sys2Proof.Machine

/-! ### Issue (R394) -/

/-- Registers a blocking instruction reads, its status register, and those it writes. -/
def sysPlan (rd : List Nat) (b : Nat) (wr : List Nat) (_ : Gang) (f : Frag) : Plan :=
  { useU := (rd ++ [b] ++ wr).map f.ur, rdU := rd.map f.ur, scalar := true }

/-- A fault record of an operand that is no lane's (R44, R395): KIND 0, SPACE 0. -/
def sysRec (pc frag act sub addr : Nat) : FRec := mkRec pc frag 0 true false false act [(addr, 0, sub, 0, 0)]

/-- A check at issue: the causes it raises, and the subcode and address of their record. -/
abbrev SysBad := Nat × Option (Nat × Nat)

/-- The step of a blocking instruction: its checks, the release action of R120 at a scope (0 none), and the wait. -/
def sysStep (what : Instr) (rd : List Nat) (b : Nat) (wr : List Nat) (rel acq : Nat)
    (check : State → Issue → Gang → List Nat → Option SysBad) (s : State) : Out :=
  withPlan s (sysPlan rd b wr) fun i g f _ =>
    let d := rd.map (fun n => g.u (f.ur n))
    if g.active f = 0 then s.finish i g
    else match check s i g d with
    | some (bits, r) => s.trap i bits (r.map (fun sa => sysRec i.pc i.frag (g.active f) sa.1 sa.2))
    | none =>
      if rel ≠ 0 ∧ g.memOwed true then s.hold i g .room
      else
        let y := { Op.blank what i.frag i.pc 6 s.cycle g.hm with
          rel := rel, acq := acq, phase := 1, act := g.active f, desc := d, stReg := f.ur b, res := wr.map f.ur }
        let r := s.blockOp i g y
        if rel ≠ 0 then r.1.startDrain (coreOf i.key) [(i.key, r.2)]
        else
          match r.1.op i.key r.2 with
          | some x => (r.1.putOp i.key r.2 { x with phase := 2 }).push (.blockingAnswer i.key r.2)
          | none => r.1

/-- A pair of operands as a 64-bit value. -/
def pairAt (d : List Nat) (j : Nat) : Nat := d.getD j 0 + d.getD (j + 1) 0 * 2 ^ 32
/-- BADPTR at issue (R394). -/
def ptrCheck (_ : State) (_ : Issue) (_ : Gang) (d : List Nat) : Option SysBad :=
  let p := pairAt d 0
  if 128 ≤ fld p 56 8 ∨ fld p 36 20 = 0 then some (2 ^ cOBJF, some (subBADPTR, p)) else none

def execOalc (x : Cmd) (s : State) : Out :=
  sysStep (.oalc x) [x.a, x.a + 1, x.a + 2] x.b [x.c, x.c + 1] 4 4 (fun _ _ _ d =>
    if fld (d.getD 2 0) 2 2 = 1 ∧ Config.ddrSize = 0 then some (2 ^ cUNITABS, none) else none) s
def execOfre (x : Cmd) (s : State) : Out := sysStep (.ofre x) [x.a, x.a + 1] x.b [] 4 4 ptrCheck s
def execOloc (x : Cmd) (s : State) : Out := sysStep (.oloc x) [x.a, x.a + 1] x.b [x.c, x.c + 1] 4 4 ptrCheck s
def execOpin (x : Cmd) (s : State) : Out := sysStep (.opin x) [x.a, x.a + 1] x.b [] 4 4 ptrCheck s
def execOunp (x : Cmd) (s : State) : Out := sysStep (.ounp x) [x.a, x.a + 1] x.b [] 4 4 ptrCheck s
def execOcol (x : Cmd) (s : State) : Out := sysStep (.ocol x) [x.a, x.a + 1, x.c] x.b [] 4 4 ptrCheck s
def execOmig (x : Cmd) (s : State) : Out := sysStep (.omig x) [x.a, x.a + 1, x.c] x.b [] 4 4 ptrCheck s
def execOcln (x : Cmd) (s : State) : Out := sysStep (.ocln x) [x.a, x.a + 1] x.b [] 4 4 ptrCheck s

/-- The wait of a collective runs under the launch's synchronisation timeout (R398). -/
def collStep (what : Instr) (rd : List Nat) (b : Nat) (wr : List Nat) (s : State) : Out :=
  match sysStep what rd b wr 4 4 (fun _ _ _ _ => none) s with
  | .next t =>
    (match s.issue with
     | none => .next t
     | some i => match (t.gang i.key).bind (fun g => g.frags.get i.frag) with
       | some f => (match f.wait with | .blocked _ => .next (t.timeWait i.key i.frag) | _ => .next t)
       | none => .next t)
  | o => o
def execOred (x : Cmd) (s : State) : Out :=
  collStep (.ored x) [x.a, x.a + 1, x.a + 2, x.a + 3] x.b [x.c, x.c + 1] s
def execObar (x : Cmd) (s : State) : Out := collStep (.obar x) [x.a, x.a + 1] x.b [] s

/-- The region checks of R400. -/
def regionCheck (s : State) (_ : Issue) (_ : Gang) (d : List Nat) : Option SysBad :=
  let n := d.getD 0 0
  if 64 ≤ n ∨ !rrdEn (s.rrd n) ∨ rrdBusy (s.rrd n) then some (2 ^ cRECF, some (subNOREG, 0)) else none
def execRcomm (x : Cmd) (s : State) : Out :=
  sysStep (.rcomm x) [x.a, x.a + 2, x.a + 3] x.b [x.c, x.c + 1] 5 4 (fun s i g d =>
    if g.task then some (2 ^ cRECF, some (subTASK, 0)) else regionCheck s i g d) s
def execRcqry (x : Cmd) (s : State) : Out :=
  sysStep (.rcqry x) [x.a] x.b ((List.range 16).map (x.c + ·)) 0 4 regionCheck s
def execRcver (x : Cmd) (s : State) : Out := sysStep (.rcver x) [x.a] x.b [x.c, x.c + 1] 0 0 regionCheck s

/-! ### Answers -/

def pairOut (v : Nat) : List Nat := [v % 2 ^ 32, v / 2 ^ 32 % 2 ^ 32]
/-- The answer of a blocking operation: CODE, DETAIL and the values of its result registers. -/
def State.sysDone (s : State) (k o code detail : Nat) (out : List Nat) : State :=
  match s.op k o with
  | none => s
  | some x => (s.putOp k o { x with phase := 4, code := code, pcnt := detail, out := out }).push (.blockingAnswer k o)

/-- Free values for result registers whose value the spec does not state. -/
def State.freeOut (s : State) (n : Nat) : State × List Nat :=
  ({ s with free := s.free + n }, (List.range n).map (fun j => (Config.freeWord (s.free + j)).toNat))

/-! ### OALC and OCLN, at the issuing device (R395) -/

/-- Registry entries in use, as (index, contents). -/
def State.registry (s : State) : List (Nat × Nat) :=
  (List.range (2 ^ tabK s.dcb.rgb)).filterMap (fun i =>
    let e := s.entAt s.dcb.rgb 32 i
    if byteField e 0 8 = 0 then none else some (i, e))

/-- The serial of a new object (R50): the next after the highest born here, else the lowest whose FREED entry is old enough;
with the index of the registry entry that it reuses. -/
def State.newSerial (s : State) : Option (Nat × Option Nat) :=
  let es := s.registry.filter (fun p => byteField p.2 0 8 / 2 ^ 56 == s.devNum)
  let top := es.foldl (fun m p => max m (fld (byteField p.2 0 8) 36 20)) 0
  if top < 0xFFFFF then some (top + 1, none)
  else
    let old := es.filter (fun p => byteField p.2 10 1 == 2 && decide (2 * s.dcb.stci ≤ s.cycle - byteField p.2 12 8))
    (old.foldl (fun (b : Option (Nat × Nat)) p =>
      let n := fld (byteField p.2 0 8) 36 20
      match b with
      | none => some (n, p.1)
      | some (m, _) => if n < m then some (n, p.1) else b) none).map (fun q => (q.1, some q.2))

/-- OALC: CODE and pointer. -/
def State.allocObject (s : State) (size fl : Nat) : State × Nat × Nat :=
  let tier := fld fl 2 2
  let key := fld fl 16 10
  if size % 4096 ≠ 0 ∨ size < 4096 ∨ 2 ^ 36 < size ∨ fld fl 4 12 ≠ 0 ∨ fld fl 26 6 ≠ 0 ∨ key = 0x3FF ∨ 2 ≤ tier then (s, 12, 0)
  else match s.newSerial with
  | none => (s, 3, 0)
  | some (serial, reuse) =>
    match s.alloc size tier (bit fl 1) with
    | (s, .error c) => (s, c, 0)
    | (s, .ok xs) =>
      let ident := s.devNum * 2 ^ 20 + serial
      let e := oteNew ident size (fld fl 0 2 + tier * 8) 0 0 key xs 0
      match s.tabFree s.dcb.otb 256 ident, (match reuse with | some i => some i | none => s.tabFree s.dcb.rgb 32 ident) with
      | some i, some j => ((s.putOte i e).putEnt s.dcb.rgb 32 j (regEntry ident s.devNum 0 1 0), 0, identPtr ident)
      | _, _ => (s.fxRelease (s.poolOf e) xs, 3, 0)

/-- OCLN: CODE. -/
def State.collectStub (s : State) (ident : Nat) : State × Nat :=
  match s.stubFind ident with
  | none => (s, 9)
  | some (i, e) =>
    let fl := byteField e 10 1
    if !bit fl 1 then (s, 10)
    else
      let s := s.putEnt s.dcb.stb 32 i (linePut e 10 1 (andNot fl 1))
      ({ s with fab := { s.fab with loc := s.fab.loc.filter (fun x => x.ident != ident) } }, 0)

/-! ### The reduction units (R252, R396 to R399) -/

/-- One step of the fold of a format and operation. -/
def collOp (op fmt a b : Nat) : Nat :=
  let n := if fmt = 0 ∨ fmt = 2 ∨ fmt = 3 then 64 else 32
  let f := if fmt = 0 then f64 else f32
  if fmt < 2 then (if op = 0 then fadd f .rne false false a b else fminmax f (op == 2) a b).1
  else
    let sg := fmt = 2 ∨ fmt = 4
    let x := intVal sg n a
    let y := intVal sg n b
    if op = 0 then wrapN n (x + y) else if op = 1 then wrapN n (min x y) else wrapN n (max x y)
/-- Formats of 32 bits use only the even register (R397). -/
def collVal (fmt v : Nat) : Nat := if fmt = 1 ∨ 4 ≤ fmt then v % 2 ^ 32 else v

/-- Contributions in ascending rank, folded. -/
def Coll.fold (c : Coll) : Nat :=
  match (List.range 128).filterMap (fun r => (c.got.find? (fun g => g.1 == r)).map (fun g => g.2.2.1)) with
  | [] => 0
  | v :: vs => vs.foldl (fun a b => collOp c.op c.fmt a b) v

/-- The value x of a collective instance (R396). -/
def collName (cid seq : Nat) : Nat := cid * 2 ^ 32 + seq
/-- Two instances of a communicator have their unit on one plane (R396, R399). -/
def State.sameUnit (s : State) (cid seq c q : Nat) : Bool := c == cid && s.planeFor (collName c q) == s.planeFor (collName cid seq)
/-- This device's contribution leaves for its unit under its fabric SEQ, and again after FRTO until the unit acknowledges it (R141,
R398); on a lost plane it goes unanswered (R467). -/
def State.contributeOut (s : State) (cid seq op fmt v fseq : Nat) : State :=
  let p := s.peerOut 255
  let plane := s.planeFor (collName cid seq)
  let m : OutMsg := ⟨255, .collectiveContribution, [cid, seq, op, fmt, v, s.devNum], fseq, plane⟩
  let s := s.putPeer 255 { p with unacked := p.unacked.filter (fun u => u.1 != fseq) ++ [(fseq, s.cycle, m)] }
  let s := s.after s.dcb.frto (.frtoExpiry 255 fseq)
  if s.portUp plane then s.push (.collectiveContribution cid seq op fmt v s.devNum fseq) else s
/-- The unit has this device's contribution. -/
def State.contributed (s : State) (cid seq dev : Nat) : State :=
  if dev = s.devNum then s.acked 255 (fun o => o.kind == .collectiveContribution && o.args.take 2 == [cid, seq]) else s

/-- Operations of this device that wait for an instance. -/
def State.collWaiters (s : State) (cid seq : Nat) : List (Nat × Nat) :=
  s.gangs.flatMap (fun kg => kg.2.ops.filterMap (fun (ko : Nat × Op) =>
    let here (c q : Nat) : Bool := fld c 16 16 == cid && q == seq
    match ko.2.what with
    | .ored _ => if ko.2.phase = 3 ∧ here (ko.2.desc.getD 2 0) (ko.2.desc.getD 3 0) then some (kg.1, ko.1) else none
    | .obar _ => if ko.2.phase = 3 ∧ here (ko.2.desc.getD 0 0) (ko.2.desc.getD 1 0) then some (kg.1, ko.1) else none
    | _ => none))

/-- An answer of a reduction unit at a member: the value is unstated when no fold was made. -/
def State.collAnswer (s : State) (dev cid seq code detail : Nat) (v : Option Nat) : State :=
  if dev = s.devNum then
    (s.collWaiters cid seq).foldl (fun s ko =>
      match v with
      | some x => s.sysDone ko.1 ko.2 code detail (pairOut x)
      | none => let r := s.freeOut 2; r.1.sysDone ko.1 ko.2 code detail r.2) s
  else { s with fab := { s.fab with outbox := s.fab.outbox ++
    [(⟨dev, .collectiveContribution, [cid, seq, code, detail] ++ v.toList, 0, s.planeFor (collName cid seq)⟩ : OutMsg)] } }

/-- Forms the result of an instance, gives it to its contributors, and keeps it in the window of 256 (R399). -/
def State.collForm (s : State) (c : Coll) (code0 : Nat) : State :=
  let code := if c.bad then 12 else code0
  let v := if c.bad then none else some c.fold
  let done : CollDone := ⟨c.cid, c.seq, c.fold, code, c.got.length⟩
  let mine := s.fab.colDone.filter (fun d => s.sameUnit c.cid c.seq d.cid d.seq)
  let keep := if mine.length < 256 then s.fab.colDone
    else match mine.head? with | some d => s.fab.colDone.erase d | none => s.fab.colDone
  let s := { s with fab := { s.fab with
    colOpen := s.fab.colOpen.filter (fun x => !(x.cid == c.cid && x.seq == c.seq)), colDone := keep ++ [done] } }
  c.got.foldl (fun s g => s.collAnswer g.2.1 c.cid c.seq code c.got.length v) s

/-- A contribution reaches its unit: a resend of one that it holds is dropped, another of the same device answered with BADARG (R396,
R398). -/
def State.contribute (s0 : State) (cid seq op fmt value dev fseq : Nat) : State :=
  let members := (s0.fab.colTab.get cid).getD []
  let s := s0.contributed cid seq dev
  if !members.contains dev ∨ 3 ≤ op ∨ 6 ≤ fmt then s.collAnswer dev cid seq 12 0 none
  else match s.fab.colDone.find? (fun d => d.cid == cid && d.seq == seq) with
  | some d => s.collAnswer dev cid seq d.code d.detail (if d.code = 12 then none else some d.result)
  | none =>
    let old := s.fab.colOpen.find? (fun c => c.cid == cid && c.seq == seq)
    if old.isNone ∧ 64 ≤ (s.fab.colOpen.filter (fun c => s.sameUnit cid seq c.cid c.seq)).length then
      s0.after 16 (.collectiveContribution cid seq op fmt value dev fseq)
    else
      let c := old.getD ⟨cid, seq, op, fmt, false, []⟩
      if c.got.any (fun g => g.2.1 == dev) then
        (if dev = s.devNum ∨ c.got.any (fun g => g.2.1 == dev && g.2.2.2 == fseq) then s else s.collAnswer dev cid seq 12 0 none)
      else
        let c := { c with got := c.got ++ [(members.idxOf dev, dev, collVal fmt value, fseq)], bad := c.bad || c.op != op || c.fmt != fmt }
        let s := { s with fab := { s.fab with
          colOpen := s.fab.colOpen.filter (fun x => !(x.cid == cid && x.seq == seq)) ++ [c] } }
        let live := members.filter (fun d => !s.fab.dead.contains d)
        if live.all (fun d => c.got.any (fun g => g.2.1 == d)) then
          s.collForm c (if members.all (fun d => c.got.any (fun g => g.2.1 == d)) then 0 else 11)
        else s

def execCollectiveContribution (s : State) : Out :=
  match s.msg with
  | some (.collectiveContribution cid seq op fmt value dev fseq) => .next (s.contribute cid seq op fmt value dev fseq)
  | _ => .fault .noMessage

/-- COLLECTIVE_TABLE_WRITE (R399): the communicator's window is discarded and its open instances end with BADARG. -/
def execCollectiveTableWrite (s : State) : Out :=
  match s.msg with
  | some (.collectiveTableWrite cid members) =>
    let s := (s.fab.colOpen.filter (fun c => c.cid == cid)).foldl (fun s c => s.collForm { c with bad := true } 12) s
    .next { s with fab := { s.fab with colTab := s.fab.colTab.set cid members
                                       colDone := s.fab.colDone.filter (fun d => d.cid != cid) } }
  | _ => .fault .noMessage

/-- Members the pod map now marks failed (R398): their open instances complete over the ranks held. -/
def State.membersFailed (s : State) : State :=
  s.fab.colOpen.foldl (fun s c =>
    let members := (s.fab.colTab.get c.cid).getD []
    if members.any (fun d => s.fab.dead.contains d && !c.got.any (fun g => g.2.1 == d)) then s.collForm c 11 else s) s

/-- A collective's contribution leaves (R397): BADARG at once for a malformed one, or for a second of this device. -/
def State.sendContribution (s : State) (k o : Nat) (x : Op) : State :=
  let isBar := match x.what with | .obar _ => true | _ => false
  let ctl := x.desc.getD (if isBar then 0 else 2) 0
  let seq := x.desc.getD (if isBar then 1 else 3) 0
  let op := fld ctl 4 2
  let fmt := fld ctl 0 4
  let bad := if isBar then ctl % 64 != 0 else op == 3 || 6 ≤ fmt
  if bad || fld ctl 6 10 != 0 || !(s.collWaiters (fld ctl 16 16) seq).isEmpty
      || s.fab.colOpen.any (fun c => c.cid == fld ctl 16 16 && c.seq == seq && c.got.any (fun g => g.2.1 == s.devNum)) then
    let r := s.freeOut 2
    r.1.sysDone k o 12 0 r.2
  else
    let p := s.peerOut 255
    ((s.putOp k o { x with phase := 3 }).putPeer 255 { p with seq := (p.seq + 1) % 2 ^ 32 }).contributeOut (fld ctl 16 16) seq op fmt
      (if isBar then 0 else collVal fmt (pairAt x.desc 0)) p.seq

/-! ### Performing -/

/-- The request of an object instruction to the owner. -/
def Op.objOp (x : Op) : ObjOp :=
  match x.what with
  | .ofre _ => .free
  | .opin _ => .pin true
  | .ounp _ => .pin false
  | .ocol _ => .col (x.desc.getD 2 0)
  | .omig _ => .mig (x.desc.getD 2 0)
  | _ => .loc

/-- Performs a blocking instruction after its release action. -/
def State.sysPerform (s : State) (k o : Nat) (x : Op) : State :=
  let n := x.desc.getD 0 0
  match x.what with
  | .oalc _ =>
    let r := s.allocObject (pairAt x.desc 0) (x.desc.getD 2 0)
    r.1.sysDone k o r.2.1 0 (pairOut r.2.2)
  | .ocln _ => let r := s.collectStub (pairAt x.desc 0 / 2 ^ 36); r.1.sysDone k o r.2 0 []
  | .ored _ => s.sendContribution k o x
  | .obar _ => s.sendContribution k o x
  | .rcqry _ =>
    (match s.rcv.rcpt.get n with
     | some r => s.sysDone k o 0 0 ((List.range 16).map (fun j => byteField r.bytes (4 * j) 4))
     | none => s.sysDone k o 0 0 (List.replicate 16 0))
  | .rcver _ =>
    (match s.rcv.rcpt.get n with
     | some r =>
       -- V is exact between closes: the partial digests of a point being closed belong to two points (R190, R194)
       if bit r.flags 1 ∨ s.rcv.closing.has n then s.after 64 (.blockingAnswer k o)
       else
         let y := s.scanRegion n r
         (s.putRcpt n (r.setFlag 3 (xorAll r.ldig != r.cdig))).sysDone k o 0 (y.result r % 16) (pairOut y.poisoned)
     | none => s.sysDone k o 0 0 [0, 0])
  | .rcomm _ => s
  | _ => (s.putOp k o { x with phase := 3 }).newReq (pairAt x.desc 0 / 2 ^ 36) 0 x.objOp (.blocking k o)

/-- The cause that returns with an answer (R394, R395, R400): PEERLOST with PEER or a lost peer, BADOTE, UNITABS, LOSTW. -/
def State.sysCause (s : State) (k : Nat) (x : Op) : State :=
  let isComm := match x.what with | .rcomm _ => true | _ => false
  if x.errSub = 256 then s.raiseLate k x (2 ^ cUNITABS) none
  else if x.errSub ≠ 0 then
    s.raiseLate k x (2 ^ cOBJF) (some (sysRec x.pc x.frag x.act x.errSub (pairAt x.desc 0)))
  else if (!isComm ∧ x.code = 11) ∨ (isComm ∧ x.code = 13 ∧ x.flags = 1) then s.lostRelease k x
  else if isComm ∧ x.code = 13 then s.raiseLate k x (2 ^ cRECF) (some (sysRec x.pc x.frag x.act subLOSTW 0))
  else s

/-- Presents an answer: the acquire action, the registers, the end of the wait, then the cause. -/
def State.sysPresent (s : State) (k o : Nat) (g : Gang) (x : Op) : State :=
  let s := if x.acq ≠ 0 then s.acquire k g (x.acq - 1) else s
  match s.gang k with
  | none => s
  | some g =>
    if g.retired then s.endOp k o
    else
      let g := if x.errSub ≠ 0 then g
        else (x.res.zip x.out).foldl (fun g rv => g.setU rv.1 rv.2) (g.setU x.stReg (x.code % 256 + x.pcnt % 2 ^ 16 * 2 ^ 16))
      let s := (s.putGang k g).endOp k o
      if x.done then s else s.sysCause k x

/-- The answer to a program's instruction arrives while a handler runs, or the gang is saved: its cause is held at once (R446), its
registers are written when the gang resumes (R394). -/
def State.sysLater (s : State) (k o : Nat) (x : Op) : State :=
  (if x.done then s else (s.putOp k o { x with done := true }).sysCause k x).after 16 (.blockingAnswer k o)

/-- BLOCKING_ANSWER (R394): an operation past its release is performed; an answered one is presented, when the gang runs
its program again on a core. -/
def execBlockingAnswer (s : State) : Out :=
  match s.msg with
  | some (.blockingAnswer k o) =>
    .next (match s.gang k, s.op k o with
      | some g, some x =>
        if x.phase = 2 then
          (match x.what with
           | .ored _ => s.sysPerform k o x
           | .obar _ => s.sysPerform k o x
           | .rcomm _ => s
           | _ => whenQuiet s (.blockingAnswer k o) fun s => s.sysPerform k o x)
        else if x.phase ≠ (match x.what with | .rcomm _ => 3 | _ => 4) then s
        else if (g.hm && !x.hm || decide (256 ≤ coreOf k)) && !g.retired then
          (if g.hm && decide (coreOf k < 256) then s.sysLater k o x else s.after 16 (.blockingAnswer k o))
        else s.sysPresent k o g x
      | _, _ => s)
  | _ => .fault .noMessage

end Sys2Proof.Machine
end

