-- ==== Sys2Proof/Machine/CohEv.lean ====
section
/-! DEFINITION. The messages of coherence inside the device: requests, snoops and answers between the dies (R125 to R131),
L1 write-backs and drains (R121 to R124, R499), and the requests of the host (R148 to R150). -/

namespace Sys2Proof.Machine

/-! ### Requests at the home (R127, R129) -/

def execRds (s : State) : Out :=
  match s.msg with
  | some (.rds l d) =>
    .next (if s.counted l && s.oteBusy l then s.after 16 (.rds l d) else (s.countLocal l).reqLine l 0 d 0)
  | _ => .fault .noMessage

def execRdo (s : State) : Out :=
  match s.msg with
  | some (.rdo l d h) =>
    .next (if s.counted l && s.oteBusy l then s.after 16 (.rdo l d h) else (s.countLocal l).reqLine l 1 d h)
  | _ => .fault .noMessage

def execUpg (s : State) : Out :=
  match s.msg with
  | some (.upg l d h) =>
    .next (if s.counted l && s.oteBusy l then s.after 16 (.upg l d h) else (s.countLocal l).reqLine l 2 d h)
  | _ => .fault .noMessage

/-- An answer of a transaction arrives; when a directory entry has been freed, every operation that waits looks again (R131). -/
def State.txnAnswered (s : State) (l : LineId) (data : Option (Nat × Bool)) (fwd : Bool) : State :=
  let freed := match s.txn l with | some t => t.kind == 3 | none => false
  let s' := s.ansTxn l data fwd
  if freed && (s'.txn l).isNone then (List.range 4).foldl (fun s d => s.wakeDie d) s' else s'

/-- Dirty data given up reaches the home (R129, R130): the answer to a back-invalidation goes into its transaction; data of
an eviction from another die makes the home die the owner, O if a shared copy remains and M otherwise; data of the home die,
or data that an open transaction will be served from, goes to memory. -/
def State.takeWbd (s : State) (l : LineId) (die data : Nat) (poison : Bool) : State :=
  let (s, x) := s.chkReceipt l (data, poison)
  if s.slSt die l == .wb then
    let s := (s.dropSl die l).putDir ((s.dirOf l).without die)
    match s.txn l with
    | some t =>
      (s.putTxn { t with data := some x }).toMem (s.homeDie l) l x.1 x.2
    | none =>
      if die = s.homeDie l then
        s.toMem die l x.1 x.2
      else
        let h := s.homeDie l
        let e := s.dirOf l
        (s.putDir (e.withDie h true)).install h l (if (e.others h).isEmpty then .m else .o) x.1 x.2
  else s.txnAnswered l (some x) false

def execWbd (s : State) : Out :=
  match s.msg with
  | some (.wbd l d v p) => .next (s.takeWbd l d v p)
  | _ => .fault .noMessage

/-- EVC: a clean copy was given up. -/
def execEvc (s : State) : Out :=
  match s.msg with
  | some (.evc l d) => .next (if s.slSt d l == .i then s.putDir ((s.dirOf l).without d) else s)
  | _ => .fault .noMessage

/-! ### Snoops at a holder (R129 to R131) -/

/-- A snoop meets a copy: recorded cores drain first (R123), a copy already given up answers SNMISS (R130). -/
def State.snoop (s : State) (l : LineId) (k : Nat) (again : Msg) (f : State → SLine → State) : State :=
  match s.sl k l with
  | none => s.push (.iack l k true)
  | some x =>
    if x.st == .i || x.st == .wb then s.push (.iack l k true)
    else
      let r := s.askDrains x none
      if r.2 then f r.1 x else r.1.after 16 again

def execSnps (s : State) : Out :=
  match s.msg with
  | some (.snps l k req) =>
    .next (s.snoop l k (.snps l k req) fun s x =>
      let s := if x.st == .m || x.st == .o then s.putSl { x with st := .o }
        else
          let e := s.dirOf l
          (s.putSl { x with st := .s }).putDir { e with own := if e.own = some k then none else e.own }
      let s := if 8 ≤ req then
          (match s.txn l with | some t => s.putTxn { t with data := some (x.data, x.poison) } | none => s)
        else s.push (.data l req x.data x.poison .s)
      s.push (.iack l k false))
  | _ => .fault .noMessage

def execSnpi (s : State) : Out :=
  match s.msg with
  | some (.snpi l k req) =>
    .next (s.snoop l k (.snpi l k req) fun s x =>
      let s := if x.st == .m || x.st == .o then
          (match s.txn l with | some t => s.putTxn { t with data := some (x.data, x.poison) } | none => s)
        else s
      (s.dropSl k l).push (.iack l k false))
  | _ => .fault .noMessage

def execBinv (s : State) : Out :=
  match s.msg with
  | some (.binv l k) =>
    .next (s.snoop l k (.binv l k) fun s x =>
      let s := s.dropSl k l
      if x.st == .m || x.st == .o then s.push (.wbd l k x.data x.poison) else s.push (.iack l k false))
  | _ => .fault .noMessage

/-! ### Answers -/

/-- DATA at the requester: checked, installed in the granted state, acknowledged; what waited for the line goes on. -/
def State.takeData (s : State) (l : LineId) (die data : Nat) (poison : Bool) (st : Moesi) : State :=
  let s := if s.slSt die l == .i || st == .m then
      let (s, x) := s.chkReceipt l (data, poison)
      s.install die l st x.1 x.2
    else s
  ((s.push (.cmp l die)).flushWb die l).wakeLine die l

def execData (s : State) : Out :=
  match s.msg with
  | some (.data l d v p st) => .next (s.takeData l d v p st)
  | _ => .fault .noMessage

def execGnt (s : State) : Out :=
  match s.msg with
  | some (.gnt l d) =>
    let s := match s.sl d l with
      | some x => if x.st == Moesi.i || x.st == Moesi.wb then s else s.putSl { x with st := .m }
      | none => s
    .next (((s.push (.cmp l d)).flushWb d l).wakeLine d l)
  | _ => .fault .noMessage

def execIack (s : State) : Out :=
  match s.msg with
  | some (.iack l _k miss) =>
    let fwd := !miss && (match s.txn l with | some t => t.kind == 0 && decide (t.die < 8) | none => false)
    .next (s.txnAnswered l none fwd)
  | _ => .fault .noMessage

def execCmp (s : State) : Out :=
  match s.msg with
  | some (.cmp l _d) => .next (((s.dropTxn l).nextTxn l).kickTxns)
  | _ => .fault .noMessage

/-! ### Drains and L1 write-backs (R121 to R124, R499) -/

/-- DRN: the core drains, unless a drain in progress covers the release. -/
def execDrn (s : State) : Out :=
  match s.msg with
  | some (.drn _l _die core rsn) => .next (if s.drainCovers core rsn then s else s.startDrain core [])
  | _ => .fault .noMessage

/-- The write-back buffer of a slice holds its 64 entries (R128): write-backs that wait for M, and lines given up. -/
def State.wbFull (s : State) (die : Nat) (l : LineId) : Bool :=
  decide (64 ≤ (s.coh.wbw.filter (fun w => w.die == die && s.localSlice w.line die == s.localSlice l die)).length
    + (s.coh.lines.filter (fun x => x.die == die && x.st == .wb && s.localSlice x.line die == s.localSlice l die)).length)

/-- A write-back to a line of this device (R122): performed once the slice that writes it holds M; in the split state its
bytes go to memory, and the host keeps the other half (R150). -/
def State.wbHere (s : State) (core : Nat) (l : LineId) (data mask drain : Nat) : State :=
  let wd := s.writeDie (dieOf core) l
  if s.splitAt l mask then
    if hostFree (s.dirOf l) (halvesOf mask) then (s.splitPut l data mask).ackDrain drain
    else (s.splitAsk l mask).after 16 (.l1Writeback core l data mask false drain)
  else if s.canWrite wd l mask ∧ !(s.coh.wbw.any (fun w => w.die == wd && w.line == l)) then
    (s.sliceWrite wd l data mask false).ackDrain drain
  else if s.wbFull wd l then s.after 16 (.l1Writeback core l data mask false drain)
  else
    ({ s with coh := { s.coh with wbw := s.coh.wbw ++ [(⟨wd, l, data, mask, drain⟩ : WbWait)] } }).askM wd l mask

/-- A refused write-back is dropped and counted, and its drain goes on as if it had been performed (R499). -/
def State.wbRefused (s : State) (drain : Nat) : State :=
  (s.errEvent fun d => { d with wbref := errInc d.wbref }).ackDrain drain

/-- An older write-back of the same line by the core has been put off: this one stays behind it (R159). -/
def State.wbOlder (s : State) (core : Nat) (l : LineId) (drain : Nat) : Bool :=
  s.timers.any (fun t => match t.2 with | .l1Writeback c l' _ _ _ d => c == core && l'.same l && decide (d < drain) | _ => false)

/-- L1_WRITEBACK (R102, R122, R132, R499): of a .O line to the owner, which the lookup of R27 and R58 finds, behind an earlier
request of the line (R59).  The core's accesses that waited for it look again. -/
def execL1Writeback (s : State) : Out :=
  match s.msg with
  | some (.l1Writeback core l0 data mask _poison drain) =>
    if mask = 0 then .next (s.ackDrain drain)
    else if s.wbOlder core l0 drain then .next (s.after 16 (.l1Writeback core l0 data mask false drain))
    else if l0.obj then
      let (s, here) := s.lookHere l0.ident
      if !here then .next ((s.newReq l0.ident l0.off (.write data mask false) (.drain drain)).wakeLine (dieOf core) l0)
      else
        let s := s.otcFill l0.ident l0.off
        let l := s.objLineOf l0.ident l0.off
        if s.lineAsked l then .next (s.after 16 (.l1Writeback core l0 data mask false drain))
        else (match s.ownerChk l0.ident l0.off with
          | some _ => .next ((s.wbRefused drain).wakeLine (dieOf core) l0)
          | none => .next ((s.wbHere core l data mask drain).wakeLine (dieOf core) l0))
    else .next ((s.wbHere core l0 data mask drain).wakeLine (dieOf core) l0)
  | _ => .fault .noMessage

/-- DRAIN_DONE (R122 step 4): the release records of the core are cleared at its die, and the releases it serves go on. -/
def execDrainDone (s : State) : Out :=
  match s.msg with
  | some (.drainDone id) =>
    (match s.coh.drains.get id with
     | none => .next s
     | some d =>
       let s := ({ s with coh := { s.coh with drains := s.coh.drains.erase id } }).drainNext d.core
       let s := s.push (.rclr (dieOf d.core) (d.core % 64) d.d)
       .next (d.serves.foldl (fun s ko =>
         let s := if d.lost then (match s.op ko.1 ko.2 with
           | some x => s.putOp ko.1 ko.2 { x with flags := x.flags ||| 16 }
           | none => s) else s
         s.push (.releaseAcksDone ko.1 ko.2)) s))
  | _ => .fault .noMessage

/-- RCLR (R122): covered slots are cleared; sets that waited for it give up a line (R124), and accesses that waited for a drain
look again. -/
def execRclr (s : State) : Out :=
  match s.msg with
  | some (.rclr die c d) =>
    let full := (s.coh.lines.filter (fun x => x.die == die && x.slots.any (fun e => e.1 == c))).map (·.line)
    .next ((full.foldl (fun s l => s.trimSet die l false) (s.clearSlots die c d)).wakeDie die)
  | _ => .fault .noMessage

/-! ### The host (R148, R149) -/

/-- The line of a host address: key identifier 0, its half. -/
def hostLine (a : Nat) : LineId := physLine a 0
def hostHalf (a : Nat) : Nat := a / 64 % 2

/-- HOST_READ: a request of an extra agent at the home, shared or exclusive. -/
def execHostRead (s : State) : Out :=
  match s.msg with
  | some (.hostRead a excl id) =>
    let s := { s with host := { s.host with lastReq := s.cycle } }
    if s.host.down ∨ !populated a then .next s
    else .next (s.reqLine (hostLine a) (if excl then 1 else 0) (hostDie (hostHalf a) id) 0)
  | _ => .fault .noMessage

/-- HOST_WRITE: 64 bytes under a byte mask; a half the host holds exclusively is written back and given up, any other is
written once every other copy is gone. -/
def execHostWrite (s : State) : Out :=
  match s.msg with
  | some (.hostWrite a data mask) =>
    let s := { s with host := { s.host with lastReq := s.cycle } }
    let l := hostLine a
    let half := hostHalf a
    let e := s.dirOf l
    let sh := 256 ^ (64 * half)
    let put (s : State) : State :=
      let old := s.lineNow l
      let new := lineMerge old.1 (data * sh) (mask % 2 ^ 64 * 2 ^ (64 * half))
      ((s.memMet l old.2).toMem (s.homeDie l) l new old.2).wakeNaps
    if s.host.down ∨ !populated a then .next s
    else if (if half = 0 then e.hlo else e.hhi) = 2 then .next ((put s).putDir (e.setHalf half 0))
    else .next (whenQuiet s (.hostWrite a data mask) fun s =>
      let old := s.lineNow l
      ((s.memMet l old.2).lineSet l (lineMerge old.1 (data * sh) (mask % 2 ^ 64 * 2 ^ (64 * half))) old.2))
  | _ => .fault .noMessage

/-- A half's BISnp is over: modified host data is merged, the half becomes S or I, a waiting transaction counts it, and whoever
waits for the line looks again. -/
def State.bisnpDone (s : State) (b : BiSnp) (data : Option Nat) (poison : Bool) : State :=
  let s := { s with host := { s.host with bisnp := s.host.bisnp.filter (fun x => !(x.line == b.line && x.half == b.half)) } }
  let s := s.putDir ((s.dirOf b.line).setHalf b.half (if b.inv then 0 else 1))
  let old := s.lineNow b.line
  let s := match data with
    | some v => s.toMem (s.homeDie b.line) b.line (linePut old.1 (64 * b.half) 64 v) (old.2 || poison)
    | none => if poison then s.toMem (s.homeDie b.line) b.line old.1 true else s
  ((List.range 4).foldl (fun s d => s.wakeLine d b.line) (s.txnAnswered b.line none false)).wakeNaps

/-- BISNP_ANSWER: the host answers. -/
def execBisnpAnswer (s : State) : Out :=
  match s.msg with
  | some (.bisnpAnswer l half data) =>
    (match s.host.bisnp.find? (fun b => b.line == l && b.half == half) with
     | some b => .next (s.bisnpDone b data false)
     | none => .next s)
  | _ => .fault .noMessage

/-- HBTO_EXPIRY: no answer in time: the host link has failed, which FPST shows (R465), the half becomes I and is poisoned. -/
def execHbtoExpiry (s : State) : Out :=
  match s.msg with
  | some (.hbtoExpiry l half sent) =>
    (match s.host.bisnp.find? (fun b => b.line == l && b.half == half && b.sent == sent) with
     | some b => .next ((({ s with host := { s.host with down := true } } : State).errEvent
        (fun d => { d with fpst := d.fpst ||| 2 ^ 63 })).bisnpDone { b with inv := true } none true)
     | none => .next s)
  | _ => .fault .noMessage

end Sys2Proof.Machine
end

