-- ==== Sys2Proof/Machine/Control.lean ====
section
/-! DEFINITION. Control flow, gangs, versioned tasks, system instructions and control and status registers (R208 to R219,
R340 to R362), the recorders' CSRs (R456 to R460), and the events of naps, tasks, traps and the instruction buffer. -/

namespace Sys2Proof.Machine

/-! ### Moving slices -/

/-- The bundle is performed and each slice of the fragment continues as given; slices then part by PC, and finished or dead
ones leave (R211, R212). -/
def State.steer (s : State) (i : Issue) (g : Gang) (h : Nat → Slice → Slice) : State :=
  match g.frags.get i.frag with
  | none => s
  | some f =>
    let g1 := ((g.advance i.frag ((i.base + 4) % 2 ^ 64) s.cycle).mapSlices f.slices h).regroup i.frag
    ((s.putGang i.key g1.dropDead).hint i).settleGang i.key

/-- The target of a relative branch (R261). -/
def relTarget (base : Nat) (disp : Int) : Nat := wrapN 64 ((base : Int) + 4 * disp)

/-- A fragment-uniform branch (R341): taken on a condition over one uniform register. -/
def branchOn (r : Option Nat) (disp : Int) (cond : Nat → Bool) (s : State) : Out :=
  withPlan s (uPlan (match r with | some a => [a] | none => []) []) fun i g f _ =>
    let v := match r with | some a => g.u (f.ur a) | none => 0
    if cond v then s.steer i g (fun _ x => { x with pc := relTarget i.base disp }) else s.finish i g

def execBru (disp : Int) (s : State) : Out := branchOn none disp (fun _ => true) s
def execBruZ (r : Nat) (disp : Int) (s : State) : Out := branchOn (some r) disp (fun v => v == 0) s
def execBruNz (r : Nat) (disp : Int) (s : State) : Out := branchOn (some r) disp (fun v => v != 0) s
def execBruLt (r : Nat) (disp : Int) (s : State) : Out := branchOn (some r) disp (fun v => decide (2 ^ 31 ≤ v)) s
def execBruGe (r : Nat) (disp : Int) (s : State) : Out := branchOn (some r) disp (fun v => decide (v < 2 ^ 31)) s

/-- CALL (R341): the link pair receives the address of the next bundle. -/
def execCall (r : Nat) (disp : Int) (s : State) : Out :=
  withPlan s (uPlan [] [r, r + 1]) fun i g f _ =>
    let ret := (i.base + 4) % 2 ^ 64
    let g1 := (g.setU (f.ur r) (ret % 2 ^ 32)).setU (f.ur r + 1) (ret / 2 ^ 32)
    s.steer i g1 (fun _ x => { x with pc := relTarget i.base disp })

/-- Live active lanes of a slice, as four bits. -/
def Gang.sliceActive (g : Gang) (n : Nat) (x : Slice) : Nat := x.mask &&& fld g.liveUnf (4 * n) 4

/-- One slice at a BRV (R208): taken set t of its lanes a; none on stack overflow. -/
def brvSlice (x : Slice) (a t tgt ft rc : Nat) : Option Slice :=
  let n := andNot a t
  if t = 0 then some { x with pc := ft }
  else if n = 0 then some { x with pc := tgt }
  else if 16 ≤ x.stk.length then none
  else some ⟨tgt, t, ⟨ft, n, rc⟩ :: x.stk⟩

/-- BRV (R342, R208). -/
def execBrv (x : BrvOp) (s : State) : Out :=
  withPlan s (fun _ _ => { rdM := if x.m = 0 then [] else [x.m] }) fun i g f _ =>
    let tgt := relTarget i.base x.tgt
    let ft := (i.base + 4) % 2 ^ 64
    let rc := (i.base + 4 * x.rc) % 2 ^ 64
    let m := g.mask f x.m
    let sel := if x.neg then andNot allLanes m else m
    let go (n : Nat) (y : Slice) : Option Slice :=
      let a := g.sliceActive n y
      brvSlice y a (a &&& fld sel (4 * n) 4) tgt ft rc
    if (List.range 8).any (fun n => bit f.slices n && (go n (g.slice n)).isNone) then s.trap i (2 ^ cSTKOV) none
    else s.steer i g (fun n y => (go n y).getD y)

/-- One application of R209 to a slice at j with n the address after the JOIN: lv its live unfinished lanes. -/
def joinOnce (j n lv : Nat) (x : Slice) : Slice :=
  match x.stk with
  | [] => { x with pc := n }
  | e :: rest =>
    if e.rc ≠ j then { x with pc := n }
    else if e.pc ≠ j then ⟨e.pc, e.mask, ⟨j, x.mask &&& lv, e.rc⟩ :: rest⟩
    else ⟨n, (x.mask &&& lv) ||| e.mask, rest⟩

/-- JOIN on one slice (R209): a swap that leaves no live active lane is followed by a second application. -/
def joinSlice (j n lv : Nat) (x : Slice) : Slice :=
  let y := joinOnce j n lv x
  let swapped := match x.stk with | e :: _ => e.rc == j && e.pc != j | [] => false
  if swapped && y.mask &&& lv == 0 then joinOnce j n lv { y with mask := 0 } else y

/-- The accesses issued so far come before every later one of the gang (R160). -/
def Gang.fuse (g : Gang) : Gang := { g with fused := g.newOp }

/-- Where a move of a fragment's slices pops the stack of one, that slice's paths fuse (R209, R211). -/
def Gang.fusePops (g : Gang) (f : Frag) (h : Nat → Slice → Slice) : Gang :=
  if (List.range 8).any (fun k => bit f.slices k && decide ((h k (g.slice k)).stk.length < (g.slice k).stk.length)) then g.fuse
  else g

def execJoin (s : State) : Out :=
  withPlan s noPlan fun i g f _ =>
    let h (k : Nat) (x : Slice) : Slice := joinSlice i.pc ((i.base + 4) % 2 ^ 64) (fld g.liveUnf (4 * k) 4) x
    s.steer i (g.fusePops f h) h

/-- The word at a virtual address as a fetch would read it, without effects: from the instruction buffer, else memory. -/
def State.peekWord (s : State) (core asid root va : Nat) : Option Nat :=
  match (s.core core).ibuf.find? (fun x => x.asid == asid && x.va == va / 128 * 128) with
  | some x => some (lineGet x.data (va % 128) 4)
  | none =>
    if 2 ^ 57 ≤ va then none else
    match s.walkFrom 2 va 4 root [] with
    | .ok w =>
      let t := tlbOf asid va w true
      let pa := t.pa + (va - t.va)
      if populated pa then some (s.physRead t.key pa 4).1 else none
    | .error _ => none

/-- The address after the JOIN at j, which may carry an HNT word (R209). -/
def State.afterJoin (s : State) (core asid root j : Nat) : Nat :=
  match s.peekWord core asid root j with
  | some w => if fld w 26 6 = 63 ∧ fld w 24 2 = 2 then (j + 8) % 2 ^ 64 else (j + 4) % 2 ^ 64
  | none => (j + 4) % 2 ^ 64

/-- A slice whose live active lanes have ended applies R209 to its top entry with an empty mask (R211). -/
def endSlice (after : Nat → Nat) (lv : Nat) (x : Slice) : Slice :=
  match x.stk with
  | [] => { x with mask := 0 }
  | e :: _ => joinSlice e.rc (after e.rc) lv { x with mask := 0 }

/-- JMPR (R344): 0 ends the lanes, a misaligned target faults, any other is the next PC. -/
def execJmpr (a : Nat) (s : State) : Out :=
  withPlan s (uPlan [a, a + 1] []) fun i g f _ =>
    let t := g.up (f.ur a)
    if t = 0 then
      let g1 := { g with fin := g.fin ||| g.active f }
      let sp := s.space g
      let h (k : Nat) (x : Slice) : Slice := endSlice (s.afterJoin (coreOf i.key) sp.1 sp.2) (fld g1.liveUnf (4 * k) 4) x
      s.steer i (g1.fusePops f h) h
    else if t % 4 ≠ 0 then
      s.trap i (2 ^ cALIGN) (some (mkRec i.pc i.frag 0 false false true (g.active f) [(t, 0, subALIGN, 3, 1)]))
    else s.steer i g (fun _ x => { x with pc := t })

/-! ### Gang instructions -/

/-- Every other live unfinished slice of M belongs to a fragment that waits at a REGANG with the same mask (R217). -/
def Gang.regangMet (g : Gang) (m : Nat) : Bool :=
  g.frags.all (fun kf => kf.2.slices &&& m &&& g.aliveSlices == 0
    || (match kf.2.wait with | .regang m' _ => m' == m | _ => false))

/-- The fragments that a REGANG with mask M would fuse. -/
def Gang.regangFrags (g : Gang) (m : Nat) : Tab Frag := g.frags.filter (fun kf => kf.2.slices &&& m &&& g.aliveSlices != 0)

/-- The deadlocks of R219. -/
def Gang.regangDead (g : Gang) : Bool :=
  let waits := g.frags.filterMap (fun kf => match kf.2.wait with | .regang m _ => some (kf.2.slices, m) | _ => none)
  (waits.length == g.frags.length && waits.all (fun w => !g.regangMet w.2))
    || waits.any (fun w => waits.any (fun u => u.2 != w.2 && u.1 &&& w.2 &&& g.aliveSlices != 0))

/-- REGANG (R217 to R219, R347). -/
def execRegang (m : Nat) (s : State) : Out :=
  withPlan s noPlan fun i g f _ =>
    let next := (i.base + 4) % 2 ^ 64
    if andNot (g.fragSlices f) m ≠ 0 then s.trap i (2 ^ cILLEGAL) none
    else
      let w : Wait := .regang m next
      -- the hints of a fragment that waits here are taken as it begins to (R266)
      let s1 := if f.wait = w then s else (s.hold i g w).hint i
      match s1.gang i.key with
      | none => s1
      | some g1 =>
        if g1.regangMet m then
          let fs := g1.regangFrags m
          if fs.any (fun kf => kf.2.xv != f.xv || kf.2.xs != f.xs) then s1.trap i (2 ^ cREGMM) none
          else
            let num := fs.foldl (fun a kf => min a kf.1) i.frag
            let all := fs.foldl (fun a kf => a ||| kf.2.slices) f.slices
            let lowest := ((List.range 8).find? (fun n => bit all n && g1.sliceAlive n)).getD 0
            let pc := match (fs.find? (fun kf => bit kf.2.slices lowest)).map (fun kf => kf.2.wait) with
              | some (.regang _ n) => n
              | _ => next
            let rest := g1.frags.filter (fun kf => !fs.any (fun x => x.1 == kf.1) && kf.1 != i.frag)
            let ff : Frag := { f.issued s.cycle with
              slices := all, notBefore := fs.foldl (fun a kf => max a kf.2.notBefore) 0
              demoted := fs.foldl (fun a kf => max a kf.2.demoted) 0 }
            let g2 := { (g1.fuse.mapSlices all (fun _ x => { x with pc := pc })) with
              frags := Tab.set rest num ff
              skipBrk := fs.foldl (fun a kf => if g.hm then a else andNot a (2 ^ kf.1)) g1.skipBrk }
            (s1.putGang i.key g2).sample i.key 11 (match f.wait with | .regang _ _ => s.cycle - f.since | _ => 0)
        else if g1.regangDead then s1.trap i (2 ^ cREGDL) none
        else s1

/-- YIELD (R348, R432): its fragment's wait restarts and it is demoted for 16 cycles. -/
def execYield (s : State) : Out :=
  withPlan s noPlan fun i g _ _ =>
    let s := s.finish i g
    match s.gang i.key with
    | none => s
    | some g => (match g.frags.get i.frag with
      | some f => s.putGang i.key { g with frags := g.frags.set i.frag { f with demoted := s.cycle + 16 } }
      | none => s)

/-! ### NAP (R349) -/

/-- The fragment of a NAP goes on: status written, wait over, the hints of its bundle taken (R266). -/
def State.napDone (s : State) (k o : Nat) (x : Op) (st : Nat) : State :=
  match s.gang k with
  | none => s
  | some g =>
    let g1 := Gang.advance { g.setU x.dst st with ops := g.ops.erase o } x.frag (x.desc.getD 1 0) s.cycle
    let hnt := match x.desc.getD 2 0 with | 0 => none | h + 1 => some h
    ((s.putGang k g1).hint ⟨k, x.frag, x.pc, x.desc.getD 1 0 - 4, hnt⟩).sample k 12 (s.cycle - x.issued)

/-- What a NAP's read gave: poison kills the gang (R451), a changed word ends the NAP, the expected one leaves it waiting. -/
def State.napGot (s : State) (k o : Nat) (x : Op) (w : Nat) (bad : Bool) : State :=
  if bad then s.killGang k rUREG x.pc
  else if w ≠ x.desc.getD 0 0 then s.napDone k o x 0 else s

/-- Reads a NAP's word at its point of coherence: the shared store, this device's lines, or the owner by a request.  A line
whose home is busy is read when it is free, a half that the host holds exclusively once the host has answered (R149).  The
word is the committed one: inside a task too, a held write of its version is not seen (R349 reads at the point of coherence;
DEDUCED, log entry 71).  Cores recorded at a copy of the line drain first (R123). -/
def State.napRead (s : State) (k o : Nat) (x : Op) : State :=
  match x.accs with
  | [] => s
  | a :: _ =>
    if x.sp = 2 then let r := s.onRead a.line.name 0 a.off 4; s.napGot k o x r.1 r.2
    else if !a.line.obj ∨ s.objHere a.line.ident then
      match (if a.line.obj then s.ownerChk a.line.ident (a.line.off + a.off) else none) with
      | some e => (s.dropOp k o).raise k x.frag x.pc (2 ^ causeOfSub e)
          (some (mkRec x.pc x.frag 0 true false false x.act [(a.addr, 0, e, 0, x.sp)]))
      | none =>
        let l := if a.line.obj then s.objLineOf a.line.ident a.line.off else a.line
        let e := s.dirOf l
        let half := a.off / 64
        if (s.txn l).isSome ∨ s.coh.retiring = some l.key then s.after 16 (.napWake k x.frag o)
        else if (if half = 0 then e.hlo else e.hhi) = 2 then
          (if s.host.bisnp.any (fun b => b.line == l && b.half == half) then s else s.sendBisnp l half false)
        else
          let owed := (s.coh.lines.filter (fun y => y.line == l)).foldl (fun (a : State × Bool) y =>
            let d := a.1.askDrains y (some (coreOf k))
            (d.1, a.2 && d.2)) (s, true)
          if !owed.2 then owed.1.after 16 (.napWake k x.frag o)
          else
            let r := s.lineNow l
            (s.memMet l r.2).napGot k o x (lineGet r.1 a.off 4) r.2
    else if s.fab.reqs.any (fun r => r.2.cont == .nap k o) then s
    else s.newReq a.line.ident (a.line.off + a.off) .read (.nap k o)

/-- The selector of NAP's space field. -/
def napSpace (n : Nat) : Nat := match n with | 0 => 1 | 1 => 0 | _ => 2

def execNap (a space t : Nat) (s : State) : Out :=
  withPlan s (uPlan [a, a + 1, a + 2] [a + 3]) fun i g f _ =>
    let sp := napSpace space
    let fa := formAddr sp (g.up (f.ur a)) 0
    if 60 < a then s.trap i (2 ^ cBOUNDS) none
    else if g.fuseOwed then s.hold i g .room
    else match s.checkAcc i.key g f sp 4 0 0 fa with
    | .walk va => s.walkFor i g 0 [va]
    | .wait => s.hold i g .room
    | .bad e => s.trap i (2 ^ causeOfSub e) (some (mkRec i.pc i.frag 0 true false false (g.active f) [(fa.1, 0, e, 0, sp)]))
    | .ok l off =>
      let o := g.newOp
      let x : Op := { Op.blank (.nap a space t) i.frag i.pc 8 s.cycle g.hm with
        sp := sp, n := 4, dst := f.ur a + 3, act := g.active f
        accs := [⟨0, fa.1, l, off, 0, 0, none, false, 0⟩], desc := [g.u (f.ur a + 2), (i.base + 4) % 2 ^ 64, match i.hnt with | none => 0 | some h => h + 1] }
      let g1 := { g with nextOp := o + 1, ops := (g.ops.filter (fun ko => !(ko.2.cls == 8 && ko.2.frag == i.frag))) ++ [(o, x)] }
      let s := s.hold i g1 (.nap o)
      let s := if t = 0 then s else s.after (2 ^ t) (.napTimeout i.key i.frag o)
      s.napRead i.key o x

/-- A NAP's event: the operation, if its fragment still waits at it. -/
def State.napOp (s : State) (k fr o : Nat) : Option Op :=
  match (s.gang k).bind (fun g => g.frags.get fr) with
  | some f => if f.wait = .nap o then s.op k o else none
  | none => none

/-- NAP_WAKE (R349): a write to the watched line was performed, or the watch was lost: the word is read again. -/
def execNapWake (s : State) : Out :=
  match s.msg with
  | some (.napWake k fr o) =>
    (match s.napOp k fr o with
     | some x => .next (s.napRead k o x)
     | none => .next s)
  | _ => .fault .noMessage

/-- NAP_TIMEOUT (R349): the timer expires with status 1. -/
def execNapTimeout (s : State) : Out :=
  match s.msg with
  | some (.napTimeout k fr o) =>
    (match s.napOp k fr o with
     | some x => .next (s.napDone k o x 1)
     | none => .next s)
  | _ => .fault .noMessage

/-! ### Versioned tasks (R350 to R354) -/

/-- TBEG and TEND need one fragment and empty stacks (R351, R353). -/
def Gang.taskable (g : Gang) : Bool :=
  g.frags.length == 1 && (List.range 8).all (fun n => !g.sliceAlive n || (g.slice n).stk.isEmpty)

def tbeg (idem : Bool) (a : Nat) (disp : Int) (s : State) : Out :=
  withPlan s (uPlan [a] [a]) fun i g f _ =>
    if g.task ∨ !g.taskable then s.trap i (2 ^ cILLEGAL) none
    else if idem ∧ g.awaits { useU := (List.range 32).map f.ur } then s.hold i g .room
    else
      let r : TaskRec := ⟨i.pc, relTarget i.base disp, f.ur a, f.xv, f.xs, g.fin, idem,
        if idem then (List.range 32).map (fun k => g.sreg.get (f.xs + k)) else []⟩
      s.finish i { g with taskid := g.u (f.ur a), task := true, trec := r }

def execTbeg (a : Nat) (disp : Int) (s : State) : Out := tbeg false a disp s
def execTbegIdem (a : Nat) (disp : Int) (s : State) : Out := tbeg true a disp s

/-- TEND (R353): the release action at DEV; RELEASE_ACKS_DONE then performs the version's lines. -/
def execTend (s : State) : Out :=
  withPlan s noPlan fun i g _ _ =>
    if !g.task ∨ !g.taskable then s.trap i (2 ^ cILLEGAL) none
    else if g.memOwed true then s.hold i g .room
    else
      let x := { Op.blank .tend i.frag i.pc 6 s.cycle g.hm with rel := 3, phase := 1 }
      let r := s.blockOp i g x
      r.1.startDrain (coreOf i.key) [(i.key, r.2)]

/-- TEND_DONE (R353): the task is over and its fragment goes on; the version's lines were performed past the L1, which keeps no
older clean bytes of them (R175). -/
def execTendDone (s : State) : Out :=
  match s.msg with
  | some (.tendDone k o) =>
    (match s.gang k with
     | none => .next s
     | some g =>
       if g.ops.has o then
         .next (((g.spec.foldl (fun (s : State) y => s.l1Stale (coreOf k) y.line) s).putGang k
           { g with task := false, taskid := 0, spec := [] }).endOp k o)
       else .next s)
  | _ => .fault .noMessage

/-- The program fragments of a discarded version, while its handler runs: in the shadow, all at the abort target. -/
def Gang.discardShadow (g : Gang) (pc : Nat) : Gang :=
  let lv := andNot g.live g.trec.fin
  let alive := maskOfList ((List.range 8).filter (fun n => fld lv (4 * n) 4 != 0))
  let sl := g.slices.mapIdx (fun i _ => (⟨pc, fld lv (4 * i) 4, []⟩ : Slice))
  { g with spec := [], task := false, taskid := 0, fin := g.trec.fin
           shadow := some ⟨sl, [(0, ⟨alive, g.trec.xv, g.trec.xs, .ready, 0, 0, 0, 0, [], none, none⟩)], [(0, pc)]⟩ }

/-- TABT (R354). -/
def execTabt (code : Nat) (s : State) : Out :=
  withPlan s noPlan fun i g _ _ =>
    if !g.task then s.trap i (2 ^ cILLEGAL) none
    else if g.memOwed false then s.hold i g .room
    else if g.hm then s.finish i ((g.discardShadow g.trec.abort).setU g.trec.stat (0x10000 + code))
    else (s.putGang i.key ((g.discard g.trec.abort s.cycle).setU g.trec.stat (0x10000 + code))).hint { i with frag := 0 }

/-! ### System instructions (R355 to R358) -/

/-- TRAP (R356): TRAPI is raised and the instruction counts as complete. -/
def execTrap (_code : Nat) (s : State) : Out :=
  withPlan s noPlan fun i g _ _ =>
    if g.hm then s.killGang i.key rHNDF i.pc
    else (s.finish i g).raise i.key i.frag i.pc (2 ^ cTRAPI) none

/-- BRK (R356, R447, R450): with BRKPT enabled the gang halts at this bundle; else a NOP that sets the bit. -/
def execBrk (_code : Nat) (s : State) : Out :=
  withPlan s noPlan fun i g _ _ =>
    if g.hm then s.finish i { g with tcause := g.tcause ||| 2 ^ cBRKPT }
    else if bit g.skipBrk i.frag then s.finish i g
    else if !bit g.tmask cBRKPT then s.finish i { g with tcause := g.tcause ||| 2 ^ cBRKPT }
    else (s.putGang i.key (g.addCause (2 ^ cBRKPT) i.pc)).trapDue i.key

def execNop (s : State) : Out := withPlan s noPlan fun i g _ _ => s.finish i g

/-- Clears TCAUSE bits 0 to 23 (R357); a held late cause whose bits are gone leaves no record. -/
def Gang.clearCause (g : Gang) (v : Nat) : Gang :=
  let t := andNot g.tcause (v % 2 ^ 24)
  { g with tcause := t, late := g.late.filter (fun x => x.1 &&& t != 0) }

def execTclr (a : Nat) (s : State) : Out :=
  withPlan s (uPlan [a] []) fun i g f _ => s.finish i (g.clearCause (g.u (f.ur a)))

/-- TRET (R358, R444): the program fragments are restored; enabled causes that are pending are taken before any of them
issues.  A gang whose lanes the handler has all killed is killed here. -/
def execTret (s : State) : Out :=
  withPlan s noPlan fun i g _ _ =>
    if !g.hm ∨ !g.taskable then s.trap i (2 ^ cILLEGAL) none
    else if g.live = 0 then s.killGang i.key rNOLANE g.reportPc
    else
      let p := g.tcause &&& g.tmask
      let s := s.hint i
      let s := if p = 0 ∨ lowestClass p = 3 then s.sample i.key 14 (s.cycle - g.hentry) else s
      ((s.putGang i.key (g.returned s.cycle)).settleGang i.key).trapDue i.key

/-! ### Control and status registers (R359 to R362) -/

/-- FRAGS of GSTAT: the program fragments (R206, R443). -/
def Gang.fragBits (g : Gang) : Nat :=
  match g.shadow with
  | some x => maskOfList (x.frags.map (·.1))
  | none => maskOfList (g.frags.map (·.1))

def Gang.gstat (g : Gang) : Nat :=
  g.fragBits * 256 + (if g.deadsrc then 64 else 0) + (if g.peerlost then 32 else 0) + (if g.chk then 16 else 0)
    + (if g.task then 8 else 0) + (if g.hm then 2 else 0)

/-- TFPC.f (R212, R360, R443). -/
def Gang.tfpc (g : Gang) (n : Nat) : Nat :=
  match g.shadow with
  | some x => (x.tfpc.get n).getD 0
  | none => match g.frags.get n with | some f => g.pcOf f | none => 0

/-- CAPW (R6). -/
def capw : Nat := 0x10000 + Config.nport * 2048 + (if Config.isA1 then 0x600 else 0) + 0x100 + (if Config.isA1 then 1 else 2)

/-- A recorder of the gang's core. -/
def State.recorder (s : State) (k r : Nat) : Recorder := (s.core (coreOf k)).recs.getD r Recorder.fresh

/-- A CSR's value (R359, R360, R456). -/
def State.csrRead (s : State) (k : Nat) (g : Gang) (n : Nat) : Nat :=
  if 0x010 ≤ n ∧ n ≤ 0x017 then g.tfpc (n - 0x010)
  else if 0x100 ≤ n ∧ n ≤ 0x17F then
    let q := s.recorder k ((n - 0x100) / 8)
    match n % 8 with
    | 0 => (if q.en then 2 ^ 31 else 0) + (if q.en ∧ q.owner = g.launch then 2 ^ 29 else 0) + q.evt * 2 ^ 16 + q.flt * 2 ^ 8
    | 1 => q.mn
    | 2 => q.mx
    | 3 => q.cnt
    | 4 => (q.bins.get ((g.lrbsel.get ((n - 0x100) / 8)).toNat)).toNat
    | 5 => (g.lrbsel.get ((n - 0x100) / 8)).toNat
    | _ => 0
  else match n with
    | 0x000 => g.gstat
    | 0x001 => g.tcause
    | 0x003 => g.tmask
    | 0x004 => g.tvec
    | 0x018 => g.dl
    | 0x020 => g.fpctl
    | 0x021 => g.fpstat
    | 0x030 => g.g
    | 0x031 => (match s.block g.blk with | some b => b.b | none => 0)
    | 0x032 => coreOf k
    | 0x033 => s.devNum
    | 0x034 => g.taskid
    | 0x040 => capw
    | 0x050 => g.prog
    | _ => 0

/-- CSRs of 64 bits. -/
def csrWide (n : Nat) : Bool := n == 4 || decide (0x010 ≤ n ∧ n ≤ 0x017)

/-- TMASK's writable bits and its fixed ones (R361). -/
def tmaskRw : Nat := 0x331800
def tmaskFix : Nat := 0x1CCE7FF

/-- How a CSR is changed: 1 CSRW, 2 CSRS, 3 CSRC. -/
def csrNew (op old v : Nat) : Nat := match op with | 1 => v | 2 => old ||| v | _ => andNot old v

/-- A write to a recorder's LRCFG (R457, R460): none when it raises PROT. -/
def Recorder.config (q : Recorder) (g : Gang) (v : Nat) : Option Recorder :=
  let evt := fld v 16 8
  let flt := fld v 8 8
  if (q.en ∧ q.owner ≠ g.launch) ∨ 16 < evt ∨ 2 < flt then none
  else
    let en := bit v 31
    let q := if bit v 30 then { q with mn := 0xFFFFFFFF, mx := 0, cnt := 0, bins := [] } else q
    some { q with en := en, evt := evt, flt := flt
                  owner := if en ∧ !q.en then g.launch else q.owner
                  gang := if en ∧ !q.en then g.g else q.gang }

/-- A recorder's CSR written (R456, R460). -/
def State.lrecWrite (s : State) (k : Nat) (g : Gang) (n op v : Nat) : Option (State × Gang) :=
  let r := (n - 0x100) / 8
  let new := csrNew op (s.csrRead k g n) v
  match n % 8 with
  | 0 => match (s.recorder k r).config g new with
    | none => none
    | some q =>
      let c := s.core (coreOf k)
      some (s.putCore (coreOf k) { c with recs := c.recs.set r q }, g)
  | 5 => some (s, { g with lrbsel := g.lrbsel.put r (BitVec.ofNat 32 (new % 32)) })
  | 6 => some (s, g)
  | 7 => some (s, g)
  | _ => none

/-- A CSR write (R359, R360): the state and gang after it, or none when it is refused with PROT. -/
def State.csrWrite (s : State) (k : Nat) (g : Gang) (n op v : Nat) : Option (State × Gang) :=
  let old := s.csrRead k g n
  let new := csrNew op old v
  if 0x010 ≤ n ∧ n ≤ 0x017 then
    match g.shadow with
    | none => none
    | some x => if x.tfpc.has (n - 0x010) then
        some (s, { g with shadow := some { x with tfpc := x.tfpc.set (n - 0x010) (new / 4 * 4) } }) else some (s, g)
  else if 0x100 ≤ n ∧ n ≤ 0x17F then s.lrecWrite k g n op v
  else match n with
    | 0x000 =>
      if (new ^^^ old) &&& 0xFF1A ≠ 0 then none
      else if op = 3 then some (s, { g with deadsrc := g.deadsrc && !bit v 6, peerlost := g.peerlost && !bit v 5 })
      else some (s, g)
    | 0x001 => if op = 3 then some (s, g.clearCause v) else none
    | 0x002 => some (s, g)
    | 0x003 => some (s, { g with tmask := tmaskFix ||| (new &&& tmaskRw) })
    | 0x004 => some (s, { g with tvec := new / 4 * 4 })
    | 0x018 => if op = 2 then some (s, g) else none
    | 0x020 => some (s, { g with fpctl := fpctlWrite old new })
    | 0x021 => some (s, { g with fpstat := new % 32 })
    | 0x050 => some (s, { g with prog := new })
    | _ => none

/-- CSRR. -/
def execCsrr (a n : Nat) (s : State) : Out :=
  withPlan s (uPlan [] (regs (csrWide n) a)) fun i g f _ =>
    let v := s.csrRead i.key g n
    s.finish i (if csrWide n then (g.setU (f.ur a) (v % 2 ^ 32)).setU (f.ur a + 1) (v / 2 ^ 32) else g.setU (f.ur a) v)

/-- CSRW, CSRS, CSRC: a write takes effect before the next bundle, with a cause it enables taken first; CSRS of DLMASK kills
lanes (R207): dead slices leave at once (R221), and a gang without a live lane is killed, from a handler at its TRET (R444). -/
def csrChange (op a n : Nat) (s : State) : Out :=
  withPlan s (uPlan (regs (csrWide n) a) []) fun i g f _ =>
    let v := g.uw (csrWide n) (f.ur a)
    match s.csrWrite i.key g n op v with
    | none => s.trap i (2 ^ cPROT) none
    | some (s, g) =>
      if n = 0x018 then
        if g.hm then
          let s := s.finish i { g with dl := g.dl ||| v }
          (match s.gang i.key with | some h => (s.putGang i.key h.dropDead).settleGang i.key | none => s)
        else (s.finish i g).killLanes i.key v 0
      else (s.finish i g).trapDue i.key

def execCsrw (a n : Nat) (s : State) : Out := csrChange 1 a n s
def execCsrs (a n : Nat) (s : State) : Out := csrChange 2 a n s
def execCsrc (a n : Nat) (s : State) : Out := csrChange 3 a n s

/-! ### Events of traps and of the instruction buffer -/

/-- TRAP_ENTRY (R441): a gang inside its TEND reaches its bundle boundary first (R255). -/
def execTrapEntry (s : State) : Out :=
  match s.msg with
  | some (.trapEntry k) =>
    (match s.gang k with
     | some g => if g.ops.any (fun ko => ko.2.what == .tend) then .next (s.after 16 (.trapEntry k))
                 else .next (whenQuiet s (.trapEntry k) fun s => s.enter k)
     | none => .next s)
  | _ => .fault .noMessage

/-- HANDLER_PREEMPT (R447): a pre-emption still pending after 65 536 cycles of an entry saves the block at once. -/
def execHandlerPreempt (s : State) : Out :=
  match s.msg with
  | some (.handlerPreempt k entry) =>
    (match s.gang k with
     | none => .next s
     | some g =>
       if !g.hm ∨ g.hentry ≠ entry ∨ g.retired then .next s
       else if bit g.tcause cPREEMPT ∨ bit g.tcause cSLICE then
         (match s.launch g.launch with
          | some l => if l.savb = 0 then .next s else .next (s.push (.blockSave g.blk))
          | none => .next s)
       else .next (s.after 64 (.handlerPreempt k entry)))
  | _ => .fault .noMessage

/-- A line enters the instruction buffer; of 1 024 lines the least recently used that no fragment's next bundle starts in, and no
prefetch is under way for, leaves (R430). -/
def State.ibufPut (s : State) (core : Nat) (x : IbLine) : State :=
  let c := s.core core
  let l := c.ibuf.filter (fun y => !(y.asid == x.asid && y.va == x.va))
  let used (y : IbLine) : Bool := s.gangs.any (fun kg => coreOf kg.1 == core && (s.space kg.2).1 == y.asid
    && (kg.2.frags.any (fun kf => kg.2.pcOf kf.2 / 128 * 128 == y.va) || s.pending.any (fun m => match m with
      | .ibufFill k 8 va => k == kg.1 && va / 128 * 128 == y.va
      | _ => false)))
  let l := if l.length < 1024 then l else match l.find? (fun y => !used y) with | some v => l.filter (fun y => y != v) | none => l
  if l.length < 1024 then s.putCore core { c with ibuf := l ++ [x] } else s

/-- IBUF_FILL (R430, R255, R451): a line arrives; a fetch that faults is reported when the fragment issues; a poisoned line
kills the gang that fetches it.  Fragment 8 stands for a prefetch (R266), which is dropped when it would fault. -/
def execIbufFill (s : State) : Out :=
  match s.msg with
  | some (.ibufFill k fr va) =>
    .next (whenQuiet s (.ibufFill k fr va) fun s =>
      match s.gang k with
      | none => s
      | some g =>
        let sp := s.space g
        let core := coreOf k
        let ready (g : Gang) (fail : Option Nat) : Gang :=
          match g.frags.get fr with
          | none => g
          | some f =>
            let f := match f.wait with | .fetch _ => { f with wait := .ready } | _ => f
            { g with frags := g.frags.set fr (match fail with
                | some e => { f with walkFails := f.walkFails ++ [⟨va / 4096, 2, e⟩] }
                | none => f) }
        if 2 ^ 57 ≤ va then (if fr = 8 then s else s.putGang k (ready g (some subNONCANON))) else
        let c := s.core core
        let (s, t) := match c.tlb.find? (fun t => t.serves sp.1 va 2) with
          | some t => (s, Except.ok t)
          | none => match s.dieTranslate (dieOf core) sp.1 sp.2 va 2 with
            | (s, .ok t) => (s.putCore core { (s.core core) with tlb := tlbPut 256 8 (s.core core).tlb t }, .ok t)
            | (s, .error e) => (s, .error e)
        match (match t with | .ok t => s.physChk t va 0 | .error e => .bad e) with
        | .ok l _ =>
          let r := s.lineNow l
          if r.2 then (if fr = 8 then s else s.killGang k rFETCH (match g.frags.get fr with | some f => g.pcOf f | none => va))
          else
            let s := s.ibufPut core ⟨sp.1, va / 128 * 128, r.1⟩
            (match s.gang k with | some g => s.putGang k (ready g none) | none => s)
        | .bad e => if fr = 8 then s else s.putGang k (ready g (some e))
        | _ => if fr = 8 then s else s.after 64 (.ibufFill k fr va))
  | _ => .fault .noMessage

end Sys2Proof.Machine
end

