-- ==== Sys2Proof/Machine/SStore.lean ====
section
/-! DEFINITION. The state store (R384, R392, R393, R419, R420): its commands and the event that performs one. -/

namespace Sys2Proof.Machine

/-- CODE values of R384. -/
def ssNOFRAME : Nat := 6
def ssNOSPACE : Nat := 7
def ssBADSLOT : Nat := 9
/-- "None" in a result pair (R393). -/
def ssNone : List Nat := [0xFFFFFFFF, 0]

/-! ### Issue (R393) -/

/-- Checks of a SLOT register: `data` when SRC or DST follows. -/
def slotCheck (data : Bool) (v : Nat) : List (Option EngBad) :=
  [unlessBad (fld v 16 12 == 0) v eDESC 1 0, unlessBad (if data then decide (fld v 28 4 < 2) else fld v 28 4 == 0) v eSPACE 1 (fld v 28 4)]

def ssopnCheck (_ : State) (_ : Issue) (_ : Gang) (d : List Nat) : EngChecks :=
  (slotCheck false (d.getD 0 0) ++ [unlessBad (decide (d.getD 1 0 ≤ 16)) (d.getD 1 0) eDESC 1 0,
    unlessBad (decide (d.getD 5 0 ≤ 0xFFFF)) (d.getD 5 0) eDESC 1 0], [])
/-- SSSV and SSLD: their SRC or DST is a multiple of 128; SSSV accepts no tag 0xFFFF_FFFF. -/
def ssdataCheck (save : Bool) (_ : State) (_ : Issue) (_ : Gang) (d : List Nat) : EngChecks :=
  let p := d.getD 2 0 + 2 ^ 32 * d.getD 3 0
  (slotCheck true (d.getD 0 0) ++ [unlessBad (!save || d.getD 1 0 != 0xFFFFFFFF) (d.getD 1 0) eDESC 1 0,
    unlessBad (p % 128 == 0) p eALIGN (if save then 0 else 1) (fld (d.getD 0 0) 28 4)], [])
def ssslotCheck (_ : State) (_ : Issue) (_ : Gang) (d : List Nat) : EngChecks := (slotCheck false (d.getD 0 0), [])
def ssfrkCheck (_ : State) (_ : Issue) (_ : Gang) (d : List Nat) : EngChecks :=
  (slotCheck false (d.getD 0 0) ++ [unlessBad (decide (d.getD 1 0 ≤ 0xFFFF)) (d.getD 1 0) eDESC 1 0], [])

def execSsopn (x : Cmd) (s : State) : Out := atStep (.ssopn x) 5 6 x 0 ssopnCheck 0 s
def execSsld (x : Cmd) (s : State) : Out := atStep (.ssld x) 5 4 x 2 (ssdataCheck false) 0 s
def execSssv (x : Cmd) (s : State) : Out := atStep (.sssv x) 5 4 x 0 (ssdataCheck true) 0 s
def execSsrbk (x : Cmd) (s : State) : Out := atStep (.ssrbk x) 5 2 x 2 ssslotCheck 0 s
def execSsfrk (x : Cmd) (s : State) : Out := atStep (.ssfrk x) 5 3 x 2 ssfrkCheck 0 s
def execSsqry (x : Cmd) (s : State) : Out := atStep (.ssqry x) 5 2 x 2 ssslotCheck 0 s

/-! ### Slot records (R392) -/

/-- A slot's record: entries (tag, frame) newest first. -/
structure Slot where
  pool : Nat
  handle : Nat
  layer : Nat
  nfr : Nat
  new : Nat
  ents : List (Nat × Nat)
  deriving DecidableEq, Repr

/-- The physical address of record n. -/
def State.slotAddr (s : State) (n : Nat) : Nat := tabBase s.dcb.sstb + 256 * n

def slotOfBytes (v : Nat) : Slot :=
  let nfr := byteField v 14 1
  let new := byteField v 16 1
  ⟨byteField v 0 8, byteField v 8 4, byteField v 12 2, nfr, new,
    (List.range (byteField v 17 1)).map (fun k =>
      let pos := (new + 256 * nfr - k) % max nfr 1
      (byteField v (32 + 8 * pos) 4, byteField v (36 + 8 * pos) 4))⟩

/-- The entries' tags strictly descend. -/
def tagsDescend : List (Nat × Nat) → Bool
  | a :: b :: rest => decide (b.1 < a.1) && tagsDescend (b :: rest)
  | _ => true

/-- A malformed record of an open slot (R392). -/
def slotBad (v : Nat) : Bool :=
  let x := slotOfBytes v
  byteField v 15 1 != 0 || byteField v 18 14 != 0 || byteField v 160 96 != 0
    || decide (16 < x.nfr ∨ x.nfr < byteField v 17 1 ∨ x.nfr ≤ x.new) || !tagsDescend x.ents

/-- The record's bytes.  Those of entries that are not valid are zero, which no rule says (DESIGN CHOICE, log entry 80). -/
def Slot.bytes (x : Slot) : Nat :=
  packBytes ([(0, x.pool), (8, x.handle), (12, x.layer), (14, x.nfr), (16, x.new), (17, x.ents.length)]
    ++ (x.ents.zipIdx.flatMap (fun (e : (Nat × Nat) × Nat) =>
      let pos := (x.new + 256 * x.nfr - e.2) % max x.nfr 1
      [(32 + 8 * pos, e.1.1), (36 + 8 * pos, e.1.2)])))

/-- Writes a slot's record. -/
def EngX.putSlot (x : EngX) (n : Nat) (r : Slot) : EngX :=
  if !x.ok then x else { x with st := x.st.physWrite 0 (x.st.slotAddr n) 256 r.bytes }

/-- Reads a slot's record: none for a closed slot. -/
def EngX.slot (x : EngX) (n : Nat) : EngX × Option Slot :=
  let a := x.st.slotAddr n
  let v := x.st.physRead 0 a 256
  if v.2 then ({ x with st := x.st.physMet 0 a 256 }.fail 3 (a, 0, 0, 1), none)
  else if byteField v.1 14 1 = 0 then (x, none)
  else if slotBad v.1 then (x.fail 3 (a, 0, 0, 1), none)
  else (x, some (slotOfBytes v.1))

/-! ### Pools (R392) -/

/-- A state pool: its pointer, frame size and frames. -/
structure Pool where
  ptr : Nat
  fsz : Nat
  nf : Nat
  deriving DecidableEq, Repr

def Pool.h (p : Pool) : Nat := (64 + 4 * p.nf + 4095) / 4096 * 4096

/-- Reads a pool's header and checks it (R392). -/
def EngX.pool (x : EngX) (ptr0 : Nat) : EngX × Pool :=
  let ptr := ptr0 / 2 ^ 36 * 2 ^ 36
  let r := x.readBytes 0 64 ptr 0
  let p : Pool := ⟨ptr, byteField r.2.1 0 4, byteField r.2.1 4 4⟩
  let bad : EngBad := (r.2.2.getD ptr, 0, 0, 0)
  if !r.1.ok ∨ !r.1.needs.isEmpty then (r.1, p)
  else if r.2.2.isSome ∨ p.fsz < 4096 ∨ 2 ^ 20 < p.fsz ∨ p.fsz % 4096 ≠ 0 ∨ p.nf = 0 ∨ 65536 < p.nf ∨ byteField r.2.1 8 56 ≠ 0 then (r.1.fail 3 bad, p)
  else
    -- the pool reaches to the end of its last frame
    let e := r.1.read 0 1 ptr ((p.h + p.nf * p.fsz : Nat) - 1 : Int)
    if e.1.bad.isSome then (r.1.fail 3 bad, p) else (e.1, p)

/-- Reads a frame's reference count. -/
def EngX.ref (x : EngX) (p : Pool) (i : Nat) : EngX × Nat :=
  let r := x.read 0 4 p.ptr (64 + 4 * i)
  if r.2.2 then (r.1.fail 3 (p.ptr + 64 + 4 * i, 0, 0, 0), 0) else (r.1, r.2.1)
def EngX.setRef (x : EngX) (p : Pool) (i v : Nat) : EngX := x.write 0 4 p.ptr (64 + 4 * i) v false
/-- Releases a frame: a count of 0 stays 0 (R393). -/
def EngX.unref (x : EngX) (p : Pool) (i : Nat) : EngX := let r := x.ref p i; r.1.setRef p i (r.2 - 1)
def EngX.upref (x : EngX) (p : Pool) (i : Nat) : EngX := let r := x.ref p i; r.1.setRef p i (min (r.2 + 1) 0xFFFFFFFF)
def EngX.unrefAll (x : EngX) (p : Pool) (es : List (Nat × Nat)) : EngX := es.foldl (fun x e => x.unref p e.2) x

/-- The lowest frame free once the given entries are released (R393). -/
def EngX.findFrame (x : EngX) (p : Pool) (rel : List (Nat × Nat)) : EngX × Option Nat :=
  (List.range p.nf).foldl (fun (acc : EngX × Option Nat) i =>
    match acc.2 with
    | some _ => acc
    | none =>
      let r := acc.1.ref p i
      let n := (rel.filter (fun e => e.2 == i)).length
      (r.1, if r.2 ≤ n then some i else none)) (x, none)

/-- Copies n bytes between a frame and an address, poison following (R373). -/
def EngX.move (x : EngX) (ssp src : Nat) (so : Int) (dsp dst : Nat) (dO : Int) (n : Nat) : EngX :=
  (List.range (n / 4)).foldl (fun x (j : Nat) =>
    let r := x.read ssp 4 src (so + 4 * j)
    r.1.write dsp 4 dst (dO + 4 * j) r.2.1 r.2.2) x

/-! ### The commands (R393) -/

/-- An open slot with its pool, or BADSLOT. -/
def EngX.openSlot (x : EngX) (n : Nat) (f : EngX → Slot → Pool → EngX) : EngX :=
  let r := x.slot n
  match r.2 with
  | none => if r.1.ok then r.1.fail ssBADSLOT (0, 0, 0, 0) else r.1
  | some sl =>
    let p := r.1.pool sl.pool
    if !p.1.ok ∨ !p.1.needs.isEmpty then p.1
    else if sl.ents.any (fun e => decide (p.2.nf ≤ e.2)) then p.1.fail 3 (x.st.slotAddr n, 0, 0, 1)
    else f p.1 sl p.2

/-- The newest entry at or below a tag. -/
def Slot.le (x : Slot) (tag : Nat) : Option (Nat × Nat) := x.ents.find? (fun e => decide (e.1 ≤ tag))
/-- Keeps the entries at or below a tag, the newest entry moving down the ring. -/
def Slot.cut (x : Slot) (n : Nat) : Slot := { x with ents := x.ents.drop n, new := (x.new + 256 * x.nfr - n) % max x.nfr 1 }

def ssopnRun (d : Nat → Nat) (x : EngX) : EngX :=
  let n := fld (d 0) 0 16
  let r := x.slot n
  if !r.1.ok then r.1
  else match r.2 with
  | some sl =>
    let shut (x : EngX) : EngX :=
      if d 1 ≠ 0 then x.fail ssBADSLOT (0, 0, 0, 0) else x.putSlot n ⟨sl.pool, sl.handle, sl.layer, 0, 0, []⟩
    if sl.ents.isEmpty then shut r.1
    else r.1.openSlot n fun x _ p => if d 1 ≠ 0 then shut x else shut (x.unrefAll p sl.ents)
  | none =>
    if d 1 = 0 then r.1.putSlot n ⟨0, 0, 0, 0, 0, []⟩
    else
      let ptr := d 2 + 2 ^ 32 * d 3
      let p := r.1.pool ptr
      if !p.1.ok ∨ !p.1.needs.isEmpty then p.1 else p.1.putSlot n ⟨ptr / 2 ^ 36 * 2 ^ 36, d 4, d 5 % 2 ^ 16, d 1, 0, []⟩

/-- The end of an SSSV, every frame byte performed (R200): the oldest entry of a full ring leaves, and the new one is written.  The
ring index of the first entry of an empty ring is not stated: NEW stays (DESIGN CHOICE, log entry 80). -/
def EngX.newest (x : EngX) (n : Nat) (sl : Slot) (p : Pool) (tag i : Nat) : EngX :=
  let old := if sl.ents.length = sl.nfr then sl.ents.drop (sl.nfr - 1) else []
  let new := if sl.ents.isEmpty then sl.new else (sl.new + 1) % sl.nfr
  (x.unrefAll p old).putSlot n { sl with ents := (tag, i) :: sl.ents.take (sl.nfr - 1), new := new }

/-- SSSV, up to the frame's bytes.  It changes nothing when a reference count is unsound, or when it needs the absent tier (R5, R384).
A frame written at another device, or still on its way to its recovery unit, leaves the entry
to a second part (R200), its frame pinned meanwhile. -/
def sssvRun (d : Nat → Nat) (x : EngX) : EngX :=
  let n := fld (d 0) 0 16
  let src := d 2 + 2 ^ 32 * d 3
  x.openSlot n fun x sl p =>
    let rel := sl.ents.takeWhile (fun e => decide (d 1 ≤ e.1))
    let fr := x.findFrame p rel
    if !fr.1.needs.isEmpty then fr.1 else
    match fr.2 with
    | none => fr.1.fail ssNOSPACE (0, 0, 0, 0)
    | some i =>
      let x := (fr.1.unrefAll p rel).setRef p i 1
      let nothing (y : EngX) : EngX := { fr.1 with bad := y.bad, again := y.again, needs := y.needs }
      if !x.ok then nothing x else
      let sl := sl.cut rel.length
      let y := x.move (fld (d 0) 28 4) src 0 0 p.ptr ((p.h + i * p.fsz : Nat) : Int) p.fsz
      match y.bad with
      | some b => if b.2.2.1 = 256 then nothing y else { ({ y with bad := none }.setRef p i 0).putSlot n sl with bad := some b }
      | none =>
        if y.outs.isEmpty && !y.st.objInflight (p.ptr / 2 ^ 36) then y.newest n sl p (d 1) i
        else { (y.setRef p i 2).putSlot n sl with later := if y.again || !y.needs.isEmpty then 0 else i + 1 }

/-- The second part of an SSSV whose frame is i: a copy that failed gives the frame back, and writes no entry. -/
def sssvEnd (d : Nat → Nat) (i : Nat) (failed : Bool) (x : EngX) : EngX :=
  x.openSlot (fld (d 0) 0 16) fun x sl p =>
    if failed then x.setRef p i 0
    else if x.st.objInflight (p.ptr / 2 ^ 36) then { x with again := true }
    else (x.unref p i).newest (fld (d 0) 0 16) sl p (d 1) i

/-- The frame of an SSLD copied to its DST. -/
def ssldCopy (d : Nat → Nat) (x : EngX) (p : Pool) (e : Nat × Nat) : EngX :=
  let y := x.move 0 p.ptr ((p.h + e.2 * p.fsz : Nat) : Int) (fld (d 0) 28 4) (d 2 + 2 ^ 32 * d 3) 0 p.fsz
  if y.ok then { y with out := [e.1, d 1 - e.1] } else y

/-- SSLD.  A frame at another device is pinned before its lines are fetched, which leaves the copy to a second part (R419); one
here is copied in this step, and no other command can see its pin (log entry 76). -/
def ssldRun (d : Nat → Nat) (x : EngX) : EngX :=
  x.openSlot (fld (d 0) 0 16) fun x sl p =>
    match sl.le (d 1) with
    | none => x.fail ssNOFRAME (0, 0, 0, 0)
    | some e =>
      if (x.st.lookHere (p.ptr / 2 ^ 36)).2 then ssldCopy d x p e
      else
        let y := x.upref p e.2
        { y with later := if y.ok && y.needs.isEmpty then e.2 + 1 else 0 }

/-- The second part of an SSLD whose frame i is pinned: the copy, and the pin given back whatever becomes of it. -/
def ssldEnd (d : Nat → Nat) (i : Nat) (failed : Bool) (x : EngX) : EngX :=
  x.openSlot (fld (d 0) 0 16) fun x sl p =>
    let free (y : EngX) : EngX := { ({ y with bad := none }.unref p i) with bad := y.bad }
    if failed then free x else
    match sl.ents.find? (fun e => e.2 == i) with
    | none => free x
    | some e => let y := ssldCopy d x p e
                if y.again then y else free y

def ssrbkRun (d : Nat → Nat) (x : EngX) : EngX :=
  let n := fld (d 0) 0 16
  x.openSlot n fun x sl p =>
    match sl.le (d 1) with
    | none => x.fail ssNOFRAME (0, 0, 0, 0)
    | some e =>
      let rel := sl.ents.takeWhile (fun q => decide (e.1 < q.1))
      { (x.unrefAll p rel).putSlot n (sl.cut rel.length) with out := [e.1, d 1 - e.1] }

/-- SSFRK.  The ring indices of the copied entries are not stated: they lie from 0 on, the oldest first (DESIGN CHOICE, log
entry 80). -/
def ssfrkRun (d : Nat → Nat) (x : EngX) : EngX :=
  let n := fld (d 0) 0 16
  let m := fld (d 1) 0 16
  x.openSlot n fun x sl p =>
    let r := x.slot m
    match r.2 with
    | none => if r.1.ok then r.1.fail ssBADSLOT (0, 0, 0, 0) else r.1
    | some dl =>
      let q := if dl.ents.isEmpty ∨ dl.pool = sl.pool then (r.1, p) else r.1.pool dl.pool
      if !q.1.ok ∨ !q.1.needs.isEmpty then q.1
      else if dl.ents.any (fun e => decide (q.2.nf ≤ e.2)) then r.1.fail 3 (x.st.slotAddr m, 0, 0, 1)
      else if n = m ∨ dl.pool ≠ sl.pool then r.1.fail ssBADSLOT (0, 0, 0, 0)
      else
        let share := (sl.ents.dropWhile (fun e => decide (d 2 < e.1))).take dl.nfr
        let x := share.foldl (fun x e => x.upref p e.2) (r.1.unrefAll p dl.ents)
        let x := x.putSlot m { dl with ents := share, new := share.length - 1 }
        match share with
        | [] => x.fail ssNOFRAME (0, 0, 0, 0)
        | e :: _ => { x with out := [e.1, d 2 - e.1] }

def ssqryRun (d : Nat → Nat) (x : EngX) : EngX :=
  x.openSlot (fld (d 0) 0 16) fun x sl _ =>
    let x := { x with low := sl.ents.length + 2 ^ 8 * sl.nfr }
    match sl.le (d 1) with
    | none => x.fail ssNOFRAME (0, 0, 0, 0)
    | some e => { x with out := [e.1, 0] }

/-- What a slot command performs; a result pair is "none" unless it succeeds. -/
def ssRun (y : Op) (x : EngX) : EngX :=
  let d (n : Nat) := y.desc.getD n 0
  let r := match y.what with
    | .ssopn _ => ssopnRun d x
    | .ssld _ => if y.bin = 0 then ssldRun d x else ssldEnd d (y.bin - 1) (y.code != 0) x
    | .sssv _ => if y.bin = 0 then sssvRun d x else sssvEnd d (y.bin - 1) (y.code != 0) x
    | .ssrbk _ => ssrbkRun d x
    | .ssfrk _ => ssfrkRun d x
    | _ => ssqryRun d x
  { r with out := if y.res.isEmpty then [] else if r.bad.isSome then ssNone else r.out }

/-- Another slot command has begun and waits for other devices, or for its frame's bytes: the operations on one slot, and the
allocations from one pool, are performed one at a time (R393, R420). -/
def State.ssBusy (s : State) (k o : Nat) : Bool :=
  s.gangs.any (fun kg => kg.2.ops.any (fun ko => !(kg.1 == k && ko.1 == o) && ko.2.cls == 5 && !ko.2.done
    && ((ko.2.phase == 2 && (!ko.2.fetched.isEmpty || ko.2.bin != 0)) || (decide (2 ≤ ko.2.phase) && s.cmdReqs kg.1 ko.1))))

/-- STATE_STORE_OP (R393, R419): the engine of the slot's I/O die performs a command in one step, a gang's in issue order. -/
def execStateStoreOp (s : State) : Out :=
  match s.msg with
  | some (.stateStoreOp k o) =>
    (match s.op k o with
     | none => .next s
     | some x =>
       if x.phase ≠ 2 ∨ s.clsEarlier k o 5 then .next s
       else if s.ssBusy k o then .next (s.after 16 (.stateStoreOp k o))
       else .next (whenQuiet s (.stateStoreOp k o) fun s => (s.engRun k o (.stateStoreOp k o) ssRun).clsKick k 5))
  | _ => .fault .noMessage

end Sys2Proof.Machine
end

