-- ==== Sys2Proof/Machine/Fabric.lean ====
section
/-! DEFINITION. The object messages of the locate path (R56 to R60), the pod directory (R133 to R136), retransmission and
failed peers (R141, R142, R176), the pod map (R139, R143, R466, R467), and the fabric ports. -/

namespace Sys2Proof.Machine

/-! ### OREQ and OFWD at a device (R57, R78) -/

/-- A request held back by a migration of its object (R74, R78): prefetches are dropped, OMIG is busy, the rest waits. -/
def State.queueReq (s : State) (m : Mig) (r : ObjReq) (e : Nat) : State :=
  match r.op with
  | .prefetch => s.sendRsp r (s.rspOf r e 300)
  | .mig _ => s.sysRsp r e 5
  | _ =>
    if 4096 ≤ (s.party m).foldl (fun a x => a + x.queue.length) 0 then s.after 64 (.ofwd { r with taken := true })
    else s.putMig { m with queue := m.queue ++ [{ r with taken := true }] }

/-- A request at a device, past duplicate detection (R57).  A stub answers OCON to HOPS 3; a request that a commit has forwarded
with HOPS 4 (R75) is past that test, and a stub it meets forwards it on: R57 counts the forwards of stubs, R75 adds one of its own
(DESIGN CHOICE, log entry 79). -/
def State.takeReq (s : State) (r : ObjReq) : State :=
  match s.oteFind r.ident with
  | some (i, e) =>
    let ph := otePhase e
    if ph = 4 then
      let held := (s.fab.inbound.get r.ident).getD [] ++ [{ r with taken := true }]
      { s with fab := { s.fab with inbound := s.fab.inbound.set r.ident held } }
    else if ph = 2 ∨ ph = 3 then (match s.mig r.ident with
      | some m => s.queueReq m r e
      | none => s.serveAccess r e)
    else
      (match r.op with
       | .read | .write _ _ _ | .atomic _ | .prefetch =>
         let c := if r.taken then (s, none) else s.countReq r.ident r.off r.src
         let s := c.1.serveAccess r e
         (match c.2 with
          | some d => (s.startMig (s.oteAt i) d none).1
          | none => s)
       | _ => s.serveSystem r i e)
  | none =>
    match s.stubFind r.ident with
    | some (i, e) =>
      let s := s.tabMet s.dcb.stb 32 i
      if r.hops = 3 then s.sendNone r true
      else
        let nd := byteField e 8 1
        let g := (byteField e 9 1 + 1) % 256
        let s := s.putEnt s.dcb.stb 32 i (linePut e 16 8 s.cycle)
        let s := if nd = s.devNum then s.push (.ofwd { r with hops := r.hops + 1, via := s.devNum })
          else s.sendSeq nd .ofwd (r.fields (r.hops + 1))
        if r.src = s.devNum then s.push (.olupd r.ident nd g)
        else ((if nd = s.devNum then s else s.podFree r.name r.src r.tag)).answerOn r.via r.seq r.name r.src .olupd [r.ident, nd, g]
    | none => s.sendNone r false

/-- An earlier request of the same device to the same line has been put off and not yet taken: this one stays behind it (R59,
R140). -/
def State.behind (s : State) (r : ObjReq) : Bool :=
  let first (q : ObjReq) : Bool := q.ident == r.ident && q.off / 128 == r.off / 128 && q.src == r.src && decide (q.tag < r.tag)
  s.timers.any (fun t => match t.2 with | .oreq q => first q | .ofwd q => first q | _ => false)

/-- A duplicate of a store that has been performed is acknowledged again; of any other request, its retained answer is sent
again (R142). -/
def State.answerAgain (s : State) (r : ObjReq) : State :=
  match r.op with
  | .write _ _ _ =>
    (match (s.peerIn r.via).acked.find? (fun a => a.1 == r.seq) with
     | some a =>
       let p : ObjRsp := match s.oteFind r.ident, s.stubFind r.ident with
         | some (_, e), _ => s.rspOf r e a.2
         | none, some (_, e) => ⟨r.tag, a.2, 0, false, [], byteField e 8 1, (byteField e 9 1 + 1) % 256, false⟩
         | none, none => s.rspOf r 0 a.2
       s.sendRsp r p
     | none => s)
  | _ => s.replay r.via r.seq
/-- A request packet: duplicates of loads are served again, of others answered again (R142). -/
def State.reqPacket (s : State) (m : Msg) (r : ObjReq) : State :=
  if !s.devSet && r.via != s.devNum then s
  else if s.behind r then s.after 16 m
  else whenQuiet (if r.taken then s else s.notePlane r.via r.seq r.name) m fun s =>
    if r.taken then s.takeReq r
    else match s.accept r.via r.seq with
      | (s, true) => s.takeReq r
      | (s, false) => match r.op with
        | .read | .prefetch => s.takeReq { r with taken := true }
        | _ => s.answerAgain r

def execOreq (s : State) : Out :=
  match s.msg with
  | some (.oreq r) => .next (s.reqPacket (.oreq r) r)
  | _ => .fault .noMessage

def execOfwd (s : State) : Out :=
  match s.msg with
  | some (.ofwd r) => .next (s.reqPacket (.ofwd r) r)
  | _ => .fault .noMessage

/-- OLUPD (R54). -/
def execOlupd (s : State) : Out :=
  match s.msg with
  | some (.olupd ident dev mgen) => .next (if s.devSet then s.locInstall ident dev mgen false false else s)
  | _ => .fault .noMessage

/-! ### Answers at the requester (R58 to R60) -/

/-- A remote line fills an S copy at a die, unless a new pod map is being adopted (R132, R143). -/
def State.fillRemote (s : State) (die ident off data : Nat) (poison : Bool) : State :=
  if s.fab.epochWait || s.objHere ident then s
  else
    let l := objLine ident off 0x3FF
    (s.putDir ((s.dirOf l).withDie die false)).install die l .s data poison

/-- A gang's access: values, under the core's own dirty bytes, or the owner's fault, by lane. -/
def State.gangAnswer (s : State) (k o : Nat) (r : ObjReq) (p : ObjRsp) (fill : Bool) : State :=
  match s.op k o with
  | none => s
  | some x =>
    let mine (a : Acc) : Bool := a.line.obj && a.line.name == r.ident * 2 ^ 29 + r.off / 128 % 2 ^ 29 && a.pending
    let die := dieOf (coreOf k)
    let set (h : Acc → Acc) : List Acc := x.accs.map (fun a => if mine a then h a else a)
    let need := x.need.filter (fun n => !(n.obj && n.name == r.ident * 2 ^ 29 + r.off / 128 % 2 ^ 29))
    if p.code ≠ 0 then (s.putOp k o { x with need := need, accs := set (fun a => { a with err := p.code }) }).serveOp k o
    else
      let s := s.sample k 4 (s.cycle - x.issued)
      match r.op with
      | .read | .prefetch =>
        let here := objLine r.ident r.off 0x3FF
        let own (d : Nat) : Nat := match (s.core (coreOf k)).l1Find here with
          | some z => lineMerge d z.data (if x.acq != 0 then z.dirty else z.valid)
          | none => d
        let d := match s.gang k with
          | some g => (fun (l : LineId) => g.specOver l (own p.data))
          | none => fun _ => own p.data
        let s := if x.acq ≠ 0 then s.l1Stale (coreOf k) here
          else if !fill ∨ s.fab.epochWait ∨ s.objHere r.ident then s
          else ((s.fillRemote die r.ident r.off p.data p.poison).l1Fill (coreOf k) here p.data p.poison).sample k 3 (s.cycle - x.issued)
        (s.putOp k o { x with need := need, accs := set (fun a => loadFrom x.n (d a.line) p.poison a) }).serveOp k o
      | .atomic _ =>
        (s.putOp k o { x with need := need, accs := set (fun a =>
          if p.poison then { a with val := some 0, bad := true }
          else { a with val := some (((p.res.find? (fun q => q.1 == a.lane)).map (·.2)).getD 0) }) }).serveOp k o
      | _ => (s.putOp k o { x with need := need, accs := set (fun a => { a with val := some 0 }) }).serveOp k o

/-- A line fetched, written or linked for an engine command. -/
def State.cmdAnswer (s : State) (k o : Nat) (r : ObjReq) (p : ObjRsp) : State :=
  match s.op k o with
  | none => s
  | some x =>
    let addr := identPtr r.ident + r.off
    let code := if p.code = 257 then 2 else 1
    match r.op with
    | .read | .prefetch =>
      let v := p.data % 2 ^ 1024 + (if p.poison then 2 ^ 1024 else 0) + p.code * 2 ^ 1025
      let s := s.putOp k o { x with fetched := x.fetched.set (r.ident * 2 ^ 29 + r.off / 128) v }
      if s.cmdReqs k o then s else s.push (x.goMsg k o)
    | .atomic ls =>
      let old := ((p.res.head?).map (·.2)).getD 0
      let x := if p.code ≠ 0 then x.fails code (addr, p.code, 2, 0)
        else if p.poison then { x with code := 3 }
        else { x with out := pairOut old, code := if (ls.head?).any (fun a => a.c != old) then 8 else x.code }
      let s := s.putOp k o x
      let s := if p.code = 0 ∧ (x.code = 0 ∨ x.code = 8) then s.selfInvalidate (coreOf k) else s
      s.push (.engineCompletion k o)
    | .write _ m _ =>
      -- a state-store command that fails has no pair (R393)
      let none' (x : Op) : Op := if x.cls = 5 ∧ !x.res.isEmpty then { x with out := [0xFFFFFFFF, 0] } else x
      let s := if p.code = 0 then s.countBytes k o x (popcount m) else s.putOp k o (none' (x.fails code (addr, p.code, 1, 0)))
      if s.cmdReqs k o then s else s.push (if x.phase = 2 then x.goMsg k o else .engineCompletion k o)
    | _ => s

/-- What an answer does for whom it serves. -/
def State.deliver (s : State) (w : ObjWait) (p : ObjRsp) : State :=
  match w.cont with
  | .gangOp k o => s.gangAnswer k o w.req p (!w.nofill)
  | .drain id =>
    if p.code = 0 then s.ackDrain id
    else if p.code = 257 then
      -- every drain of the core that waits for the write has met the timeout (R176)
      (match s.coh.drains.get id with
       | some d =>
         let ds : Tab Drain := s.coh.drains.map (fun kd =>
           if id ≤ kd.1 ∧ kd.2.core = d.core then (kd.1, { kd.2 with lost := true }) else kd)
         ({ s with coh := { s.coh with drains := ds } }).ackDrain id
       | none => s)
    else s.wbRefused id
  | .cmd k o => s.cmdAnswer k o w.req p
  | .blocking k o =>
    (match s.op k o with
     | none => s
     | some x =>
       let n := x.res.length
       if p.code = 0 then s.sysDone k o 0 0 (match p.res with
         | [a, b] => pairOut (a.2 % 2 ^ 32 + b.2 * 2 ^ 32)
         | _ => List.replicate n 0)
       else if p.code = 0x13 ∨ p.code = 256 then (s.putOp k o { x with errSub := p.code }).sysDone k o 0 0 []
       else
         let c := if p.code = 257 then 11 else if 512 ≤ p.code then p.code - 512 else 1
         let f := s.freeOut n
         f.1.sysDone k o c 0 f.2)
  | .nap k o =>
    (match s.op k o with
     | none => s
     | some x =>
       let off := ((x.accs.head?).map (·.off)).getD 0
       if p.code ≠ 0 then
         let s := (s.dropOp k o).raise k x.frag x.pc (2 ^ causeOfSub p.code)
           (if 256 ≤ p.code then none else some (mkRec x.pc x.frag 0 true false false x.act
             [(((x.accs.head?).map (·.addr)).getD 0, 0, p.code, 0, x.sp)]))
         if p.code = 257 then (match s.gang k with | some g => s.putGang k { g with peerlost := true } | none => s) else s
       else
         let s := if w.nofill then s else s.fillRemote (dieOf (coreOf k)) w.req.ident w.req.off p.data p.poison
         (s.napGot k o x (lineGet p.data off 4) p.poison).after 1024 (.napWake k x.frag o))
  | .prefetch core level =>
    if p.code ≠ 0 ∨ w.nofill ∨ s.fab.epochWait ∨ s.objHere w.req.ident then s
    else
      let s := s.fillRemote (dieOf core) w.req.ident w.req.off p.data p.poison
      if level = 0 then s.l1Fill core (objLine w.req.ident w.req.off 0x3FF) p.data p.poison else s
  | .seal ptr =>
    let v := p.data % 2 ^ 1024 + (if p.poison then 2 ^ 1024 else 0) + p.code * 2 ^ 1025
    let got (r : Regen) : Regen := if r.ptr = ptr then { r with fetched := r.fetched.set (w.req.ident * 2 ^ 29 + w.req.off / 128) v } else r
    ({ s with eng := { s.eng with regens := s.eng.regens.map got } } : State).push (.regenSeal ptr)
  | .none => s

/-- A line request is over: requests of its line that it held back leave (R59). -/
def State.endReq (s : State) (tag : Nat) (w : ObjWait) : State :=
  let s := { s with fab := { s.fab with reqs := s.fab.reqs.erase tag } }
  s.fab.reqs.foldl (fun s r =>
    if r.2.stage = 2 ∧ r.2.req.ident = w.req.ident ∧ r.2.req.off / 128 = w.req.off / 128 then s.route r.1 r.2 else s) s
/-- A line request has its answer: accesses that its line's owner here kept behind it go on (R59). -/
def State.answered (s : State) (tag : Nat) (w : ObjWait) (p : ObjRsp) : State :=
  let s := (s.endReq tag w).deliver w p
  let l := s.objLineOf w.req.ident w.req.off
  if s.lineAsked l then s else (List.range 4).foldl (fun s d => s.wakeLine d l) s
/-- A line request ends without its owner's answer: 0x12 NOOBJ, 0x13 BADOTE, 257 PEERLOST. -/
def State.failReq (s : State) (tag : Nat) (w : ObjWait) (code : Nat) : State :=
  s.answered tag w ⟨tag, code, 0, false, [], 0, 0, false⟩

/-- An answer that fills a copy at a die needs a way of the line's directory set there (R126, R131). -/
def State.fillBlocked (s : State) (w : ObjWait) (p : ObjRsp) : Bool :=
  w.req.op.reads && p.code == 0 && !w.nofill && !s.fab.epochWait && !s.objHere w.req.ident
    && (s.contDie w.cont).any (fun d => s.dirFull (objLine w.req.ident w.req.off 0x3FF) d)
/-- ORSP (R58): a whole line's check value is tested (R146), the locator learns the owner, and the request completes; a copy to be
filled waits for its way. -/
def execOrsp (s : State) : Out :=
  match s.msg with
  | some (.orsp p) =>
    .next (match s.fab.reqs.get p.tag with
      | none => s
      | some w =>
        if s.fillBlocked w p then (s.evictDir (objLine w.req.ident w.req.off 0x3FF)).after 16 (.orsp p) else
        let s := (s.podFree w.req.name s.devNum p.tag).acked w.tgt (fun o => o.kind == .oreq && o.args.getD 2 0 == p.tag)
        let (s, p) := if w.req.op.reads && p.code == 0 then
            let c := s.chkReceipt (objLine w.req.ident w.req.off 0x3FF) (p.data, p.poison)
            (c.1, { p with data := c.2.1, poison := c.2.2 })
          else (s, p)
        (s.locInstall w.req.ident p.owner p.mgen false p.pin).answered p.tag w p)
  | _ => .fault .noMessage

/-- OABS and OCON: after four tries NOOBJ, else the registry is asked (R58); a prefetch is dropped (R326). -/
def State.absent (s : State) (tag : Nat) : State :=
  match s.fab.reqs.get tag with
  | none => s
  | some w =>
    if w.stage ≠ 0 then s else
    let s := (s.acked w.tgt (fun o => o.kind == .oreq && o.args.getD 2 0 == tag)).podFree w.req.name s.devNum tag
    let w := { w with tries := w.tries + 1 }
    if !w.orders then s.endReq tag w
    else if w.tries = 4 then s.failReq tag w subNOOBJ else s.askReg tag w

def execOabs (s : State) : Out :=
  match s.msg with
  | some (.oabs tag) => .next (s.absent tag)
  | _ => .fault .noMessage

def execOcon (s : State) : Out :=
  match s.msg with
  | some (.ocon tag) => .next (s.absent tag)
  | _ => .fault .noMessage

/-- REGQ at the birth device (R49, R56). -/
def execRegq (s : State) : Out :=
  match s.msg with
  | some (.regq ident src tag seq) =>
    if !s.devSet && src != s.devNum then .next s else
    let s := (s.accept src seq).1
    .next (match s.regFind ident with
      | some (i, e) =>
        let s := s.tabMet s.dcb.rgb 32 i
        let m : Msg := .rega ident (byteField e 8 1) (byteField e 9 1) (regState e) tag
        s.answerTo src m [ident, byteField e 8 1, byteField e 9 1, regState e, tag]
      | none => s.answerTo src (.rega ident 0 0 0 tag) [ident, 0, 0, 0, tag])
  | _ => .fault .noMessage

/-- REGA (R58, R60): routes the request, or ends it with NOOBJ, BADOTE or PEERLOST. -/
def execRega (s : State) : Out :=
  match s.msg with
  | some (.rega ident owner mgen st tag) =>
    .next (match s.fab.reqs.get tag with
      | none => s
      | some w =>
        if w.stage ≠ 1 ∨ w.req.ident ≠ ident then s else
        let s := s.acked (ident / 2 ^ 20) (fun o => o.kind == .regq && o.args.getD 2 0 == tag)
        if st ≠ 1 ∧ !w.orders then s.endReq tag w
        else if st = 0 ∨ st = 2 then s.failReq tag w subNOOBJ
        else if st ≠ 1 then s.failReq tag w subBADOTE
        else if s.failed owner then (if w.orders then s.failReq tag w 257 else s.endReq tag w)
        else
          let s := s.locInstall ident owner mgen true false
          if s.heldBack tag w owner then { s with fab := { s.fab with reqs := s.fab.reqs.set tag { w with stage := 2, tgt := owner } } }
          else s.sendReq tag w owner)
  | _ => .fault .noMessage

/-! ### The pod directory (R133 to R136) -/

/-- A request leaves the switch for its target. -/
def State.passOn (s : State) (r : ObjReq) (dev : Nat) : State :=
  if dev = s.devNum then s.push (.oreq r)
  else { s with fab := { s.fab with outbox := s.fab.outbox ++ [(⟨dev, .oreq, r.fields r.hops, r.seq, s.planeFor r.name⟩ : OutMsg)] } }
/-- A message of the switch to another device. -/
def State.switchOut (s : State) (name tgt : Nat) (kind : Instr) (args : List Nat) : State :=
  { s with fab := { s.fab with outbox := s.fab.outbox ++ [(⟨tgt, kind, args, 0, s.planeFor name⟩ : OutMsg)] } }
/-- Invalidates the sharers of a line. -/
def State.sendPinv (s : State) (name : Nat) (shr : List Nat) : State :=
  shr.foldl (fun s d => if d = s.devNum then s.push (.pinv name) else s.switchOut name d .pinv [name]) s

/-- The switch tells an owner that its line has no sharer: the answer to its PSI, or the eviction of the entry (255). -/
def State.tellOwner (s : State) (e : PodEnt) (o : Nat) : State :=
  if o = 255 then (if e.owner = s.devNum then s.push (.psclr e.name) else s.switchOut e.name e.owner .psclr [e.name])
  else if o = s.devNum then s.push (.psia e.name) else s.switchOut e.name o .psia [e.name]
/-- No sharer is left of an entry that an owner's PSI or an eviction waits for: the entry is freed, but for a request that the
line is busy with. -/
def State.psiDone (s : State) (e : PodEnt) (o : Nat) : State :=
  let e := { e with shr := [], msc := none, psi := none }
  (if e.cur.isSome then s.putPod e else s.freePod e).tellOwner e o

/-- Set of a name in the pod directory of a plane, of 524 288 sets of 16 ways (R133, log entry 65). -/
def podSet (name : Nat) : Nat := (name ^^^ (name / 2 ^ 19)) % 2 ^ 19
/-- Other entries of a name's set in the switch of its plane, least recently used first. -/
def State.podPeers (s : State) (name : Nat) : List PodEnt :=
  s.fab.pod.filter (fun e => e.name != name && podSet e.name == podSet name && s.planeFor e.name == s.planeFor name)
/-- Evicts an entry of a full set: PINV to the sharers, the memory-side copy dropped, PSCLR to the owner (R135). -/
def State.podEvict (s : State) (name : Nat) : State :=
  match (s.podPeers name).find? (fun e => e.cur.isNone && e.psi.isNone) with
  | none => s
  | some e => if e.shr.isEmpty then s.psiDone e 255
    else (s.putPod { e with psi := some 255, msc := none, left := e.shr.length }).sendPinv e.name e.shr
/-- The memory-side slice of a plane holds 1 048 576 lines (R133): a new one takes the place of the least recently used. -/
def State.mscRoom (s : State) (name : Nat) : State :=
  let held := s.fab.pod.filter (fun e => e.msc.isSome && s.planeFor e.name == s.planeFor name)
  match (if 2 ^ 20 ≤ held.length then held.head? else none) with
  | some v => { s with fab := { s.fab with pod := s.fab.pod.map (fun e => if e.name = v.name then { e with msc := none } else e) } }
  | none => s

/-- A request waits for a line that is busy at the switch; a resend of one that waits adds nothing. -/
def State.podWait (s : State) (e : PodEnt) (r : ObjReq) (dev : Nat) : State :=
  if e.wait.any (fun q => q.1.src == r.src && q.1.tag == r.tag) then s else s.putPod { e with wait := e.wait ++ [(r, dev)] }

/-- POD_DIR_OREQ (R135): a line serves one request at a time, in arrival order. -/
def State.podReq (s : State) (r : ObjReq) (dev : Nat) : State :=
  let line := match r.op with | .read | .prefetch | .write _ _ _ | .atomic _ => true | _ => false
  if !line then s.passOn r dev else
  match s.podOf r.name with
  | none =>
    if 16 ≤ (s.podPeers r.name).length then (s.podEvict r.name).after 16 (.podDirOreq r dev)
    else (s.putPod ⟨r.name, dev, 0, [], none, some (r, dev), none, 0, []⟩).passOn r dev
  | some e =>
    if e.busyWith r.src r.tag then (if e.left = 0 then s.passOn r dev else s)
    else if e.cur.isSome ∨ e.psi.isSome then s.podWait e r dev
    else if r.op.reads then
      match e.msc with
      | some d =>
        let s := s.putPod { e with shr := if e.shr.contains r.src then e.shr else e.shr ++ [r.src] }
        let p : ObjRsp := ⟨r.tag, 0, d, false, [], e.owner, e.mgen, false⟩
        if r.src = s.devNum then s.push (.orsp p) else s.switchOut r.name r.src .orsp (rspArgs p)
      | none => (s.putPod { e with cur := some (r, dev) }).passOn r dev
    else if e.shr.isEmpty then (s.putPod { e with msc := none, cur := some (r, dev) }).passOn r dev
    else (s.putPod { e with msc := none, cur := some (r, dev), left := e.shr.length }).sendPinv r.name e.shr

def execPodDirOreq (s : State) : Out :=
  match s.msg with
  | some (.podDirOreq r dev) => .next (s.podReq r dev)
  | _ => .fault .noMessage

/-- A request of this device that fills no copy: the switch does not record it as a sharer. -/
def State.noShare (s : State) (dev tag : Nat) : State :=
  if dev ≠ s.devNum then s else
  match s.fab.reqs.get tag with
  | some w => { s with fab := { s.fab with reqs := s.fab.reqs.set tag { w with nofill := true } } }
  | none => s
/-- An ORSP of a read at the switch (R135): the memory-side slice is filled, but with a poisoned line, the requester recorded, and
PS set at the owner's home; the line is no longer busy with the read. -/
def State.podFill (s : State) (name : Nat) (p : ObjRsp) (dev : Nat) : State :=
  let e := (s.podOf name).getD ⟨name, p.owner, p.mgen, [], none, none, none, 0, []⟩
  let mine := e.busyWith dev p.tag
  if (!mine && (e.cur.isSome || e.psi.isSome)) || p.code != 0 || s.fab.epochWait || e.psi.isSome
      || ((s.podOf name).isNone && decide (16 ≤ (s.podPeers name).length)) then (s.podFree name dev p.tag).noShare dev p.tag
  else
    let s := (s.mscRoom name).freePod { e with owner := p.owner, mgen := p.mgen, msc := if p.poison then none else some p.data
                                               shr := if e.shr.contains dev then e.shr else e.shr ++ [dev] }
    if p.owner ≠ s.devNum then s
    else
      let l := s.objLineOf (name / 2 ^ 29) (name % 2 ^ 29 * 128)
      s.putDir { s.dirOf l with ps := true }

/-- ORSP_AT_SWITCH (R135): a read may fill the memory-side slice, which sets PS at this owner once its directory has a way (R126,
R131); a write frees the line. -/
def execOrspAtSwitch (s : State) : Out :=
  match s.msg with
  | some (.orspAtSwitch name p dev write) =>
    let l := s.objLineOf (name / 2 ^ 29) (name % 2 ^ 29 * 128)
    .next (if !write && p.owner == s.devNum && s.dirFull l 8 then (s.evictDir l).after 16 (.orspAtSwitch name p dev write)
      else
        let s := if write then s.podFree name dev p.tag else s.podFill name p dev
        if dev = s.devNum then s.push (.orsp p) else s.switchOut name dev .orsp (rspArgs p))
  | _ => .fault .noMessage

/-- PINV at a sharer: the line goes at every die; that of a freed object takes its lines from every L1 and slice (R395).  A device
without a number answers nothing (R466). -/
def execPinv (s : State) : Out :=
  match s.msg with
  | some (.pinv name) =>
    .next (if s.devSet then
        (match freeIdent name with
         | some ident => s.dropObject ident
         | none => s.dropRemote name none).wakeNaps.push (.piack name s.devNum)
      else s)
  | _ => .fault .noMessage

/-- PIACK at the switch: the last lets go on what waited for it, an owner's PSI, an eviction or a write, or at its owner the OFRE of
the object. -/
def execPiack (s : State) : Out :=
  match s.msg with
  | some (.piack name dev) =>
    .next (match freeIdent name with
      | some ident => s.takeFreed ident dev
      | none => match s.podOf name with
      | none => s
      | some e =>
        if e.left = 0 ∨ !e.shr.contains dev then s else
        let e := { e with left := e.left - 1, shr := e.shr.filter (· != dev) }
        let s := s.putPod e
        if e.left ≠ 0 then s
        else match e.psi, e.cur with
          | some o, _ => s.psiDone e o
          | none, some c => s.passOn c.1 c.2
          | none, none => s.freePod e)
  | _ => .fault .noMessage

/-- PSI: the owner is about to write a line.  On a lost plane it goes unanswered and is sent again (R141, R467).  One that the line's busy request still invalidates for waits; a request already
with the owner does not keep it from its answer. -/
def execPsi (s : State) : Out :=
  match s.msg with
  | some (.psi name dev) =>
    .next (if dev = s.devNum ∧ !s.portUp (s.planeFor name) then s.after s.dcb.frto (.psi name dev)
      else match s.podOf name with
      | none => if dev = s.devNum then s.push (.psia name) else s.switchOut name dev .psia [name]
      | some e =>
        if e.psi.isSome ∨ e.left ≠ 0 then s.after 16 (.psi name dev)
        else if e.shr.isEmpty then s.psiDone e dev
        else (s.putPod { e with psi := some dev, msc := none, left := e.shr.length }).sendPinv name e.shr)
  | _ => .fault .noMessage

/-- PSIA at the owner: PS is cleared, and the write or the commit that waited goes on (R135, R136). -/
def execPsia (s : State) : Out :=
  match s.msg with
  | some (.psia name) =>
    let l := s.objLineOf (name / 2 ^ 29) (name % 2 ^ 29 * 128)
    let s := s.putDir { s.dirOf l with ps := false }
    .next (if (s.txn l).isSome then s.txnAnswered l none false
      else match s.mig (name / 2 ^ 29) with
        | some m => (s.putMig { m with psis := m.psis - 1 }).endFreeze m.ident
        | none => s)
  | _ => .fault .noMessage

/-- PSCLR: the switch has evicted the entry. -/
def execPsclr (s : State) : Out :=
  match s.msg with
  | some (.psclr name) =>
    let l := s.objLineOf (name / 2 ^ 29) (name % 2 ^ 29 * 128)
    .next (s.putDir { s.dirOf l with ps := false })
  | _ => .fault .noMessage

/-! ### Retransmission and failed peers (R141, R176) -/

/-- A line request is on the plane that its line now has; requests that it held back there go on (R143). -/
def State.replane (s : State) (tag : Nat) (w : ObjWait) : State :=
  let s := { s with fab := { s.fab with reqs := s.fab.reqs.set tag { w with plane := s.planeFor w.req.name } } }
  if w.plane = s.planeFor w.req.name then s
  else s.fab.reqs.foldl (fun s r => if r.2.stage = 2 ∧ r.2.req.name = w.req.name then s.route r.1 r.2 else s) s

/-- FRTO_EXPIRY: a request still unanswered is resent with its sequence number, on the plane its line has now. -/
def execFrtoExpiry (s : State) : Out :=
  match s.msg with
  | some (.frtoExpiry dev seq) =>
    .next (match (s.peerOut dev).unacked.find? (fun u => u.1 == seq) with
      | none => s
      | some u =>
        let m := { u.2.2 with plane := s.planeFor (planeName dev u.2.2.kind u.2.2.args) }
        let p := s.peerOut dev
        let s := s.putPeer dev { p with unacked := p.unacked.map (fun (x : Nat × Nat × OutMsg) => if x.1 = seq then (x.1, x.2.1, m) else x) }
        let s := s.after s.dcb.frto (.frtoExpiry dev seq)
        let s := if m.kind == .oreq then
            (match s.fab.reqs.get (m.args.getD 2 0) with
             | some w =>
               let s := s.replane (m.args.getD 2 0) w
               if s.portUp m.plane then s.push (.podDirOreq { w.req with via := s.devNum, seq := seq } dev) else s
             | none => s)
          else if m.kind == .collectiveContribution then
            (match m.args with
             | [cid, q, op, fmt, v, d] => if s.portUp m.plane then s.push (.collectiveContribution cid q op fmt v d seq) else s
             | _ => s)
          else s.leave1 m
        s.sendHeld dev)
  | _ => .fault .noMessage

/-- A device has exceeded the peer timeout (R60, R76, R176, R192, R395): a line request guessed to it is as answered OABS, one
whose registry it holds ends with PEERLOST. -/
def State.peerFail (s : State) (dev : Nat) : State :=
  let x := s.peerOut dev
  let owed := x.unacked.map (fun u => u.2.2) ++ x.hold.map (·.1)
  let s := { s with dcb := { s.dcb with pfail := s.dcb.pfail ||| 2 ^ dev } }
  let s := s.putPeer dev { x with unacked := [], hold := [] }
  let s := owed.foldl (fun s m => if m.kind == .rdur then s.durAnswer (m.args.headD 0) dev false true else s) s
  let s := s.fab.reqs.foldl (fun s r =>
    match s.fab.reqs.get r.1 with
    | none => s
    | some w =>
      if w.stage = 0 ∧ w.tgt = dev then s.absent r.1
      else if w.stage = 1 ∧ w.req.ident / 2 ^ 20 = dev then (if w.orders then s.failReq r.1 w 257 else s.endReq r.1 w)
      else s) s
  let s := s.fab.frees.foldl (fun s f =>
    if f.2.reg then (if f.1 / 2 ^ 20 = dev then s.endFree f.1 11 else s) else s.takeFreed f.1 dev) s
  s.migPeerFail dev

/-- The unanswered requests to a device are looked at again when the oldest can have exceeded PTO. -/
def State.armPeer (s : State) (dev : Nat) : State :=
  match ((s.peerOut dev).unacked.map (fun u => u.2.1)).min? with
  | some first =>
    if s.timers.any (fun t => t.2 == .peerTimeout dev && decide (t.1 ≤ first + s.dcb.pto)) then s
    else s.after (max 1 (first + s.dcb.pto - s.cycle)) (.peerTimeout dev)
  | none => s
/-- PEER_TIMEOUT: a request to the device has been unanswered for PTO cycles since its first send. -/
def execPeerTimeout (s : State) : Out :=
  match s.msg with
  | some (.peerTimeout dev) =>
    .next (if (((s.fab.peersOut.get dev).map (·.unacked)).getD []).any (fun u => decide (u.2.1 + s.dcb.pto ≤ s.cycle)) then
        whenQuiet s (.peerTimeout dev) fun s => s.peerFail dev
      else s.armPeer dev)
  | _ => .fault .noMessage

/-- PACKET_AGE_DISCARD: a switch drops a packet that is too old. -/
def execPacketAgeDiscard (s : State) : Out :=
  match s.msg with
  | some (.packetAgeDiscard dev seq) =>
    .next { s with fab := { s.fab with outbox := s.fab.outbox.filter (fun m => !(m.tgt == dev && m.seq == seq)) } }
  | _ => .fault .noMessage

/-! ### The pod map (R139, R143, R466) -/

/-- FPST of a device: ports that the map assigns to another number stay down, and bit 62 says so. -/
def State.agreePorts (s : State) : State :=
  let off := maskOfList ((List.range Config.nport).filter (fun p => decide (p < s.fab.mapDev.length) && s.fab.mapDev.getD p 0 != s.devNum))
  let f := andNot s.dcb.fpst (off ||| 2 ^ 62) ||| (if off = 0 then 0 else 2 ^ 62)
  if f = s.dcb.fpst then s else s.errEvent fun d => { d with fpst := f }

/-- An instance has moved to another plane: its unit there knows nothing of it, and waiting operations contribute again (R398,
R399). -/
def State.moveColls (s : State) (moved : Nat → Bool) : State :=
  let gone := s.fab.colOpen.filter (fun c => moved (collName c.cid c.seq))
  let s := { s with fab := { s.fab with colOpen := s.fab.colOpen.filter (fun c => !moved (collName c.cid c.seq))
                                        colDone := s.fab.colDone.filter (fun d => !moved (collName d.cid d.seq)) } }
  gone.foldl (fun s c => match (c.got.find? (fun g => g.2.1 == s.devNum)), (s.collWaiters c.cid c.seq).isEmpty with
    | some g, false => s.contributeOut c.cid c.seq c.op c.fmt g.2.2.1 g.2.2.2
    | _, _ => s) s

/-- POD_MAP_ADOPT (R143): moved remote lines are invalidated, none is filled until the epoch is announced.  A plane that this
part has no port for is never live (R4). -/
def execPodMapAdopt (s : State) : Out :=
  match s.msg with
  | some (.podMapAdopt plive pmep members ports dead) =>
    let old := livePlanes s.dcb.plive
    let new := livePlanes plive
    let other (x : Nat) : Bool := planeOf old x != planeOf new x
    let moved (l : LineId) : Bool := l.obj && other l.name
    let remote (l : LineId) : Bool := moved l && l.key == 0x3FF
    let away (l : LineId) : Bool := moved l && !s.objHere l.ident
    let s := { s with
      dcb := { s.dcb with plive := new, pmep := pmep }
      cores := s.cores.map (fun (kc : Nat × CoreSt) => (kc.1, { kc.2 with l1 := kc.2.l1.filterMap (fun (x : L1Line) =>
        if !away x.line then some x else if x.dirty = 0 then none else some { x with valid := x.dirty }) }))
      coh := { s.coh with lines := s.coh.lines.filter (fun x => !remote x.line)
                          dir := s.coh.dir.filter (fun e => !remote e.line) }
      fab := { s.fab with epochWait := old != new, dead := dead, members := members, mapDev := ports
                          pod := s.fab.pod.filter (fun e => !other e.name) } }
    .next ((s.agreePorts.moveColls other).membersFailed.wakeNaps)
  | _ => .fault .noMessage

/-- EPOCH_ANNOUNCE: every device has adopted the epoch. -/
def execEpochAnnounce (s : State) : Out :=
  match s.msg with
  | some (.epochAnnounce pmep) =>
    .next (if pmep = s.dcb.pmep then { s with fab := { s.fab with epochWait := false } } else s)
  | _ => .fault .noMessage

/-! ### Ports (R467) -/

/-- A port goes down. -/
def State.portOff (s : State) (p : Nat) : State :=
  let f := andNot s.dcb.fpst (2 ^ p)
  let s := { s with fab := { s.fab with retries := s.fab.retries.put p 0 } }
  if f = s.dcb.fpst then s else s.errEvent fun d => { d with fpst := f }

def execPortDown (s : State) : Out :=
  match s.msg with
  | some (.portDown p) => .next (if p < Config.nport then s.portOff p else s)
  | _ => .fault .noMessage

/-- FLIT_RETRY: the retry counter of the link or the mesh is raised; 16 failed retries in a row take a port down. -/
def execFlitRetry (s : State) : Out :=
  match s.msg with
  | some (.flitRetry p mesh ok) =>
    let s := s.errEvent fun d => if mesh then { d with mshrt := errInc d.mshrt } else { d with lnkrt := errInc d.lnkrt }
    let n := if ok then 0 else (s.fab.retries.get p).toNat + 1
    .next (if mesh ∨ Config.nport ≤ p then s
      else if 16 ≤ n then s.portOff p
      else { s with fab := { s.fab with retries := s.fab.retries.put p (BitVec.ofNat 32 n) } })
  | _ => .fault .noMessage

/-- LINK_TRAINING: a port comes up when the pod map gives it this device's number (R466, R467). -/
def execLinkTraining (s : State) : Out :=
  match s.msg with
  | some (.linkTraining p) =>
    .next (if Config.nport ≤ p then s
      else if s.fab.mapDev.getD p s.devNum ≠ s.devNum then
        s.errEvent fun d => { d with fpst := d.fpst ||| 2 ^ 62 }
      else if bit s.dcb.fpst p then s
      else s.errEvent fun d => { d with fpst := d.fpst ||| 2 ^ p })
  | _ => .fault .noMessage

end Sys2Proof.Machine
end

