-- ==== Sys2Proof/Machine/Place.lean ====
section
/-! DEFINITION. Launch records (R421 to R425) and the placement of blocks (R85 to R87, R426 to R429): fields and checks of a
record, the resources of cores, the search for a rectangle, and the storage and gangs of a block that is placed. -/

namespace Sys2Proof.Machine

/-! ### Fields of a launch record (R422) -/

def Launch.entry (l : Launch) : Nat := l.at 0 8
/-- Initial TVEC; its bits [1:0] read as zero (R360). -/
def Launch.tvec (l : Launch) : Nat := l.at 16 8 / 4 * 4
def Launch.gtab (l : Launch) : Nat := l.at 32 8
def Launch.constVa (l : Launch) : Nat := l.at 40 8
def Launch.chk (l : Launch) : Bool := bit (l.at 62 1) 1
def Launch.av (l : Launch) : Nat := l.at 64 2
def Launch.asz (l : Launch) : Nat := l.at 66 2
def Launch.savs (l : Launch) : Nat := l.at 104 8
def Launch.ccnt (l : Launch) : Nat := l.at 112 8
/-- Cores of a block, its gangs per core (R204), and the gangs of the launch. -/
def Launch.ncores (l : Launch) : Nat := l.rectW * l.rectH
def Launch.gpc (l : Launch) : Nat := (l.gcount + l.ncores - 1) / l.ncores
def Launch.ngangs (l : Launch) : Nat := l.nblk * l.gcount
/-- UPRE as the uniform registers s0 to s7. -/
def Launch.upre (l : Launch) : SMap 32 :=
  SMap.putAll [] ((List.range 8).map (fun i => (i, BitVec.ofNat 32 (l.at (192 + 4 * i) 4))))

/-- A dependence (R423). -/
structure Dep where
  addr : Nat
  value : Nat
  kind : Nat
  rsv : Nat
  deriving DecidableEq, Repr

def Launch.dep (l : Launch) (i : Nat) : Dep :=
  let o := 128 + 16 * i
  ⟨l.at o 8, l.at (o + 8) 4, l.at (o + 12) 1, l.at (o + 13) 3⟩
/-- A dependence outside its limits. -/
def Dep.bad (d : Dep) : Bool :=
  decide (2 < d.kind) || d.rsv != 0 || (d.kind == 1 && d.addr % 8 != 0) || (d.kind == 2 && d.addr % 16 != 0)

/-- A limit or reserved field that fails (R422, R423): BADREC.  A rectangle has at most 16 cores (R202, R273). -/
def Launch.badRec (l : Launch) : Bool :=
  l.entry % 4 != 0 || l.root % 2 ^ 21 != 0 || l.frb % 128 != 0 || l.gtab % 16 != 0 || decide (65536 < l.csize)
  || decide (16 < l.ncores) || decide (l.nblk < 1 ∨ 2 ^ 24 < l.nblk) || decide (l.gcount < 1 ∨ 1024 < l.gcount)
  || fld (l.at 61 1) 3 5 != 0 || fld (l.at 62 1) 2 6 != 0 || l.at 63 1 != 0
  || decide (l.av < 24 ∨ 256 < l.av) || l.av % 8 != 0 || decide (l.asz < 32 ∨ 1024 < l.asz) || l.asz % 32 != 0
  || decide (229376 < l.at 68 4) || l.lpb % 256 != 0 || decide (4096 < l.lpb) || decide (256 < l.nbins)
  || (l.tsl != 0 && decide (l.tsl < 16 ∨ 40 < l.tsl)) || (l.sto != 0 && decide (l.sto < 16 ∨ 40 < l.sto))
  || l.savs % 4096 != 0 || l.at 124 4 != 0 || l.at 224 32 != 0
  || (List.range 4).any (fun i => (l.dep i).bad)

/-- The size of a save image (R436). -/
def Launch.saveSize (l : Launch) : Nat :=
  4096 + l.gcount * (8192 + 128 * l.av + 4 * l.asz + 32 * l.lpb)
    + l.ncores * (l.shBytes + l.aBytes + l.cBytes + l.wBytes + 2048)

/-! ### Accesses in a launch's address space -/

/-- A virtual address for an access of a dispatcher: line and offset, or none where the access faults.  Log entry 30: the
translations are those of die 0. -/
def State.vAt (s : State) (asid root va kind : Nat) : State × Option (LineId × Nat) :=
  match s.dieTranslate 0 asid root va kind with
  | (s, .ok t) => match s.physChk t va kind with | .ok l o => (s, some (l, o)) | _ => (s, none)
  | (s, .error _) => (s, none)

/-- A virtual address may be written: its translation allows it. -/
def State.vWritable (s : State) (asid root va : Nat) : State × Bool :=
  match s.dieTranslate 0 asid root va 0 with
  | (s, .ok t) => (s, t.w && (match s.physChk t va 1 with | .ok _ _ => true | _ => false))
  | (s, .error _) => (s, false)

/-- n bytes of virtual memory as a number, line by line; none where a line faults or is poisoned. -/
def State.vRead (s : State) (asid root : Nat) : Nat → Nat → Nat → State × Option Nat
  | 0, _, _ => (s, some 0)
  | fuel + 1, va, n =>
    if n = 0 then (s, some 0) else
    let c := min n (128 - va % 128)
    match s.vAt asid root va 0 with
    | (s, none) => (s, none)
    | (s, some (l, o)) =>
      let r := s.lineNow l
      if r.2 then (s.memMet l true, none) else
      match vRead s asid root fuel ((va + c) % 2 ^ 64) (n - c) with
      | (s, some v) => (s, some (lineGet r.1 o c + 256 ^ c * v))
      | (s, none) => (s, none)
/-- n bytes in the launch's address space. -/
def State.launchRead (s : State) (l : Launch) (va n : Nat) : State × Option Nat := s.vRead l.asid l.root (n / 128 + 2) va n

/-- Writes bytes that lie in one line; nothing where the access faults. -/
def State.launchWrite (s : State) (l : Launch) (va n v : Nat) : State :=
  match s.vAt l.asid l.root va 1 with
  | (s, some (ln, o)) => let r := s.lineNow ln; s.lineSet ln (linePut r.1 o n v) (r.2 && n != 128)
  | (s, none) => s

/-- Writes n bytes of virtual memory from a number, line by line; a line where the access faults is left out. -/
def State.vWrite (s : State) (asid root : Nat) : Nat → Nat → Nat → Nat → State
  | 0, _, _, _ => s
  | fuel + 1, va, n, v =>
    if n = 0 then s else
    let c := min n (128 - va % 128)
    let s := match s.vAt asid root va 1 with
      | (s, some (l, o)) => let r := s.lineNow l; s.lineSet l (linePut r.1 o c v) (r.2 && c != 128)
      | (s, none) => s
    vWrite s asid root fuel ((va + c) % 2 ^ 64) (n - c) (v / 256 ^ c)

/-- An event of the dispatchers that reads or writes memory waits for coherence at rest and for the end of a key's
retirement (R151, log entry 9). -/
def whenStill (s : State) (m : Msg) (k : State → State) : State :=
  if s.coh.retiring.isSome then s.after 16 m else whenQuiet s m k

/-! ### Resources of a core (R426) -/

/-- What is held on a core: ranges of the stores 0 shared, 1 A, 2 C, 3 W and 4 bin counters; gangs by slot with A_v, A_s and
their lane-private range. -/
structure CoreUse where
  st : List (Nat × Nat × Nat)
  gangs : List (Nat × Nat × Nat × Nat × Nat)
  deriving DecidableEq, Repr

def CoreUse.empty : CoreUse := ⟨[], []⟩

/-- What the resident blocks hold on a core. -/
def State.useOf (s : State) (c : Nat) : CoreUse :=
  s.sched.blocks.foldl (fun (u : CoreUse) kb =>
    let b := kb.2
    match s.launch b.launch with
    | none => u
    | some l =>
      if !b.cores.contains c then u else
      let r := b.cores.idxOf c
      ⟨u.st ++ [(0, b.shBase.getD r 0, l.shBytes), (1, b.aBase.getD r 0, l.aBytes), (2, b.cBase.getD r 0, l.cBytes),
          (3, b.wBase.getD r 0, l.wBytes), (4, b.binBase.getD r 0, l.nbins)],
       u.gangs ++ b.gangs.zipIdx.filterMap (fun kj =>
          if coreOf kj.1 = c then some (slotOf kj.1, l.av, l.asz, b.lpBase.getD kj.2 0, l.lpb) else none)⟩) CoreUse.empty

/-- The lowest place for a range among ranges in use; sizes and places are whole granules.  Which of several free ranges a
block is given the spec does not say (R86); the lowest is taken (DESIGN CHOICE, log entry 74). -/
def firstFit (used : List (Nat × Nat)) (size cap : Nat) : Option Nat :=
  if size = 0 then some 0 else
  let ok (b : Nat) : Bool := decide (b + size ≤ cap) && used.all (fun u => decide (u.2 = 0 ∨ b + size ≤ u.1 ∨ u.1 + u.2 ≤ b))
  (0 :: used.map (fun u => u.1 + u.2)).foldl (fun (best : Option Nat) b =>
    if ok b then (match best with | some x => some (min x b) | none => some b) else best) none

/-- Allocates a range of a store on a core. -/
def CoreUse.take (u : CoreUse) (n size cap : Nat) : Option (CoreUse × Nat) :=
  (firstFit ((u.st.filter (fun x => x.1 == n)).map (·.2)) size cap).map (fun b => ({ u with st := u.st ++ [(n, b, size)] }, b))

/-- The gangs of a partition. -/
def CoreUse.part (u : CoreUse) (p : Nat) : List (Nat × Nat × Nat × Nat × Nat) := u.gangs.filter (fun x => x.1 / 16 == p)

/-- Where a partition would hold a gang of a launch: its lane-private place (R31, R214, R426). -/
def CoreUse.partFits (u : CoreUse) (l : Launch) (p : Nat) : Option Nat :=
  let gs := u.part p
  if 16 ≤ gs.length ∨ 512 < gs.foldl (fun a x => a + x.2.1) l.av ∨ 8192 < gs.foldl (fun a x => a + x.2.2.1) l.asz then none
  else firstFit (gs.map (fun x => (x.2.2.2.1, x.2.2.2.2))) l.lpb 4096

/-- Places one gang: the partition with the fewest gangs that can hold it, its lowest free slot; slot and lane-private
place. -/
def CoreUse.takeGang (u : CoreUse) (l : Launch) : Option (CoreUse × Nat × Nat) :=
  let best := (List.range 8).foldl (fun (b : Option (Nat × Nat × Nat)) p =>
    match u.partFits l p with
    | none => b
    | some lp => match b with
      | some x => if (u.part p).length < x.2.1 then some (p, (u.part p).length, lp) else b
      | none => some (p, (u.part p).length, lp)) none
  best.map (fun x =>
    let slot := 16 * x.1 + ((List.range 16).find? (fun i => !(u.part x.1).any (fun y => y.1 % 16 == i))).getD 0
    ({ u with gangs := u.gangs ++ [(slot, l.av, l.asz, x.2.2, l.lpb)] }, slot, x.2.2))

/-- What a block is given on one core: bases of the stores 0 to 4, and (j, slot, lane-private place) of its gangs there. -/
structure CorePlan where
  core : Nat
  bases : List Nat
  gangs : List (Nat × Nat × Nat)
  deriving DecidableEq, Repr

/-- Gangs placed one at a time in ascending j. -/
def takeGangs (l : Launch) : List Nat → CoreUse → Option (CoreUse × List (Nat × Nat × Nat))
  | [], u => some (u, [])
  | j :: js, u =>
    match u.takeGang l with
    | none => none
    | some (u, slot, lp) => (takeGangs l js u).map (fun r => (r.1, (j, slot, lp) :: r.2))

/-- Allocations of the stores 0 to 4, in order. -/
def takeStores : List (Nat × Nat × Nat) → CoreUse → Option (CoreUse × List Nat)
  | [], u => some (u, [])
  | (n, size, cap) :: rest, u =>
    match u.take n size cap with
    | none => none
    | some (u, b) => (takeStores rest u).map (fun r => (r.1, b :: r.2))

/-- Sizes and capacities of the stores 0 to 4 (R85, R370). -/
def Launch.needs (l : Launch) : List (Nat × Nat × Nat) :=
  [(0, l.shBytes, 229376), (1, l.aBytes, 2 ^ 20), (2, l.cBytes, 2 ^ 20), (3, l.wBytes, 2 ^ 21), (4, l.nbins, 256)]

/-- Reserves a block's share of one core: its stores, and those of the gangs js that its rank holds (R204, R426). -/
def reserveCore (l : Launch) (js : List Nat) (u : CoreUse) (rank core : Nat) : Option (CoreUse × CorePlan) :=
  match takeStores l.needs u with
  | none => none
  | some (u, bases) =>
    (takeGangs l (js.filter (fun j => j / l.gpc == rank)) u).map (fun r => (r.1, ⟨core, bases, r.2⟩))

/-- Reserves the cores of a rectangle in order, or nothing (R427). -/
def reserveAll (look : Nat → CoreUse) (l : Launch) (js : List Nat) : List (Nat × Nat) → Option (List (CoreUse × CorePlan))
  | [] => some []
  | (core, rank) :: rest =>
    match reserveCore l js (look core) rank core with
    | none => none
    | some x => (reserveAll look l js rest).map (fun r => x :: r)

/-- The rectangles of a launch by ascending corner: cores in rank order (R29, R426). -/
def Launch.rects (l : Launch) : List (List Nat) :=
  (List.range 256).filterMap (fun c =>
    if c % 8 + l.rectW ≤ 8 ∧ c % 64 / 8 + l.rectH ≤ 8 then
      some ((List.range l.ncores).map (fun r => c + 8 * (r / l.rectW) + r % l.rectW))
    else none)

/-- When the last core of a rectangle became free (R428): one that has held no block since the reset of its die at that reset, before any
that has held one since.  A core that has held blocks and freed none counts as freed when the first came (DESIGN CHOICE, log entry 74). -/
def State.freedAt (s : State) (cores : List Nat) : Nat :=
  cores.foldl (fun a c => max a (match (s.core c).lastFree with
    | some n => 2 * n + 1
    | none => 2 * s.sched.dieAt.getD (dieOf c) 0)) 0

/-- The place of one block (R428): the lowest corner before any block of the launch has retired, else the rectangle freed
earliest. -/
def State.findPlace (s : State) (look : Nat → CoreUse) (l : Launch) (js : List Nat) (refill : Bool) (rects : List (List Nat)) :
    Option (List (CoreUse × CorePlan)) :=
  if refill then
    (rects.foldl (fun (b : Option (Nat × List (CoreUse × CorePlan))) cs =>
      let t := s.freedAt cs
      if (match b with | some x => decide (x.1 ≤ t) | none => false) then b else
      match reserveAll look l js cs.zipIdx with
      | some p => some (t, p)
      | none => b) none).map (·.2)
  else rects.findSome? (fun cs => reserveAll look l js cs.zipIdx)

/-- Rectangles that placement may use now: those of dies not in reset (log entry 31). -/
def State.rectsNow (s : State) (l : Launch) : List (List Nat) :=
  l.rects.filter (fun cs => !bit s.dcb.drst (4 + dieOf (cs.headD 0)))

/-- The reservations made so far, over what the resident blocks hold. -/
def lookOver (base : Nat → CoreUse) (upon : Tab CoreUse) (c : Nat) : CoreUse := (upon.get c).getD (base c)

/-- Places blocks one after another, each over what the earlier ones take (R429). -/
def State.findAll (s : State) (base : Nat → CoreUse) (l : Launch) (refill : Bool) (rects : List (List Nat)) :
    List (Nat × List Nat) → Tab CoreUse → Option (List (Nat × List CorePlan))
  | [], _ => some []
  | (b, js) :: rest, upon =>
    match s.findPlace (lookOver base upon) l js refill rects with
    | none => none
    | some p =>
      (findAll s base l refill rects rest (p.foldl (fun o x => o.set x.2.core x.1) upon)).map
        (fun r => (b, p.map (·.2)) :: r)

/-- One block fits an empty die (R86): else NOFIT. -/
def Launch.fitsCore (l : Launch) : Bool :=
  match l.rects with
  | [] => false
  | cs :: _ => (reserveAll (fun _ => CoreUse.empty) l (List.range l.gcount) cs.zipIdx).isSome

/-- The test placement of a COR launch on an empty device (R429). -/
def State.corFits (s : State) (l : Launch) : Bool :=
  (s.findAll (fun _ => CoreUse.empty) l false l.rects
    ((List.range l.nblk).map (fun b => (b, List.range l.gcount))) []).isSome

/-! ### Storage of a placed block (R87) -/

/-- The byte addresses of a store that a range covers: for lane-private storage (4 + p), offsets of every lane of p. -/
def inRange (store lo hi a : Nat) : Bool :=
  if store < 4 then decide (lo ≤ a ∧ a < hi) else a / 131072 == store - 4 && decide (lo ≤ a % 4096 ∧ a % 4096 < hi)

/-- The part of a store in a range, as it stands. -/
def CoreSt.part (c : CoreSt) (store lo hi : Nat) : Mem := (c.store store).filter (fun kv => inRange store lo hi kv.1)

/-- A range reads as zero and its words are correctable. -/
def CoreSt.wipe (c : CoreSt) (store lo hi : Nat) : CoreSt :=
  { c.setStore store ((c.store store).filter (fun kv => !inRange store lo hi kv.1)) with
    badWord := c.badWord.filter (fun w => !(w.1 == min store 4 && inRange store lo hi (4 * w.2))) }

/-- A range belongs to nobody. -/
def CoreSt.disown (c : CoreSt) (store lo hi : Nat) : CoreSt :=
  { c with owned := c.owned.flatMap (fun o =>
      if o.store ≠ store ∨ hi ≤ o.lo ∨ o.hi ≤ lo then [o]
      else (if o.lo < lo then [{ o with hi := lo }] else []) ++ (if hi < o.hi then [{ o with lo := hi }] else [])) }

/-- A granule last belonged to a launch. -/
def CoreSt.owns (c : CoreSt) (store lo hi lk : Nat) : Bool :=
  c.owned.any (fun o => o.store == store && o.launch == lk && decide (o.lo ≤ lo ∧ hi ≤ o.hi))

/-- A launch takes a range of granules: those that it did not own are cleared; with the number of bytes cleared. -/
def CoreSt.claim (c : CoreSt) (store lo size gran lk : Nat) : CoreSt × Nat :=
  let gs := (List.range (size / gran)).map (fun i => lo + gran * i)
  let dirty := gs.filter (fun g => !c.owns store g (g + gran) lk)
  let c' := dirty.foldl (fun c g => c.wipe store g (g + gran)) c
  let c' := if size = 0 then c' else
    let d := c'.disown store lo (lo + size)
    { d with owned := d.owned ++ [(⟨store, lo, lo + size, lk⟩ : Owned)] }
  (c', dirty.length * gran * (if store < 4 then 1 else 32))

/-- Granules of the stores (R85). -/
def granule (store : Nat) : Nat := match store with | 0 => 8192 | 1 => 4096 | 2 => 4096 | 3 => 16384 | _ => 256

/-- Takes the stores of one core for a block: the core, and the cycles that clearing takes at 1 KiB per cycle in each store.
Its bin counters are zero (R370). -/
def CoreSt.claimPlan (c : CoreSt) (l : Launch) (lk : Nat) (p : CorePlan) : CoreSt × Nat :=
  let st := (l.needs.take 4).foldl (fun (a : CoreSt × Nat) n =>
    let r := a.1.claim n.1 (p.bases.getD n.1 0) n.2.1 (granule n.1) lk
    (r.1, max a.2 ((r.2 + 1023) / 1024))) (c, 0)
  let lp := p.gangs.foldl (fun (a : CoreSt × Nat) g =>
    let r := a.1.claim (4 + g.2.1 / 16) g.2.2 l.lpb 256 lk
    (r.1, a.2 + r.2)) (st.1, 0)
  let b := p.bases.getD 4 0
  ({ lp.1 with bins := lp.1.bins.filter (fun kv => !decide (b ≤ kv.1 ∧ kv.1 < b + l.nbins)) },
    max st.2 ((lp.2 + 1023) / 1024))

/-- Gated shared-store segments of an allocation wake: each is cleared in 256 cycles, and accesses wait for it (R115,
R116). -/
def State.wakeSegs (s : State) (core lo size : Nat) : State :=
  ((List.range 28).filter (fun g => decide (lo < 8192 * (g + 1) ∧ 8192 * g < lo + size))).foldl (fun s g =>
    let c := s.core core
    if bit c.gatedSeg g then
      (s.putCore core { c with gatedSeg := c.gatedSeg - 2 ^ g, clearSeg := c.clearSeg ||| 2 ^ g }).after 256 (.segmentClearDone core g)
    else s) s

/-! ### Gangs under keys of no core -/

/-- The gang key a message names, where it serves that gang alone. -/
def Msg.gangKey : Msg → Option Nat
  | .loadReturn g _ => some g
  | .pageWalkDone r => some r.g
  | .ibufFill g _ _ => some g
  | .engineCompletion g _ => some g
  | .blockingAnswer g _ => some g
  | .releaseAcksDone g _ => some g
  | .tendDone g _ => some g
  | .napWake g _ _ => some g
  | .napTimeout g _ _ => some g
  | .syncto g _ _ => some g
  | .trapEntry g => some g
  | .handlerPreempt g _ => some g
  | .weightLatch g _ => some g
  | .peaWalkStart g _ => some g
  | .holdLapse g _ => some g
  | _ => none

/-- The message of a gang that has moved to another key; none for one that concerns its core only. -/
def Msg.moved (new : Nat) : Msg → Option Msg
  | .blockingAnswer _ o => some (.blockingAnswer new o)
  | .syncto _ fr since => some (.syncto new fr since)
  | .holdLapse _ head => some (.holdLapse new head)
  | _ => none

def Cont.moved (old new : Nat) : Cont → Cont
  | .blocking k o => .blocking (if k = old then new else k) o
  | c => c

/-- Moves a gang to another key, with what waits for it under the old one (R394). -/
def State.moveGang (s : State) (old new : Nat) (g : Gang) : State :=
  let mv (m : Msg) : Option Msg := if m.gangKey = some old then m.moved new else some m
  { s with
    gangs := (s.gangs.erase old).set new g
    pending := s.pending.filterMap mv
    timers := s.timers.filterMap (fun t => (mv t.2).map (fun m => (t.1, m)))
    fab := { s.fab with reqs := s.fab.reqs.map (fun (kr : Nat × ObjWait) => (kr.1, { kr.2 with cont := kr.2.cont.moved old new })) }
    rcv := { s.rcv with
      commits := s.rcv.commits.map (fun (kc : Nat × Commit) => (kc.1, if kc.2.g = old then { kc.2 with g := new } else kc.2))
      verify := s.rcv.verify.map (fun v => (if v.1 = old then new else v.1, v.2)) }
    eng := { s.eng with
      tileQ := s.eng.tileQ.map (fun q => if q.2.1 = old then (coreOf new, new, q.2.2) else q)
      holds := s.eng.holds.map (fun h => (if h.1 = old then new else h.1, h.2)) } }

/-- A gang has retired with its block, and nothing names it any more: its registers stay in its slot as it left them, until another
gang is placed there (R485); one that was never placed again is gone. -/
def State.dropGang (s : State) (k : Nat) : State :=
  let keep (m : Msg) : Bool := match m with | .holdLapse _ _ => true | _ => m.gangKey != some k
  { s with gangs := if coreOf k < 256 then s.gangs else s.gangs.erase k
           pending := s.pending.filter keep, timers := s.timers.filter (fun t => keep t.2) }

/-! ### Placing and leaving -/

/-- The gangs of a new block (R205, R422). -/
def Launch.newGang (l : Launch) (lk bk b j cyc : Nat) : Gang :=
  Gang.fresh lk bk (b * l.gcount + j) j l.av l.asz l.entry l.tvec l.chk l.upre cyc

/-- Physical addresses of a saved lane-private image, stored lane × 4096 + offset. -/
def placeLp (p lp : Nat) (m : Mem) : List (Nat × BitVec 8) :=
  m.map (fun kv => ((32 * p + kv.1 / 4096) * 4096 + lp + kv.1 % 4096, kv.2))
def placeAt {w : Nat} (base : Nat) (m : SMap w) : List (Nat × BitVec w) := m.map (fun kv => (base + kv.1, kv.2))

/-- A saved block's contents back in the stores of one core, and its weight sets latched again (R437). -/
def CoreSt.refill (c : CoreSt) (bk rank : Nat) (p : CorePlan) (v : Saved) : CoreSt :=
  let c := { c with shared := SMap.putAll c.shared (placeAt (p.bases.getD 0 0) (v.shared.getD rank []))
                    astore := SMap.putAll c.astore (placeAt (p.bases.getD 1 0) (v.astore.getD rank []))
                    cstore := SMap.putAll c.cstore (placeAt (p.bases.getD 2 0) (v.cstore.getD rank []))
                    wstore := SMap.putAll c.wstore (placeAt (p.bases.getD 3 0) (v.wstore.getD rank []))
                    bins := SMap.putAll c.bins (placeAt (p.bases.getD 4 0) (v.bins.getD rank []))
                    lpriv := p.gangs.foldl (fun (m : SMap 8) (g : Nat × Nat × Nat) => SMap.putAll m (placeLp (g.2.1 / 16) g.2.2 (v.lpriv.getD g.1 []))) c.lpriv }
  { c with sets := (List.range 2).map (fun n =>
      match v.sets.find? (fun (x : Nat × Nat × Nat × Nat) => x.1 == rank && x.2.1 == n) with
      | some x =>
        let len := imageBytes (x.2.2.2)
        ⟨some bk, x.2.2.2, x.2.2.1, Mem.store [] 0 len (Mem.load c.wstore (p.bases.getD 3 0 + x.2.2.1) len)⟩
      | none => c.sets.getD n ⟨none, 0, 0, []⟩) }

/-- Every granule of a plan is cleared: what a save restores replaces it whole. -/
def CoreSt.wipePlan (c : CoreSt) (l : Launch) (p : CorePlan) : CoreSt :=
  let c := (l.needs.take 4).foldl (fun (c : CoreSt) n => c.wipe n.1 (p.bases.getD n.1 0) (p.bases.getD n.1 0 + n.2.1)) c
  p.gangs.foldl (fun c g => c.wipe (4 + g.2.1 / 16) g.2.2 (g.2.2 + l.lpb)) c

/-- A sync word (core, physical offset) of a block by rank and offset in its share, and back (R335, R437). -/
def Block.relSync (b : Block) (w : Nat) : Nat :=
  let r := b.cores.idxOf (w / 2 ^ 24)
  r * 2 ^ 24 + (w % 2 ^ 24 - b.shBase.getD r 0)
def Block.absSync (b : Block) (w : Nat) : Nat :=
  b.cores.getD (w / 2 ^ 24) 0 * 2 ^ 24 + (b.shBase.getD (w / 2 ^ 24) 0 + w % 2 ^ 24)
/-- The sync words of a gang's held commands go with its block (R368). -/
def Gang.mapSync (g : Gang) (h : Nat → Nat) : Gang :=
  { g with ops := g.ops.map (fun (ko : Nat × Op) => (ko.1, { ko.2 with sync := ko.2.sync.map h })) }

/-- Commits a block to reserved cores (R427): allocations, clearing, its gangs; a saved block's as they were (R437), a flushed one's
with stores that are new and zero (R354).  What
happened before a dependence was met happens before every access of the launch, so the cores' L1s are self-invalidated (R423). -/
def State.commitBlock (s : State) (lk : Nat) (l : Launch) (b : Nat) (ps : List CorePlan) (v : Option Saved) : State :=
  let bk := s.sched.nextBlock
  let r := ps.zipIdx.foldl (fun (a : State × Nat) pi =>
    let p := pi.1
    let s := (a.1.selfInvalidate p.core).wakeSegs p.core (p.bases.getD 0 0) l.shBytes
    let c := { s.core p.core with lastFree := some ((s.core p.core).lastFree.getD s.cycle) }.claimPlan l lk p
    match v with
    | some x => if x.flush then (s.putCore p.core (c.1.wipePlan l p), max a.2 c.2)
      else (s.putCore p.core ((c.1.wipePlan l p).refill bk pi.2 p x), a.2)
    | none => (s.putCore p.core c.1, max a.2 c.2)) (s, 0)
  let place (j : Nat) : Option (Nat × Nat) :=
    ps.findSome? (fun p => (p.gangs.find? (fun g => g.1 == j)).map (fun g => (p.core * 128 + g.2.1, g.2.2)))
  let oldKey (j : Nat) : Nat := match v with | some x => x.gangs.getD j 0 | none => 0
  let keys := (List.range l.gcount).map (fun j => match place j with | some x => x.1 | none => oldKey j)
  let start := s.cycle + r.2
  let blk : Block := {
    launch := lk, b := b, cores := ps.map (·.core)
    shBase := ps.map (fun p => p.bases.getD 0 0), aBase := ps.map (fun p => p.bases.getD 1 0)
    cBase := ps.map (fun p => p.bases.getD 2 0), wBase := ps.map (fun p => p.bases.getD 3 0)
    binBase := ps.map (fun p => p.bases.getD 4 0)
    lpBase := (List.range l.gcount).map (fun j => match place j with | some x => x.2 | none => 0)
    gangs := keys, clearing := r.2 != 0, since := start, asked := 0, mode := 0, noneAt := 0, drains := [] }
  let s := { r.1 with sched := { r.1.sched with nextBlock := bk + 1, blocks := r.1.sched.blocks.set bk blk
                                                saved := r.1.sched.saved.filter (fun x => !(x.launch == lk && x.b == b)) } }
  let s := (List.range l.gcount).foldl (fun s j =>
    match place j with
    | none => (match s.gang (oldKey j) with | some g => s.putGang (oldKey j) { g with blk := bk } | none => s)
    | some x => match v with
      | none => s.putGang x.1 (l.newGang lk bk b j start)
      | some _ => match s.gang (oldKey j) with
        | none => s
        | some g =>
          let s := (s.moveGang (oldKey j) x.1 ({ g with blk := bk, asked := 0 }.mapSync blk.absSync)).trapDue x.1
          if g.hm then s.after (max 64 (g.hentry + 65536 - s.cycle)) (.handlerPreempt x.1 g.hentry) else s) s
  let s := if r.2 = 0 then s else s.after r.2 (.storageClearDone bk)
  let s := if l.tsl = 0 then s else s.after (r.2 + 2 ^ l.tsl) (.timeSlice bk start)
  if keys.all (fun k => match s.gang k with | some g => g.retired | none => true) then s.checkBlock bk else s

/-- A block's cores are free of it (R428): its weight sets go, recorders of a launch whose last block leaves a core end (R460); `zero` marks its storage as belonging to no launch. -/
def State.freeBlock (s : State) (bk : Nat) (b : Block) (l : Launch) (zero : Bool) : State :=
  let s := b.cores.zipIdx.foldl (fun (s : State) ci =>
    let c := s.core ci.1
    let c := { c with lastFree := some s.cycle
                      sets := c.sets.map (fun w => if w.blk = some bk then { w with blk := none } else w) }
    let c := if !zero then c else
      let c := c.disown 0 (b.shBase.getD ci.2 0) (b.shBase.getD ci.2 0 + l.shBytes)
      let c := c.disown 1 (b.aBase.getD ci.2 0) (b.aBase.getD ci.2 0 + l.aBytes)
      let c := c.disown 2 (b.cBase.getD ci.2 0) (b.cBase.getD ci.2 0 + l.cBytes)
      let c := c.disown 3 (b.wBase.getD ci.2 0) (b.wBase.getD ci.2 0 + l.wBytes)
      b.gangs.zipIdx.foldl (fun (c : CoreSt) kj => if coreOf kj.1 = ci.1 then
        c.disown (4 + slotOf kj.1 / 16) (b.lpBase.getD kj.2 0) (b.lpBase.getD kj.2 0 + l.lpb) else c) c
    s.putCore ci.1 c) s
  let s := { s with sched := { s.sched with blocks := s.sched.blocks.erase bk } }
  b.cores.foldl (fun (s : State) core =>
    if s.sched.blocks.any (fun kb => kb.2.launch == b.launch && kb.2.cores.contains core) then s
    else
      let c := s.core core
      s.putCore core { c with recs := c.recs.map (fun r => if r.owner = b.launch then { r with en := false } else r) }) s

end Sys2Proof.Machine
end

