-- ==== Sys2Proof/Machine/Sched.lean ====
section
/-! DEFINITION. The dispatchers (R421 to R437): acceptance of launches, placement and back-off, retirement and STATUS, the
recomputation engine's hold of queue 63 (R416), and pre-emption with drain, flush, save and restore. -/

namespace Sys2Proof.Machine

/-! ### Queues (R416, R421, R424) -/

def State.lqcfg (s : State) (n : Nat) : Nat := s.dcb.lqcfg.getD n 0
def State.lqptr (s : State) (n : Nat) : Nat := s.dcb.lqptr.getD n 0
/-- The priority a queue is served at. -/
def State.qPrio (s : State) (n : Nat) : Nat := if n = 63 ∧ s.sched.q63 then 7 else lqPrio (s.lqcfg n)
def State.qEmpty (s : State) (n : Nat) : Bool := lqHead (s.lqptr n) == lqTail (s.lqptr n)

/-- Blocks of a launch that are still to be placed. -/
def Launch.unplaced (l : Launch) : Bool := l.code == 0 && decide (l.placed < l.nblk)
/-- A block of the launch is to be placed or restored. -/
def Launch.hasWork (l : Launch) : Bool := l.unplaced || !l.saved.isEmpty

/-- The launch at the head of a queue is being placed. -/
def State.queueBusy (s : State) (n : Nat) : Bool := s.sched.launches.any (fun kl => kl.2.queue == n && kl.2.unplaced)

/-- The queues whose head may be looked at, in the order of service: by priority, round-robin within one. -/
def State.queueOrder (s : State) : List Nat :=
  let qs := (List.range 64).filter (fun n => lqEn (s.lqcfg n) && !s.qEmpty n && !s.queueBusy n)
  (List.range 8).flatMap (fun i =>
    let p := 7 - i
    let first := s.sched.rr.getD p 0
    ((List.range 64).map (fun j => (first + j) % 64)).filter (fun n => qs.contains n && s.qPrio n == p))

/-- The record at the head of a queue, as a launch not yet accepted.  One that queue 63 holds for the recomputation engine serves the
regeneration of its index. -/
def State.headLaunch (s : State) (n : Nat) : Launch :=
  let h := lqHead (s.lqptr n)
  let a := lqBase (s.lqcfg n) + 256 * (h % lqSize (s.lqcfg n))
  let v := (s.physRead 0 a 256).1
  { queue := n, addr := a, image := byteList 256 v, index := h, placed := 0, done := 0, nkill := 0, code := 0, tries := 0
    backoff := false, waiting := none, saved := [], const := [], constAt := [], groups := []
    regen := if n = 63 ∧ s.sched.q63 then some h else none }
/-- The regeneration that a launch serves, while it is in flight. -/
def State.regenOf (s : State) (l : Launch) : Option Regen :=
  l.regen.bind (fun h => s.eng.regens.find? (fun r => r.enq && r.index == h && !r.ended))

/-! ### Dependences (R423) -/

/-- A dependence: 0 not met, 1 met, 2 unreadable. -/
def State.depState (s : State) (l : Launch) (d : Dep) : State × Nat :=
  if d.bad ∨ d.kind = 0 then (s, 1)
  else if d.kind = 1 then
    match s.launchRead l d.addr 8 with
    | (s, some v) => (s, if d.value ≤ v then 1 else 0)
    | (s, none) => (s, 2)
  else
    match s.launchRead l (d.addr + 12) 4 with
    | (s, some v) => (s, if v ≠ d.value then 1 else 0)
    | (s, none) => (s, 2)

/-- The dependences of a record: an unreadable one decides, else one that is not met. -/
def State.depsState (s : State) (l : Launch) : State × Nat :=
  (List.range 4).foldl (fun (a : State × Nat) i =>
    if a.2 = 2 then a else
    let r := a.1.depState l (l.dep i)
    (r.1, if r.2 = 2 then 2 else min a.2 r.2)) (s, 1)

/-! ### Acceptance (R424) -/

/-- One entry of the group table with its member list (R222, R223); none where the check fails. -/
def State.readGroup (s : State) (l : Launch) (e : Nat) : State × Option Group :=
  let count := byteField e 8 4
  if byteField e 12 1 / 2 ≠ 0 ∨ byteField e 13 3 ≠ 0 then (s, none)
  else if count = 0 then (s, some ⟨[], 0, false, false, [], false⟩)
  else if l.ngangs < count ∨ byteField e 0 8 % 4 ≠ 0 then (s, none)
  else match s.launchRead l (byteField e 0 8) (4 * count) with
    | (s, none) => (s, none)
    | (s, some v) =>
      let ms := (List.range count).map (fun i => byteField v (4 * i) 4)
      let blk := ms.all (fun m => m / l.gcount == (ms.headD 0) / l.gcount)
      if ms.any (fun m => decide (l.ngangs ≤ m)) || ms.dedup.length != ms.length || (!blk && !l.cor) then (s, none)
      else (s, some ⟨ms, 0, false, blk, [], false⟩)

/-- The group table (R222, R223). -/
def State.readGroups (s : State) (l : Launch) : State × Option (List Group) :=
  if l.gtab = 0 then (s, some []) else
  match s.launchRead l l.gtab 4096 with
  | (s, none) => (s, none)
  | (s, some t) =>
    let r := (List.range 256).foldl (fun (a : State × Option (List Group)) k =>
      match a.2 with
      | none => a
      | some gs => match a.1.readGroup l (byteField t (16 * k) 16) with
        | (s, some g) => (s, some (gs ++ [g]))
        | (s, none) => (s, none)) (s, some [])
    match r.2 with
    | none => r
    | some gs =>
      let all := gs.flatMap (·.members)
      if all.any (fun m => decide (4 < (all.filter (· == m)).length)) then (r.1, none) else r

/-- BLK written into the group table (R222). -/
def State.writeBlk (s : State) (l : Launch) (gs : List Group) : State :=
  gs.zipIdx.foldl (fun s gi =>
    if gi.1.members.isEmpty then s else s.launchWrite l (l.gtab + 16 * gi.2 + 12) 1 (if gi.1.blk then 1 else 0)) s

/-- The addresses a launch names (R424). -/
def State.addressesOk (s : State) (l : Launch) : State × Bool :=
  let r := if l.csize = 0 then (s, true) else
    match s.launchRead l l.constVa l.csize with | (s, some _) => (s, true) | (s, none) => (s, false)
  if !r.2 then r
  else if l.ccnt = 0 then (r.1, true)
  else if l.ccnt % 8 ≠ 0 then (r.1, false)
  else r.1.vWritable l.asid l.root l.ccnt

/-- The checks at acceptance: status code of a refusal (0 none) and the launch's groups. -/
def State.checkLaunch (s : State) (l : Launch) : State × Nat × List Group :=
  if l.badRec then (s, 2, [])
  else if !l.fitsCore then (s, 3, [])
  else match s.readGroups l with
  | (s, none) => (s, 4, [])
  | (s, some gs) =>
    if l.cor && !s.corFits l then (s, 5, [])
    else if l.savb ≠ 0 ∧ l.savs < l.saveSize then (s, 6, [])
    else match s.addressesOk l with
      | (s, false) => (s, 8, [])
      | (s, true) => (s, 0, gs)

/-- CCNT advanced by 1 where it can be written (R425). -/
def State.countDone (s : State) (l : Launch) : State :=
  if l.ccnt = 0 ∨ l.ccnt % 8 ≠ 0 then s else
  match s.vAt l.asid l.root l.ccnt 1 with
  | (s, some (ln, o)) =>
    let r := s.lineNow ln
    s.lineSet ln (linePut r.1 o 8 (lineGet r.1 o 8 + 1)) r.2
  | (s, none) => s

/-- STATUS written once, and CCNT advanced after it (R425); the regeneration that the launch serves goes on to its seal or fails (R417,
R418).  A launch whose regeneration has ended before it serves none. -/
def State.endLaunch (s : State) (l : Launch) (code : Nat) : State :=
  let s := if populatedRange l.addr 256 then s.physWrite 0 (l.addr + 120) 4 (code + 256 * l.nkill) else s
  let s := s.countDone l
  if l.regen.isNone then s else
  (match s.regenOf l with
   | none => s
   | some r =>
     if code = 1 ∧ l.nkill = 0 then
       ({ s with eng := { s.eng with regens := s.eng.regens.map (fun (q : Regen) => if q.ptr = r.ptr then { q with ended := true } else q) } } :
         State).push (.regenSeal r.ptr)
     else s.regenFail r.ptr).push .queue63Release

/-- The head record of a queue has been served: the next queue of its priority is the next to be (R424). -/
def State.served (s : State) (n : Nat) : State :=
  { s with sched := { s.sched with rr := s.sched.rr.set (s.qPrio n) ((n + 1) % 64), heads := s.sched.heads.erase n } }

/-- The head record of a queue is refused with a status code (R424). -/
def State.refuseHead (s : State) (n : Nat) (l : Launch) (code : Nat) : State := ((s.served n).endLaunch l code).moveHead n

/-- The head record of a queue, checked and ready, is accepted (R424). -/
def State.acceptHead (s : State) (n : Nat) (l : Launch) : State :=
  let s := s.served n
  let lk := s.sched.nextLaunch
  let s := s.writeBlk l l.groups
  let s := { s with sched := { s.sched with nextLaunch := lk + 1, launches := s.sched.launches.set lk l } }
  let s := match s.regenOf l with
    | some r => { s with eng := { s.eng with regens := s.eng.regens.map (fun (q : Regen) => if q.ptr = r.ptr then { q with launch := some lk } else q) } }
    | none => s
  (s.push (.blockPlace lk)).push .launchAccept

/-- The head record of a queue: read and checked once, when it reaches the head, whatever its dependences (R424); its launch, or
the status code of its refusal. -/
def State.checkHead (s : State) (n : Nat) : State × Except (Launch × Nat) Launch :=
  match s.sched.heads.get n with
  | some l => (s, .ok l)
  | none =>
    let l := s.headLaunch n
    let s := s.physMet 0 l.addr 256
    match s.checkLaunch l with
    | (s, 0, gs) =>
      let l := { l with groups := gs }
      ({ s with sched := { s.sched with heads := s.sched.heads.set n l } }, .ok l)
    | (s, c, _) => (s, .error (l, c))

/-- The first queue in order whose head record is ready; the others' dependences are watched. -/
def State.serveQueues (s : State) : List Nat → State
  | [] => s
  | n :: rest =>
    match s.checkHead n with
    | (s, .error x) => s.refuseHead n x.1 x.2
    | (s, .ok l) =>
      match s.depsState l with
      | (s, 0) => serveQueues { s with sched := { s.sched with depWait := if s.sched.depWait.contains n then s.sched.depWait else s.sched.depWait ++ [n] } } rest
      | (s, 1) => s.acceptHead n l
      | (s, _) => s.refuseHead n l 8

/-- LAUNCH_ACCEPT (R424): with the device number set, the queue to serve next has its head record accepted or refused. -/
def execLaunchAccept (s : State) : Out :=
  match s.msg with
  | some .launchAccept =>
    .next (if !s.devSet ∨ s.queueOrder = [] ∨ s.pending.contains .launchAccept then s
      else whenStill s .launchAccept fun s => s.serveQueues s.queueOrder)
  | _ => .fault .noMessage

/-- DEPENDENCE_WAKE (R423): a watched line has been written: the record's dependences are evaluated again. -/
def execDependenceWake (s : State) : Out :=
  match s.msg with
  | some (.dependenceWake q) =>
    .next (({ s with sched := { s.sched with depWait := s.sched.depWait.filter (· != q) } } : State).push .launchAccept)
  | _ => .fault .noMessage

/-! ### Pre-emption requests (R435) -/

/-- Asks a block to leave: 1 the host, 2 a priority wait, 3 its time slice; every gang of it gets the cause. -/
def State.askBlock (s : State) (bk why : Nat) : State :=
  match s.block bk with
  | none => s
  | some b =>
    let s := s.putBlock bk { b with asked := why, mode := 0 }
    let s := b.gangs.foldl (fun (s : State) k =>
      match s.gang k with
      | none => s
      | some g => if g.retired then s
        else (s.putGang k { g with asked := 1 }).raiseAsync k (if why = 3 then 2 ^ cSLICE else 2 ^ cPREEMPT)) s
    s.push (.preemptModeChoice bk)

/-- Asks a block, and with a COR launch every resident block of it not yet asked. -/
def State.ask (s : State) (bk why : Nat) : State :=
  match s.block bk with
  | none => s
  | some b =>
    let cor := match s.launch b.launch with | some l => l.cor | none => false
    if !cor then s.askBlock bk why
    else (s.sched.blocks.filter (fun kb => kb.2.launch == b.launch && (kb.2.asked == 0 || kb.2.mode == 4))).foldl
      (fun s kb => s.askBlock kb.1 why) s

/-- The highest PRIO among launches with a block waiting. -/
def State.waiting (s : State) : List (Nat × Launch) := s.sched.launches.filter (fun kl => kl.2.waiting.isSome && kl.2.hasWork)

/-- The waiting launch that freed resources go to first (R435). -/
def State.setPrefer (s : State) : State :=
  let best := s.waiting.foldl (fun (b : Option (Nat × Launch)) kl => match b with
    | some x => if x.2.prio < kl.2.prio then some kl else b
    | none => some kl) none
  { s with sched := { s.sched with prefer := best.map (·.1) } }

/-- A placement attempt follows, unless one is under way or backing off. -/
def State.kick (s : State) (lk : Nat) : State :=
  match s.launch lk with
  | none => s
  | some l => if l.backoff || !l.hasWork || s.pending.contains (.blockPlace lk) then s else s.push (.blockPlace lk)

/-- A block has left its cores: the preferred launch tries at once, then the others. -/
def State.blockLeft (s : State) : State :=
  let s := match s.sched.prefer with
    | none => s
    | some lk => (match s.launch lk with
      | some l => (s.putLaunch lk { l with backoff := false }).kick lk
      | none => s)
  s.sched.launches.foldl (fun s kl => s.kick kl.1) s

/-! ### Placement (R427 to R429) -/

/-- How far a queue is from its turn in the round-robin of its priority (R424, R427). -/
def State.turnOf (s : State) (q : Nat) : Nat := (q + 64 - s.sched.rr.getD (s.qPrio q) 0) % 64

/-- After its eighth failure a launch's queue is rotated: the turn passes to the next queue of the priority, whose launch tries at
once, or whose record is looked at (R427). -/
def State.rotate (s : State) (lk : Nat) (l : Launch) : State :=
  let p := s.qPrio l.queue
  let s := { s with sched := { s.sched with rr := s.sched.rr.set p ((l.queue + 1) % 64)
                                            prefer := if s.sched.prefer = some lk then none else s.sched.prefer } }
  let next := (s.sched.launches.filter (fun kl => kl.1 != lk && kl.2.hasWork && s.qPrio kl.2.queue == p)).foldl
    (fun (b : Option (Nat × Launch)) kl => match b with
      | some x => if s.turnOf kl.2.queue < s.turnOf x.2.queue then some kl else b
      | none => some kl) none
  match next with
  | some kl => if s.pending.contains (.blockPlace kl.1) then s else (s.putLaunch kl.1 { kl.2 with backoff := false }).push (.blockPlace kl.1)
  | none => s.push .launchAccept

/-- The launch waits: a priority wait begins, time slices that have run out are looked at, and the attempt backs off, the eighth one
until the queue's next turn (R427, R435). -/
def State.placeFails (s : State) (lk : Nat) (l : Launch) : State :=
  let n := l.tries
  let s := if l.waiting.isNone then s.after (2 ^ 20) (.priorityWait lk) else s
  let s := s.putLaunch lk { l with waiting := some (l.waiting.getD s.cycle), tries := if n = 7 then 0 else n + 1, backoff := true }
  let s := if n = 7 then s.rotate lk l else s
  let s := s.sched.blocks.foldl (fun s kb => s.push (.timeSlice kb.1 (max kb.2.since kb.2.noneAt))) s
  s.after (64 * 2 ^ n) (.placeBackoff lk)

/-- Another attempt that goes first: of a queue of higher priority, of a queue of one priority whose turn comes before, or of the
launch that freed resources go to. -/
def State.defers (s : State) (lk : Nat) (l : Launch) : Bool :=
  s.sched.launches.any (fun kl => kl.1 != lk && s.pending.contains (.blockPlace kl.1) && kl.2.hasWork && !kl.2.backoff
    && s.sched.prefer != some lk
    && (s.sched.prefer == some kl.1 || decide (s.qPrio l.queue < s.qPrio kl.2.queue)
        || (s.qPrio l.queue == s.qPrio kl.2.queue && decide (s.turnOf kl.2.queue < s.turnOf l.queue
            ∨ (kl.2.queue = l.queue ∧ kl.1 < lk)))))

/-- A launch that must leave freed resources to the preferred one (R435). -/
def State.yields (s : State) (lk : Nat) (l : Launch) : Bool :=
  match s.sched.prefer with
  | none => false
  | some p => p != lk && (match s.launch p with | some w => w.waiting.isSome && w.hasWork && decide (l.prio ≤ w.prio) | none => false)

/-- The constant image of a launch, read at each placement (R424). -/
def State.readConst (s : State) (l : Launch) : State × Option Mem :=
  if l.csize = 0 then (s, some []) else
  match s.launchRead l l.constVa l.csize with
  | (s, some v) => (s, some (Mem.store [] 0 l.csize v))
  | (s, none) => (s, none)

/-- The launch ends when every block of it that was placed has left for good. -/
def State.overLaunch (s : State) (lk : Nat) : State :=
  match s.launch lk with
  | none => s
  | some l =>
    if l.hasWork || s.sched.blocks.any (fun kb => kb.2.launch == lk) then s
    else
      let s := s.endLaunch l (if l.code = 0 then 1 else l.code)
      { s with sched := { s.sched with launches := s.sched.launches.erase lk } }

/-- An image that cannot be read ends the launch (R424). -/
def State.constFails (s : State) (lk : Nat) : State := (s.stopLaunch lk 8).overLaunch lk

/-- After a placement: no block of the launch waits, and the next attempt or record follows. -/
def State.placedOn (s : State) (lk : Nat) : State :=
  match s.launch lk with
  | none => s
  | some l =>
    let s := s.putLaunch lk { l with tries := 0, waiting := none }
    let s := if s.sched.prefer = some lk then { s with sched := { s.sched with prefer := none } } else s
    s.kick lk

/-- The physical pages of the constant image with their keys: what the L1 tags the window's lines by (R101). -/
def State.constPages (s : State) (l : Launch) : State × List (Nat × Nat) :=
  (List.range (if l.csize = 0 then 0 else (l.constVa % 4096 + l.csize + 4095) / 4096)).foldl
    (fun (a : State × List (Nat × Nat)) i =>
      let va := l.constVa / 4096 * 4096 + 4096 * i
      match a.1.dieTranslate 0 l.asid l.root va 0 with
      | (s, .ok t) => (s, a.2 ++ [(t.pa + (va - t.va), t.key)])
      | (s, .error _) => (s, a.2)) (s, [])

/-- Commits new blocks; with the last one the queue's head moves on. -/
def State.commitNew (s0 : State) (lk : Nat) (l : Launch) (c : Mem) (ps : List (Nat × List CorePlan)) : State :=
  let (s, pages) := s0.constPages l
  let l := { l with const := c, constAt := pages, placed := l.placed + ps.length }
  let s := s.putLaunch lk l
  let s := ps.foldl (fun s p => s.commitBlock lk l p.1 p.2 none) s
  let s := if l.placed < l.nblk then s else (s.moveHead l.queue).push .queue63Release
  s.placedOn lk

/-- The blocks an attempt places: all of a COR launch, else the next. -/
def Launch.nextBlocks (l : Launch) : List (Nat × List Nat) :=
  let js := List.range l.gcount
  if l.cor then (List.range (l.nblk - l.placed)).map (fun i => (l.placed + i, js)) else [(l.placed, js)]

/-- A placement attempt of a launch whose turn it is. -/
def State.tryPlace (s : State) (lk : Nat) (l : Launch) : State :=
  match l.saved with
  | b :: _ => s.push (.blockRestore lk b)
  | [] =>
    match s.readConst l with
    | (s, none) => s.constFails lk
    | (s, some c) =>
      match s.findAll s.useOf l (decide (0 < l.done)) (s.rectsNow l) l.nextBlocks [] with
      | none => s.placeFails lk l
      | some ps => s.commitNew lk l c ps

/-- BLOCK_PLACE (R427 to R429): an attempt reserves and commits the next block, or backs off. -/
def execBlockPlace (s : State) : Out :=
  match s.msg with
  | some (.blockPlace lk) =>
    .next (match s.launch lk with
      | none => s
      | some l =>
        if l.backoff || !l.hasWork then s
        else if s.defers lk l then s.push (.blockPlace lk)
        else if s.yields lk l then s.placeFails lk l
        else whenStill s (.blockPlace lk) fun s => s.tryPlace lk l)
  | _ => .fault .noMessage

/-- PLACE_BACKOFF (R427): the back-off ends and the launch tries again. -/
def execPlaceBackoff (s : State) : Out :=
  match s.msg with
  | some (.placeBackoff lk) =>
    .next (match s.launch lk with
      | none => s
      | some l => (s.putLaunch lk { l with backoff := false }).kick lk)
  | _ => .fault .noMessage

/-- STORAGE_CLEAR_DONE (R87): the clearing of a placed block's storage ends and its gangs start. -/
def execStorageClearDone (s : State) : Out :=
  match s.msg with
  | some (.storageClearDone bk) =>
    .next (match s.block bk with
      | none => s
      | some b => s.putBlock bk { b with clearing := false })
  | _ => .fault .noMessage

/-! ### Retirement (R425) -/

/-- Every gang of a block has retired with nothing outstanding. -/
def State.blockOver (s : State) (b : Block) : Bool :=
  b.gangs.all (fun k => match s.gang k with | some g => g.spent | none => true)

/-- Drains of a block's cores, started when it leaves them. -/
def State.drainCores (s : State) (cores : List Nat) : State × List Nat :=
  cores.foldl (fun (a : State × List Nat) c => (a.1.startDrain c [], a.2 ++ [a.1.coh.nextDrain + 1])) (s, [])

/-- A write-back of a core is still on its way to its slice. -/
def State.writesOwed (s : State) (core : Nat) : Bool :=
  s.pending.any (fun m => match m with | .l1Writeback c _ _ _ _ _ => c == core | _ => false)
    || s.coh.drains.any (fun kd => kd.2.core == core && kd.2.evict)

/-- BLOCK_RETIRE (R425): the block's cores are drained, then it leaves; with the last one STATUS is written. -/
def execBlockRetire (s : State) : Out :=
  match s.msg with
  | some (.blockRetire bk) =>
    .next (match s.block bk with
      | none => s
      | some b =>
        if !s.blockOver b then s
        else if b.drains.isEmpty then
          let r := s.drainCores b.cores
          (r.1.putBlock bk { b with drains := r.2 }).after 16 (.blockRetire bk)
        else if b.drains.any (fun d => s.coh.drains.has d) || b.cores.any s.writesOwed then s.after 16 (.blockRetire bk)
        else whenStill s (.blockRetire bk) fun s =>
          match s.launch b.launch with
          | none => s
          | some l =>
            let s := s.freeBlock bk b l false
            let s := b.gangs.foldl (fun s k => s.dropGang k) s
            let s := s.putLaunch b.launch { l with done := l.done + 1 }
            (s.overLaunch b.launch).blockLeft)
  | _ => .fault .noMessage

/-- QUEUE63_RELEASE (R416): queue 63 goes back to software. -/
def execQueue63Release (s : State) : Out :=
  match s.msg with
  | some .queue63Release =>
    .next (if s.sched.q63 && s.dcb.rcrt.all (fun v => !rcrtEn v) && s.qEmpty 63
        && s.sched.launches.all (fun kl => kl.2.regen.isNone)
      then { s with sched := { s.sched with q63 := false } } else s)
  | _ => .fault .noMessage

/-! ### Pre-emption (R435 to R437) -/

/-- TIME_SLICE (R435): a block has run its slice, and a launch of equal or higher PRIO waits, or a request stands since the
block chose NONE. -/
def execTimeSlice (s : State) : Out :=
  match s.msg with
  | some (.timeSlice bk since) =>
    .next (match s.block bk with
      | none => s
      | some b => match s.launch b.launch with
        | none => s
        | some l =>
          let t0 := max b.since b.noneAt
          if l.tsl = 0 ∨ since ≠ t0 ∨ s.cycle < t0 + 2 ^ l.tsl then s
          else if b.mode = 4 then s.ask bk b.asked
          else if b.asked = 0 ∧ s.waiting.any (fun kl => decide (l.prio ≤ kl.2.prio)) then s.ask bk 3
          else s)
  | _ => .fault .noMessage

/-- Resident blocks of launches of lower PRIO. -/
def State.victims (s : State) (l : Launch) : List (Nat × Block) :=
  s.sched.blocks.filter (fun kb => match s.launch kb.2.launch with | some x => decide (x.prio < l.prio) | none => false)

def State.prioOf (s : State) (b : Block) : Nat := match s.launch b.launch with | some x => x.prio | none => 0

/-- The block a priority wait asks: lowest launch PRIO, then placed or restored most recently (R435). -/
def State.victim (s : State) (vs : List (Nat × Block)) : Option Nat :=
  (vs.foldl (fun (best : Option (Nat × Block)) kb => match best with
    | none => some kb
    | some x =>
      if s.prioOf kb.2 < s.prioOf x.2 ∨ (s.prioOf kb.2 = s.prioOf x.2 ∧ x.2.since < kb.2.since) then some kb else best) none).map (·.1)

/-- PRIORITY_WAIT (R435): a block of a launch of higher PRIO has waited 2^20 cycles: one block is asked, and the next only
when those asked have left or chosen NONE. -/
def execPriorityWait (s : State) : Out :=
  match s.msg with
  | some (.priorityWait lk) =>
    .next (match s.launch lk with
      | none => s
      | some l => match l.waiting with
        | none => s
        | some since =>
          if !l.hasWork then s
          else if s.cycle < since + 2 ^ 20 then s.after (since + 2 ^ 20 - s.cycle) (.priorityWait lk)
          else
            let vs := s.victims l
            if vs.any (fun kb => kb.2.asked == 2 && kb.2.mode != 4) then s.after 64 (.priorityWait lk)
            else
              let av := vs.filter (fun kb => kb.2.asked == 0 || (kb.2.mode == 4 && decide (kb.2.noneAt + 2 ^ 20 ≤ s.cycle)))
              match s.victim av with
              | some bk => (s.ask bk 2).after 64 (.priorityWait lk)
              | none => s.after 4096 (.priorityWait lk))
  | _ => .fault .noMessage

/-- The mode of a block whose gangs have all returned (R435): 1 DRAIN, 2 FLUSH, 3 SAVE, 4 NONE. -/
def Launch.mode (l : Launch) (gs : List Gang) : Nat :=
  if l.drb ≠ 0 ∧ gs.foldl (fun a g => max a g.prog) 0 ≤ l.drb then 1
  else if gs.all (fun g => g.task && g.trec.idem) then 2
  else if l.savb ≠ 0 then 3
  else 4

/-- The blocks that leave their cores together: all that are asked of a COR launch, else one (R435). -/
def State.together (s : State) (bk : Nat) (b : Block) (l : Launch) : List (Nat × Block) :=
  if l.cor then s.sched.blocks.filter (fun kb => kb.2.launch == b.launch && kb.2.asked != 0 && kb.2.mode == 0) else [(bk, b)]

/-- PREEMPT_MODE_CHOICE (R435, R449): once every live gang has taken the cause and returned, and none is halted, the block's
mode is chosen; the blocks of a COR launch, pre-empted whole, have one mode, chosen over all their gangs. -/
def execPreemptModeChoice (s : State) : Out :=
  match s.msg with
  | some (.preemptModeChoice bk) =>
    .next (match s.block bk with
      | none => s
      | some b => match s.launch b.launch with
        | none => s
        | some l =>
          let bs := s.together bk b l
          let gs := (bs.flatMap (fun kb => kb.2.gangs.filterMap s.gang)).filter (fun g => !g.retired)
          if b.asked = 0 ∨ b.mode ≠ 0 ∨ gs.isEmpty then s
          else if gs.any (fun g => g.halted) || !gs.all (fun g => g.asked == 2) then s.after 64 (.preemptModeChoice bk)
          else
            let m := l.mode gs
            let s := if m = 4 then s else s.setPrefer
            bs.foldl (fun (s : State) kb =>
              let s := s.putBlock kb.1 { kb.2 with mode := m, noneAt := if m = 4 then s.cycle else kb.2.noneAt }
              if m = 4 then (if l.tsl = 0 then s else s.after (2 ^ l.tsl) (.timeSlice kb.1 s.cycle))
              else if m = 2 then s.push (.blockFlush kb.1) else if m = 3 then s.push (.blockSave kb.1) else s) s)
  | _ => .fault .noMessage

/-- A blocking instruction of R394: its operation goes on at its agent while the gang is away. -/
def Op.atAgent (x : Op) : Bool :=
  decide (3 ≤ x.phase) && match x.what with
    | .oalc _ => true | .ofre _ => true | .oloc _ => true | .opin _ => true | .ounp _ => true | .ocol _ => true
    | .omig _ => true | .ocln _ => true | .ored _ => true | .obar _ => true | .rcomm _ => true | .rcqry _ => true
    | .rcver _ => true | _ => false

/-- Operations of a gang that a save or flush waits for (R435, R436). -/
def Gang.saveOwed (g : Gang) : Bool := g.ops.any (fun ko => !ko.2.held && ko.2.cls != 8 && !ko.2.atAgent)

/-- A gang as it is saved (R436, R455): its waits left unperformed, its version discarded so that it resumes at rec.ABORT; its
LRBSEL latches are not saved (R456). -/
def Gang.toSave (g : Gang) (cyc : Nat) : Gang :=
  let g := { g.dropNaps with entryDue := false, lrbsel := []
                             frags := g.frags.map (fun (kf : Nat × Frag) => (kf.1, kf.2.unwait)) }
  if !g.task then g
  else if g.hm then (g.discardShadow g.trec.abort).setU g.trec.stat 0x30000
  else (g.discard g.trec.abort cyc).setU g.trec.stat 0x30000

/-- A gang as it restarts at TBEG (R354): as newly placed, but for s0 to s31 of TBEG.IDEM, its windows, its lanes, and its
CSRs, which are no register, mask or counter: a pending cause stays until it is cleared (R438, log entry 34). -/
def Gang.restart (l : Launch) (g : Gang) (cyc : Nat) : Gang :=
  let n := { l.newGang g.launch g.blk (g.g / max l.gcount 1) g.j cyc with
    sreg := SMap.putAll [] (g.trec.s.zipIdx.map (fun (vi : BitVec 32 × Nat) => (g.trec.xs + vi.2, vi.1))), dl := g.dl, fin := g.trec.fin
    tcause := g.tcause, tmask := g.tmask, tvec := g.tvec, fpctl := g.fpctl, fpstat := g.fpstat, prog := g.prog
    deadsrc := g.deadsrc, peerlost := g.peerlost, dlPrev := g.dlPrev }
  { n with slices := n.slices.mapIdx (fun i _ => ⟨g.trec.restart, fld (andNot n.live n.fin) (4 * i) 4, []⟩)
           frags := [(0, ⟨n.aliveSlices, g.trec.xv, g.trec.xs, .ready, cyc, cyc, 0, 0, [], none, none⟩)] }

/-! ### The save image (R436) -/

/-- Where the parts of a save image lie, in the order of the table of R436, each part gang by gang or core by core: the control state
of the gangs, their registers, their lane-private storage, the stores of the cores, their counters (DESIGN CHOICE, log entry 33). -/
def Launch.imgRegs (l : Launch) (j : Nat) : Nat := 4096 + l.gcount * 8192 + j * (128 * l.av + 4 * l.asz)
def Launch.imgLp (l : Launch) (j : Nat) : Nat := l.imgRegs l.gcount + j * (32 * l.lpb)
def Launch.imgStores (l : Launch) (r : Nat) : Nat := l.imgLp l.gcount + r * (l.shBytes + l.aBytes + l.cBytes + l.wBytes)
def Launch.imgCounts (l : Launch) (r : Nat) : Nat := l.imgStores l.ncores + r * 2048

/-- A free line: contents that the spec does not give. -/
def freeLine (n i : Nat) : Nat :=
  (List.range 128).foldr (fun j a => (Config.freeByte n (128 * i + j)).toNat + 256 * a) 0

/-- The registers of a gang as 128-byte pieces of the image: each vector register by lane, then 32 uniform registers a piece. -/
def Launch.regPieces (l : Launch) (j : Nat) (g : Gang) : List (Nat × Nat) :=
  let words (f : Nat → Nat) : Nat := packBytes ((List.range 32).map (fun i => (4 * i, f i)))
  (List.range l.av).map (fun n => (l.imgRegs j + 128 * n, words (g.v n)))
    ++ (List.range (l.asz / 32)).map (fun n => (l.imgRegs j + 128 * l.av + 128 * n, words (fun i => g.u (32 * n + i))))
/-- The bytes of a store as pieces from an offset on. -/
def memPieces (off size : Nat) (m : Mem) : List (Nat × Nat) :=
  (List.range (size / 128)).map (fun c => (off + 128 * c, if m.isEmpty then 0 else Mem.load m (128 * c) 128))
/-- The lane-private storage of a gang, lane by lane. -/
def Launch.lpPieces (l : Launch) (j : Nat) (m : Mem) : List (Nat × Nat) :=
  (List.range 32).flatMap (fun n => memPieces (l.imgLp j + n * l.lpb) l.lpb ((m.filter (fun kv => kv.1 / 4096 == n)).map (fun kv => (kv.1 % 4096, kv.2))))
/-- The stores of one core of a block, in the order shared, A, C, W. -/
def Launch.storePieces (l : Launch) (r : Nat) (v : Saved) : List (Nat × Nat) :=
  let o := l.imgStores r
  memPieces o l.shBytes (v.shared.getD r []) ++ memPieces (o + l.shBytes) l.aBytes (v.astore.getD r [])
    ++ memPieces (o + l.shBytes + l.aBytes) l.cBytes (v.cstore.getD r [])
    ++ memPieces (o + l.shBytes + l.aBytes + l.cBytes) l.wBytes (v.wstore.getD r [])
/-- The pieces of a block's image whose contents the spec gives. -/
def State.imagePieces (s : State) (l : Launch) (v : Saved) : List (Nat × Nat) :=
  v.gangs.zipIdx.flatMap (fun kj => match s.gang kj.1 with | some g => l.regPieces kj.2 g | none => [])
    ++ v.lpriv.zipIdx.flatMap (fun mj => l.lpPieces mj.2 mj.1)
    ++ (List.range l.ncores).flatMap (fun r => l.storePieces r v)
/-- The pieces whose encoding the spec does not give, the header, the gangs' control state and the counters: free values. -/
def Launch.freePieces (l : Launch) (n : Nat) : List (Nat × Nat) :=
  ((List.range ((4096 + l.gcount * 8192) / 128)).map (fun i => 128 * i)
    ++ (List.range (l.ncores * 16)).map (fun i => l.imgCounts 0 + 128 * i)).map (fun o => (o, freeLine n (o / 128)))

/-- The save image written at SAVB + b × SAVS (R436 step 4). -/
def State.writeImage (s : State) (l : Launch) (v : Saved) : State :=
  let base := l.savb + v.b * l.savs
  (l.freePieces s.free ++ s.imagePieces l v).foldl (fun s p => s.vWrite l.asid l.root 2 (base + p.1) 128 p.2) { s with free := s.free + 1 }

/-- Bytes of a block's image from an offset on, as a map from key `lo`; none where one cannot be read. -/
def State.imageMem (s : State) (l : Launch) (b off size lo : Nat) : State × Option Mem :=
  match s.vRead l.asid l.root (size / 128 + 2) (l.savb + b * l.savs + off) size with
  | (s, some v) => (s, some (SMap.listFrom lo (bytesOf size v)))
  | (s, none) => (s, none)
/-- Words of the image as a register file. -/
def State.imageWords (s : State) (l : Launch) (b off n : Nat) : State × Option (SMap 32) :=
  match s.vRead l.asid l.root (n / 32 + 2) (l.savb + b * l.savs + off) (4 * n) with
  | (s, some v) => (s, some (SMap.listFrom 0 ((List.range n).map (fun i => BitVec.ofNat 32 (byteField v (4 * i) 4)))))
  | (s, none) => (s, none)

/-- A part of what is kept of a saved block, replaced by what its image holds; kept where the image cannot be read (log entry 33). -/
def State.backMem (s : State) (l : Launch) (b off size lo : Nat) (m : Mem) : State × Mem :=
  if size = 0 then (s, m) else
  let r := s.imageMem l b off size lo
  (r.1, r.2.getD m)
/-- The registers of a saved gang as its image holds them. -/
def State.backGang (s : State) (l : Launch) (b j k : Nat) : State :=
  match s.gang k with
  | none => s
  | some g =>
    let v := s.imageWords l b (l.imgRegs j) (32 * l.av)
    let u := v.1.imageWords l b (l.imgRegs j + 128 * l.av) l.asz
    u.1.putGang k { g with vreg := v.2.getD g.vreg, sreg := u.2.getD g.sreg }
/-- The lane-private storage of a saved gang as its image holds it. -/
def State.backLp (s : State) (l : Launch) (b j : Nat) (m : Mem) : State × Mem :=
  (List.range 32).foldl (fun (a : State × Mem) n =>
    let r := a.1.backMem l b (l.imgLp j + n * l.lpb) l.lpb (4096 * n) (m.filter (fun kv => kv.1 / 4096 == n))
    (r.1, a.2 ++ r.2)) (s, [])
/-- One store of the cores of a saved block, at `o` in each core's share. -/
def State.backStore (s : State) (l : Launch) (b o size : Nat) (ms : List Mem) : State × List Mem :=
  ms.zipIdx.foldl (fun (a : State × List Mem) mr =>
    let r := a.1.backMem l b (l.imgStores mr.2 + o) size 0 mr.1
    (r.1, a.2 ++ [r.2])) (s, [])

/-- A saved block read back from its image (R437). -/
def State.readImage (s : State) (l : Launch) (v : Saved) : State × Saved :=
  if v.flush then (s, v) else
  let s := v.gangs.zipIdx.foldl (fun s kj => s.backGang l v.b kj.2 kj.1) s
  let lp := v.lpriv.zipIdx.foldl (fun (a : State × List Mem) mj =>
    let r := a.1.backLp l v.b mj.2 mj.1
    (r.1, a.2 ++ [r.2])) (s, [])
  let sh := lp.1.backStore l v.b 0 l.shBytes v.shared
  let a := sh.1.backStore l v.b l.shBytes l.aBytes v.astore
  let c := a.1.backStore l v.b (l.shBytes + l.aBytes) l.cBytes v.cstore
  let w := c.1.backStore l v.b (l.shBytes + l.aBytes + l.cBytes) l.wBytes v.wstore
  (w.1, { v with lpriv := lp.2, shared := sh.2, astore := a.2, cstore := c.2, wstore := w.2 })

/-- Relative contents of a range of a store. -/
def relPart {w : Nat} (lo hi : Nat) (m : SMap w) : SMap w :=
  (m.filter (fun kv => decide (lo ≤ kv.1 ∧ kv.1 < hi))).map (fun kv => (kv.1 - lo, kv.2))
/-- Relative contents of a gang's lane-private storage: lane × 4096 + offset. -/
def relLp (p lo hi : Nat) (m : Mem) : Mem :=
  (m.filter (fun kv => inRange (4 + p) lo hi kv.1)).map (fun kv => (kv.1 / 4096 % 32 * 4096 + (kv.1 % 4096 - lo), kv.2))

/-- What is kept of a block's stores, counters and weight sets (R436). -/
def State.keepBlock (s : State) (bk : Nat) (b : Block) (l : Launch) (keys : List Nat) (flush : Bool) : Saved :=
  if flush then ⟨b.launch, b.b, true, keys, [], [], [], [], [], [], []⟩ else
  let per {w : Nat} (bases : List Nat) (size : Nat) (h : CoreSt → SMap w) : List (SMap w) :=
    b.cores.zipIdx.map (fun ci => relPart (bases.getD ci.2 0) (bases.getD ci.2 0 + size) (h (s.core ci.1)))
  { launch := b.launch, b := b.b, flush := false, gangs := keys
    lpriv := b.gangs.zipIdx.map (fun kj =>
      relLp (slotOf kj.1 / 16) (b.lpBase.getD kj.2 0) (b.lpBase.getD kj.2 0 + l.lpb) (s.core (coreOf kj.1)).lpriv)
    shared := per b.shBase l.shBytes (·.shared), astore := per b.aBase l.aBytes (·.astore)
    cstore := per b.cBase l.cBytes (·.cstore), wstore := per b.wBase l.wBytes (·.wstore)
    bins := per b.binBase l.nbins (·.bins)
    sets := b.cores.zipIdx.flatMap (fun ci => (s.core ci.1).sets.zipIdx.filterMap (fun wn =>
      if wn.1.blk = some bk then some (ci.2, wn.2, wn.1.woff, wn.1.fmt) else none)) }

/-- A block leaves its cores: its gangs move to keys of no core, what a restore needs is kept, a save's image is written, its resources
are free. -/
def State.leave (s : State) (bk : Nat) (b : Block) (l : Launch) (flush : Bool) : State :=
  let key (j : Nat) : Nat := 65536 + 1024 * bk + j
  let v := s.keepBlock bk b l ((List.range b.gangs.length).map key) flush
  let s := b.gangs.zipIdx.foldl (fun (s : State) kj =>
    match s.gang kj.1 with
    | none => s
    | some g =>
      let g' := if g.retired then g else if flush then Gang.restart l g s.cycle else g.toSave s.cycle
      s.moveGang kj.1 (key kj.2) (g'.mapSync b.relSync)) s
  let s := (if flush then s else s.writeImage l v).freeBlock bk b l flush
  let s := { s with sched := { s.sched with saved := s.sched.saved ++ [v] } }
  let s := match s.launch b.launch with
    | some l => s.putLaunch b.launch { l with saved := (l.saved ++ [b.b]).mergeSort (fun x y => decide (x ≤ y)) }
    | none => s
  s.blockLeft

/-- Lets a block leave once its gangs owe nothing and its cores have drained, so that what it stored is reached again
through memory (R435 to R437); meanwhile its gangs do not issue. -/
def State.leaveWhen (s : State) (bk : Nat) (b : Block) (m : Msg) (flush : Bool) : State :=
  let gs := (b.gangs.filterMap s.gang).filter (fun g => !g.retired)
  if gs.isEmpty then s
  else if gs.any (fun g => g.saveOwed) then s.after 16 m
  else if b.drains.isEmpty then
    let r := s.drainCores b.cores
    (r.1.putBlock bk { b with drains := r.2 }).after 16 m
  else if b.drains.any (fun d => s.coh.drains.has d) || b.cores.any s.writesOwed then s.after 16 m
  else whenStill s m fun s =>
    match s.launch b.launch with
    | some l => s.leave bk b l flush
    | none => s

/-- BLOCK_SAVE (R436, R447): the block stops, its outstanding work completes, and it is saved; a COR launch is saved whole. -/
def execBlockSave (s : State) : Out :=
  match s.msg with
  | some (.blockSave bk) =>
    .next (match s.block bk with
      | none => s
      | some b =>
        if b.mode = 2 then s
        else if b.mode = 3 then s.leaveWhen bk b (.blockSave bk) false
        else
          let cor := match s.launch b.launch with | some l => l.cor | none => false
          let bs := s.sched.blocks.filter (fun kb => kb.1 == bk || (cor && kb.2.launch == b.launch && kb.2.mode != 2 && kb.2.mode != 3))
          bs.foldl (fun (s : State) kb =>
            (s.putBlock kb.1 { kb.2 with mode := 3, asked := max 1 kb.2.asked }).push (.blockSave kb.1)) s.setPrefer)
  | _ => .fault .noMessage

/-- BLOCK_FLUSH (R435): outstanding work completes, versions are discarded, and the resources are released for a restart. -/
def execBlockFlush (s : State) : Out :=
  match s.msg with
  | some (.blockFlush bk) =>
    .next (match s.block bk with
      | none => s
      | some b => if b.mode = 2 then s.leaveWhen bk b (.blockFlush bk) true else s)
  | _ => .fault .noMessage

/-- The saved blocks an attempt restores: all of a COR launch, else one; with their gangs that have not retired. -/
def State.savedBlocks (s : State) (lk b : Nat) (l : Launch) : List (Nat × List Nat) :=
  (if l.cor then l.saved else [b]).map (fun n =>
    (n, match s.sched.saved.find? (fun v => v.launch == lk && v.b == n) with
      | some v => (v.gangs.zipIdx.filter (fun kj => match s.gang kj.1 with | some g => !g.retired | none => false)).map (·.2)
      | none => []))

/-- BLOCK_RESTORE (R437, R455): saved blocks are placed again before any unplaced one, with all they held, read back from their images;
the constant image is not read again (log entry 34). -/
def execBlockRestore (s : State) : Out :=
  match s.msg with
  | some (.blockRestore lk b) =>
    .next (match s.launch lk with
      | none => s
      | some l =>
        if !l.saved.contains b ∨ l.backoff then s
        else whenStill s (.blockRestore lk b) fun s =>
          let leaving := l.cor && s.sched.blocks.any (fun kb => kb.2.launch == lk && (kb.2.mode == 2 || kb.2.mode == 3))
          match (if leaving then none else s.findAll s.useOf l (decide (0 < l.done)) (s.rectsNow l) (s.savedBlocks lk b l) []) with
          | none => s.placeFails lk l
          | some ps =>
            let s := s.putLaunch lk { l with saved := l.saved.filter (fun n => !ps.any (fun p => p.1 == n)) }
            let s := ps.foldl (fun (s : State) p =>
              match s.sched.saved.find? (fun v => v.launch == lk && v.b == p.1) with
              | none => s.commitBlock lk l p.1 p.2 none
              | some v =>
                let r := s.readImage l v
                r.1.commitBlock lk l p.1 p.2 (some r.2)) s
            s.placedOn lk)
  | _ => .fault .noMessage

end Sys2Proof.Machine
end

