-- ==== Sys2Proof/Machine/Host.lean ====
section
/-! DEFINITION. The host's side of the device: registers of the device control block (R461 to R468) and the operations their
writes start, debug halts and the debug window (R450, R469), gating and idle levels (R115, R116, R470), power, clocks and
resets (R471, R472), and the attestation mailbox (R473). -/

namespace Sys2Proof.Machine

/-- Bits [hi:lo] of a value kept in place. -/
def keepBits (v : Nat) (fs : List (Nat × Nat)) : Nat := fs.foldl (fun a f => a + fld v f.2 (f.1 - f.2 + 1) * 2 ^ f.2) 0

/-! ### Translations, locators and keys (R41, R55, R151 to R153) -/

/-- The range a TLBINV names: first address and size. -/
def tlbinvRange (v : Nat) : Nat × Nat :=
  let sz := match fld v 10 2 with | 0 => 2 ^ 12 | 1 => 2 ^ 16 | 2 => 2 ^ 21 | _ => 2 ^ 30
  (fld v 19 45 * 4096 / sz * sz, sz)

/-- Removes every matching entry on all dies, and the instruction lines of the range (R268). -/
def State.tlbFlush (s : State) (v : Nat) : State :=
  let r := tlbinvRange v
  let anyA := bit v 9
  let allV := bit v 8
  let asid := s.dcb.tlbiasid
  let keepWalk (w : WalkEnt) : Bool := !(allV || decide (w.va < r.1 + r.2 ∧ r.1 < w.va + 2 ^ lvlShift (w.level + 1)))
  { s with
    cores := s.cores.map (fun (kc : Nat × CoreSt) => (kc.1, { kc.2 with
      tlb := kc.2.tlb.filter (fun t => t.kept r.1 r.2 asid allV anyA)
      ibuf := kc.2.ibuf.filter (fun x => !(allV || decide (x.va < r.1 + r.2 ∧ r.1 < x.va + 128))) }))
    coh := { s.coh with dtlb := s.coh.dtlb.filter (fun e => e.2.kept r.1 r.2 asid allV anyA)
                        wcache := s.coh.wcache.filter (fun e => keepWalk e.2) } }

/-- TLBINV: with GO the matching entries go at once; BUSY stays until accesses made through them are performed, for which the cores
that hold plain stores in their L1s drain (R499). -/
def execTlbinv (s : State) : Out :=
  match s.msg with
  | some (.tlbinv v) =>
    .next (if bit s.dcb.tlbinv 0 then s else
      let f := keepBits v [(63, 19), (11, 8)]
      if !bit v 0 then { s with dcb := { s.dcb with tlbinv := f } }
      else
        let s := ({ s with dcb := { s.dcb with tlbinv := f + 1 } } : State).tlbFlush v
        let r := s.drainCores ((s.cores.filter (fun kc => kc.2.l1.any (fun x => x.dirty != 0 && !x.line.obj))).map (·.1))
        r.1.push (.tlbinvComplete s.cycle r.1.coh.nextDrain))
  | _ => .fault .noMessage

/-- TLBINV_COMPLETE: every operation issued before the start has been performed, and every store that was then in an L1 or on its way. -/
def execTlbinvComplete (s : State) : Out :=
  match s.msg with
  | some (.tlbinvComplete since upto) =>
    .next (if s.coh.drains.any (fun kd => decide (kd.1 ≤ upto)) ∨ s.gangs.any (fun kg => kg.2.ops.any (fun ko => !ko.2.held && ko.2.cls != 8 && decide (ko.2.issued ≤ since) && !ko.2.atAgent))
      then s.after 16 (.tlbinvComplete since upto)
      else { s with dcb := { s.dcb with tlbinv := s.dcb.tlbinv / 2 * 2 } })
  | _ => .fault .noMessage

/-- LCINV: locator entries are invalidated. -/
def execLcinv (s : State) : Out :=
  match s.msg with
  | some (.lcinv v) =>
    let s := { s with dcb := { s.dcb with lcinv := keepBits v [(63, 36), (1, 1)] } }
    .next (if bit v 0 then { s with fab := { s.fab with loc := s.fab.loc.filter (fun e => !(bit v 1 || e.ident == fld v 36 28)) } } else s)
  | _ => .fault .noMessage

/-- KRET: the identifier is marked retiring and every core drains. -/
def execKret (s : State) : Out :=
  match s.msg with
  | some (.kret v) =>
    let kid := fld v 12 10
    .next (if bit s.dcb.kret 0 ∨ kid = 0 ∨ kid = 0x3FF then s
      else if !bit v 0 then { s with dcb := { s.dcb with kret := kid * 4096 } }
      else
        let s := { s with dcb := { s.dcb with kret := kid * 4096 + 1 }, coh := { s.coh with retiring := some kid } }
        ((s.drainCores (s.cores.map (·.1))).1).after 16 .keyRetireComplete)
  | _ => .fault .noMessage

/-- A core's L1 holds stored bytes of lines of an identifier. -/
def CoreSt.keyDirty (c : CoreSt) (kid : Nat) : Bool := c.l1.any (fun x => x.line.key == kid && x.dirty != 0)
/-- An access translated before the retirement is still to be performed. -/
def State.keyUsed (s : State) (kid : Nat) : Bool :=
  s.gangs.any (fun kg => kg.2.ops.any (fun ko => ko.2.accs.any (fun a => !a.line.obj && a.line.key == kid && a.pending)))
/-- KEY_RETIRE_COMPLETE: with the drains over, every line of the identifier is written back and invalidated; it is empty, and
the accesses that waited look again. -/
def execKeyRetireComplete (s : State) : Out :=
  match s.msg with
  | some .keyRetireComplete =>
    let kid := fld s.dcb.kret 12 10
    .next (if !bit s.dcb.kret 0 then s
      else if !s.coh.drains.isEmpty ∨ s.cores.any (fun kc => s.writesOwed kc.1) ∨ s.keyUsed kid then s.after 16 .keyRetireComplete
      else if s.cores.any (fun kc => kc.2.keyDirty kid) then
        ((s.drainCores ((s.cores.filter (fun kc => kc.2.keyDirty kid)).map (·.1))).1).after 16 .keyRetireComplete
      else whenQuiet s .keyRetireComplete fun s =>
        let s := s.coh.lines.foldl (fun s x =>
          if x.line.key ≠ kid then s
          else if x.st == .m || x.st == .o then s.lineSet x.line x.data x.poison
          else (s.dropSl x.die x.line).putDir ((s.dirOf x.line).without x.die)) s
        let s := { s with
          cores := s.cores.map (fun (kc : Nat × CoreSt) => (kc.1, { kc.2 with l1 := kc.2.l1.filter (fun x => x.line.key != kid) }))
          coh := { s.coh with retiring := none }
          dcb := { s.dcb with kret := kid * 4096, keys := s.dcb.keys.erase kid } }
        (List.range 4).foldl (fun s d => s.wakeDie d) s)
  | _ => .fault .noMessage

/-- KLOAD: keys for an empty identifier. -/
def execKload (s : State) : Out :=
  match s.msg with
  | some (.kload v) =>
    let kid := fld v 12 10
    .next (if !bit v 0 then { s with dcb := { s.dcb with kload := kid * 4096 + fld s.dcb.kload 1 2 * 2 } }
      else
        let key (i : Nat) : Nat := (List.range 4).foldr (fun j a => s.dcb.kdata.getD (i + j) 0 + 2 ^ 64 * a) 0
        let st := if kid = 0 ∨ kid = 0x3FF then 2 else if s.dcb.keys.has kid ∨ s.coh.retiring = some kid then 1 else 0
        { s with dcb := { s.dcb with
            kload := kid * 4096 + st * 2
            kdata := List.replicate 8 0
            keys := if st = 0 then s.dcb.keys.set kid (key 0, key 4) else s.dcb.keys } })
  | _ => .fault .noMessage

/-! ### Extent pools (R26) -/

/-- The fields of FXOP after an operation: operation, pool, address, class, status. -/
def fxopReg (v addr status : Nat) : Nat := fld v 62 2 * 2 ^ 62 + fld v 55 7 * 2 ^ 55 + fld addr 16 30 * 2 ^ 16 + fld v 4 6 * 16 + status * 2

/-- FXOP while an operation of this value is under way: BUSY reads as 1. -/
def State.fxBusy (s : State) (v : Nat) : State :=
  { s with dcb := { s.dcb with fxop := fxopReg v (fld v 16 30 * 2 ^ 16) (fld s.dcb.fxop 1 3) + 1 } }
/-- An operation of FXOP: BUSY reads as 1, and every write is ignored, until coherence is at rest and it is performed.  Its own message
carries bit 64 while it waits. -/
def State.fxopRun (s : State) (m : Nat → Msg) (v : Nat) (k : State → State) : State :=
  if bit v 64 then whenQuiet s (m v) k
  else if bit s.dcb.fxop 0 then s else whenQuiet (s.fxBusy v) (m (v % 2 ^ 64 + 2 ^ 64)) k

/-- The place of a pool holds an extent. -/
def State.poolHolds (s : State) (p a n : Nat) : Bool :=
  if p = 0 then decide (a + n ≤ Config.hbmSize) && !s.touchesRegion a n
  else if p = 1 then decide (Config.ddrBase ≤ a ∧ a + n ≤ Config.ddrBase + Config.ddrSize) && !s.touchesRegion a n
  else
    let r := s.rrd (p - 2)
    rrdEn r && !rrdBusy r && decide (rrdBase r ≤ a ∧ a + n ≤ rrdBase r + rrdSize r)

/-- Operand limits of FXOP. -/
def fxArgs (v : Nat) : Bool := decide (fld v 55 7 ≤ 65 ∧ 16 ≤ fld v 4 6 ∧ fld v 4 6 ≤ 36)

/-- FXOP_GIVE: an extent is pushed on its class list. -/
def execFxopGive (s : State) : Out :=
  match s.msg with
  | some (.fxopGive v) =>
    let a := fld v 16 30 * 2 ^ 16
    let c := fld v 4 6
    let set (s : State) (st : Nat) : State := { s with dcb := { s.dcb with fxop := fxopReg v a st } }
    .next (if !bit v 0 ∨ fld v 62 2 ≠ 1 then (if bit s.dcb.fxop 0 then s else set s 0) else s.fxopRun .fxopGive v fun s =>
      if !s.fxEn then set s 3
      else if !fxArgs v || a % 2 ^ c != 0 || !s.poolHolds (fld v 55 7) a (2 ^ c) then set s 2
      else set (s.fxPush (fld v 55 7) c a) 0)
  | _ => .fault .noMessage

/-- FXOP_TAKE: an extent is taken from a pool.  R26 names BADARG for the checks of GIVE alone; a TAKE whose POOL or LSZ lies outside its
limits ends BADARG too (DESIGN CHOICE, log entry 83). -/
def execFxopTake (s : State) : Out :=
  match s.msg with
  | some (.fxopTake v) =>
    let a := fld v 16 30 * 2 ^ 16
    let set (s : State) (a st : Nat) : State := { s with dcb := { s.dcb with fxop := fxopReg v a st } }
    .next (if !bit v 0 ∨ fld v 62 2 ≠ 2 then (if bit s.dcb.fxop 0 then s else set s a 0) else s.fxopRun .fxopTake v fun s =>
      if !s.fxEn then set s a 3
      else if !fxArgs v then set s a 2
      else match s.fxGet (fld v 55 7) (fld v 4 6) with
        | some (s, b) => set s b 0
        | none => set s a 1)
  | _ => .fault .noMessage

/-- Any object-table entry of the device is in use. -/
def State.anyObject (s : State) : Bool :=
  10 ≤ tabK s.dcb.otb && (List.range (2 ^ tabK s.dcb.otb)).any (fun i => byteField (s.oteAt i) 0 8 != 0)

/-- FXB_ENABLE: a write of FXB; one that sets EN empties the directory first.  "A write that sets EN" is read as one that
turns it from 0 to 1: a write of EN = 1 while EN is 1 leaves the directory (DESIGN CHOICE, log entry 75). -/
def execFxbEnable (s : State) : Out :=
  match s.msg with
  | some (.fxbEnable v) =>
    .next (whenQuiet s (.fxbEnable v) fun s =>
      let new := keepBits v [(45, 12), (0, 0)]
      if bit s.dcb.fxb 0 then
        if fld new 12 34 ≠ fld s.dcb.fxb 12 34 ∨ (!bit new 0 ∧ s.anyObject) then s
        else { s with dcb := { s.dcb with fxb := new } }
      else
        let s := if bit new 0 then s.physWrite 0 (fld new 12 34 * 4096) 22176 0 else s
        { s with dcb := { s.dcb with fxb := new } })
  | _ => .fault .noMessage

/-! ### KV windows (R105, R106) -/

/-- KVW_WRITE: the value waits until the lines of the old and the new object are gone from the caches. -/
def execKvwWrite (s : State) : Out :=
  match s.msg with
  | some (.kvwWrite n v) =>
    .next (if 64 ≤ n then s else
      ({ s with dcb := { s.dcb with kvwNew := s.dcb.kvwNew.set n (some (keepBits v [(63, 36), (13, 7), (0, 0)])) } } : State).push (.kvwEffect n))
  | _ => .fault .noMessage

/-- KVW_EFFECT: the lines are written back and invalidated, and the window takes its value. -/
def execKvwEffect (s : State) : Out :=
  match s.msg with
  | some (.kvwEffect n) =>
    .next (match s.dcb.kvwNew.getD n none with
      | none => s
      | some v => whenQuiet s (.kvwEffect n) fun s =>
        let old := s.dcb.kvw.getD n 0
        let s := s.coh.lines.foldl (fun s x =>
          if !x.line.obj || !(x.line.ident == fld old 36 28 || x.line.ident == fld v 36 28) then s
          else if x.st == .m || x.st == .o then s.lineSet x.line x.data x.poison
          else (s.dropSl x.die x.line).putDir ((s.dirOf x.line).without x.die)) s
        { s with dcb := { s.dcb with kvw := s.dcb.kvw.set n v, kvwNew := s.dcb.kvwNew.set n none } })
  | _ => .fault .noMessage

/-! ### Pre-emption requests and debug halts (R450, R464) -/

/-- PREQ: the named resident block is asked, unless its request stands. -/
def execPreq (s : State) : Out :=
  match s.msg with
  | some (.preq v) =>
    .next (match s.sched.blocks.find? (fun kb => kb.2.b == fld v 40 24 && (match s.launch kb.2.launch with
        | some l => l.queue == fld v 32 6 && l.index == fld v 0 32
        | none => false)) with
      | some kb => if kb.2.asked = 0 then s.ask kb.1 1 else s
      | none => s)
  | _ => .fault .noMessage

/-- The fields of GDBG kept, and the key of the gang it selects. -/
def gdbgFields (v : Nat) : Nat := keepBits v [(31, 17), (3, 3)]
def gdbgKey (v : Nat) : Nat := fld v 24 8 * 128 + fld v 17 7

/-- GDBG with HALT: HALTREQ is raised in the selected gang; a write that names an empty slot, or a HALT or RESUME without
effect, is ignored (R450). -/
def execGdbgHalt (s : State) : Out :=
  match s.msg with
  | some (.gdbgHalt v) =>
    .next (match s.gang (gdbgKey v) with
      | some g => if g.halted ∨ g.retired then s
        else ({ s with dcb := { s.dcb with gdbg := gdbgFields v } }).raiseAsync (gdbgKey v) (2 ^ cHALTREQ)
      | none => s)
  | _ => .fault .noMessage

/-- A gang goes on from a debug halt: bits 20 and 21 of TCAUSE clear, and slices regroup (R469). -/
def Gang.resumed (g : Gang) (skip : Bool) : Gang :=
  let g := { g with halted := false, tcause := andNot g.tcause (2 ^ cBRKPT + 2 ^ cHALTREQ) }
  let g := (g.frags.map (·.1)).foldl (fun g f => g.regroup f) g
  { g with skipBrk := if skip then maskOfList (g.frags.map (·.1)) else 0 }

/-- GDBG with RESUME: causes still pending are taken before any fragment issues. -/
def execGdbgResume (s : State) : Out :=
  match s.msg with
  | some (.gdbgResume v) =>
    let k := gdbgKey v
    .next (match s.gang k with
      | some g => if g.halted ∧ !g.retired then
          (({ s with dcb := { s.dcb with gdbg := gdbgFields v } }).putGang k (g.resumed (bit v 3))).trapDue k else s
      | none => s)
  | _ => .fault .noMessage

/-! ### Device number, queues and regeneration entries (R415, R416, R421, R466) -/

/-- DEVNUM: the first write after a whole-device reset sets it. -/
def execDevnumWrite (s : State) : Out :=
  match s.msg with
  | some (.devnumWrite v) =>
    .next (if s.devSet then s
      else ((({ s with dcb := { s.dcb with devnum := v % 128 + 128 } } : State).agreePorts).push .launchAccept))
  | _ => .fault .noMessage

/-- LQPTR.n: TAIL. -/
def execTailWrite (s : State) : Out :=
  match s.msg with
  | some (.tailWrite n v) =>
    .next (if 64 ≤ n ∨ (n = 63 ∧ s.sched.q63) then s
      else ({ s with dcb := { s.dcb with lqptr := s.dcb.lqptr.set n (fld v 32 32 * 2 ^ 32 + lqHead (s.lqptr n)) } } : State).push .launchAccept)
  | _ => .fault .noMessage

def rcrtFields (v : Nat) : Nat := keepBits v [(63, 48), (45, 7), (3, 0)]

/-- RCRT.n with EN: with no entry enabled it takes effect only when queue 63 can be taken. -/
def execRcrtEnable (s : State) : Out :=
  match s.msg with
  | some (.rcrtEnable n v) =>
    .next (if !Config.isA1 ∨ 16 ≤ n ∨ !bit v 0 then s
      else if s.dcb.rcrt.any rcrtEn || (lqEn (s.lqcfg 63) && s.qEmpty 63 && !s.queueBusy 63
          && s.sched.launches.all (fun kl => kl.2.queue != 63 || !kl.2.unplaced)) then
        ({ s with dcb := { s.dcb with rcrt := s.dcb.rcrt.set n (rcrtFields v) }, sched := { s.sched with q63 := true } } : State).regenSelect
      else s)
  | _ => .fault .noMessage

/-- RCRT.n without EN: requests waiting for the entry are selected again, and queue 63 may go back. -/
def execRcrtDisable (s : State) : Out :=
  match s.msg with
  | some (.rcrtDisable n v) =>
    .next (if !Config.isA1 ∨ 16 ≤ n ∨ bit v 0 then s
      else (({ s with dcb := { s.dcb with rcrt := s.dcb.rcrt.set n (rcrtFields v) } } : State).regenSelect).push .queue63Release)
  | _ => .fault .noMessage

/-- PFAIL (R177): bits written as 1 clear. -/
def execPfailClear (s : State) : Out :=
  match s.msg with
  | some (.pfailClear v) => .next { s with dcb := { s.dcb with pfail := andNot s.dcb.pfail (v % 2 ^ 128) } }
  | _ => .fault .noMessage

/-! ### Tables, rings and plain registers (R461 to R463, R468) -/

/-- OTB, RGB, STB, SSTB: ignored while a launch is resident or a migration is in progress, or for a K outside 10 to 24. -/
def execTableBaseWrite (s : State) : Out :=
  match s.msg with
  | some (.tableBaseWrite off v) =>
    let new := keepBits v [(45, 8), (4, 0)]
    .next (if !s.sched.launches.isEmpty ∨ !s.fab.migs.isEmpty ∨ !s.fab.inbound.isEmpty then s
      else if off = 0x20 then { s with dcb := { s.dcb with sstb := keepBits v [(45, 8)] } }
      else if tabK new < 10 ∨ 24 < tabK new then s
      else match off with
        | 0x08 => { s with dcb := { s.dcb with otb := new } }
        | 0x10 => { s with dcb := { s.dcb with rgb := new } }
        | 0x18 => ({ s with dcb := { s.dcb with stb := new } } : State).armStubs
        | _ => s)
  | _ => .fault .noMessage

/-- MERB, CRB, HTRB: a base within its limits, with head and tail set to 0. -/
def execRingBaseWrite (s : State) : Out :=
  match s.msg with
  | some (.ringBaseWrite off v) =>
    let new := keepBits v [(45, 12), (4, 0)]
    let sz := fld v 0 5
    .next (if sz < 4 ∨ (if off = 0x80 then 16 else 12) < sz then s
      else match off with
        | 0x80 => { s with dcb := { s.dcb with merb := new, mehd := 0, metl := 0 } }
        | 0xA0 => { s with dcb := { s.dcb with crb := new, crhd := 0, crtl := 0 } }
        | 0xC0 => { s with dcb := { s.dcb with htrb := new, hthd := 0, httl := 0 } }
        | _ => s)
  | _ => .fault .noMessage

/-- A counter that a write of 0 clears. -/
def clearOn0 (old v : Nat) : Nat := if v = 0 then 0 else old

/-- REGISTER_WRITE: a register with no behaviour of its own; read-only and unassigned offsets ignore it. -/
def State.regWrite (s : State) (off v0 : Nat) : State :=
  let v := v0 % 2 ^ 64
  let d := s.dcb
  let put (d : Dcb) : State := { s with dcb := d }
  let clear (n : Nat) (h : Dcb → Dcb) : State := if v = 0 ∧ n ≠ 0 then s.errEvent h else s
  match off with
  | 0x028 => (put { d with stci := v }).armStubs
  | 0x030 => put { d with frto := v }
  | 0x038 => s.fab.peersOut.foldl (fun s p => if p.2.unacked.isEmpty then s else s.push (.peerTimeout p.1)) (put { d with pto := v })
  | 0x040 => put { d with hbto := v }
  | 0x048 => s.eng.regens.foldl (fun s r => if r.enq then s.push (.regenTimeout r.ptr) else s) (put { d with regto := v })
  | 0x068 => put { d with migctl := keepBits v [(23, 16), (3, 0)] }
  | 0x078 => (match s.gang (gdbgKey v) with | some g => if g.retired then s else put { d with gdbg := gdbgFields v } | none => s)
  | 0x090 => put { d with metl := v % 2 ^ 32 % ringSize d.merb }
  | 0x098 => put { d with medrop := clearOn0 d.medrop v }
  | 0x0B0 => put { d with crtl := v % 2 ^ 32 % ringSize d.crb }
  | 0x0B8 => put { d with crdrop := clearOn0 d.crdrop v }
  | 0x0D0 => put { d with httl := v % 2 ^ 32 % ringSize d.htrb }
  | 0x0D8 => put { d with htdrop := clearOn0 d.htdrop v }
  | 0x100 => put { d with lattol := keepBits v [(31, 31), (23, 0)] }
  | 0x108 => if 1000 ≤ v % 2 ^ 16 ∧ v % 2 ^ 16 ≤ 2800 then put { d with pwrctl := v % 2 ^ 16 } else s
  | 0x120 => clear d.mecc (fun d => { d with mecc := 0 })
  | 0x128 => clear d.munc (fun d => { d with munc := 0 })
  | 0x130 => clear d.chkm (fun d => { d with chkm := 0 })
  | 0x138 => clear d.cicor (fun d => { d with cicor := 0 })
  | 0x140 => clear d.resrt (fun d => { d with resrt := 0 })
  | 0x148 => clear d.lnkrt (fun d => { d with lnkrt := 0 })
  | 0x150 => clear d.mshrt (fun d => { d with mshrt := 0 })
  | 0x160 => if bit d.tlbinv 0 then s else put { d with tlbiasid := v % 2 ^ 16 }
  | 0x178 => if bit d.fxop 0 then s else put { d with fxop := fxopReg v (fld v 16 30 * 2 ^ 16) (fld d.fxop 1 3) }
  | 0x1C8 => clear d.wbref (fun d => { d with wbref := 0 })
  | _ =>
    if 0x180 ≤ off ∧ off ≤ 0x1B8 ∧ off % 8 = 0 then put { d with kdata := d.kdata.set ((off - 0x180) / 8) v }
    else if 0x3000 ≤ off ∧ off < 0x3400 ∧ off % 16 = 0 then
      let n := (off - 0x3000) / 16
      let old := s.lqcfg n
      if (n = 63 ∧ s.sched.q63) ∨ (lqEn old ∧ v % 2 ^ 46 / 16 ≠ old / 16) then s
      else ({ s with dcb := { d with lqcfg := d.lqcfg.set n (keepBits v [(45, 0)]) }
                     sched := { s.sched with heads := s.sched.heads.erase n } } : State).push .launchAccept
    else s

/-- A register of the control block as the host reads it (R461): unassigned offsets and write-only registers read as zero. -/
def State.dcbRead (s : State) (off : Nat) : Nat :=
  let d := s.dcb
  let row (xs : List Nat) (base step : Nat) : Nat := xs.getD ((off - base) / step) 0
  if off % 8 ≠ 0 then 0
  else if 0x1000 ≤ off ∧ off < 0x1200 then row d.kvw 0x1000 8
  else if 0x1200 ≤ off ∧ off < 0x1400 then row d.rrd 0x1200 8
  else if 0x1400 ≤ off ∧ off < 0x1480 then row d.rcrt 0x1400 8
  else if 0x2000 ≤ off ∧ off < 0x3000 then
    (match s.rcv.rcpt.get ((off - 0x2000) / 64) with
     | none => 0
     | some r => (match off % 64 with
       | 0 => r.cpt | 8 => r.opt | 16 => r.cursor | 24 => r.cdig | 32 => xorAll r.ldig | 40 => xorAll r.odig | 48 => r.ctime
       | _ => r.flags + r.sweep * 2 ^ 16))
  else if 0x3000 ≤ off ∧ off < 0x3400 then row (if off % 16 = 0 then d.lqcfg else d.lqptr) 0x3000 16
  else match off with
    | 0x000 => if s.host.booted then capw else 0
    | 0x008 => d.otb | 0x010 => d.rgb | 0x018 => d.stb | 0x020 => d.sstb
    | 0x028 => d.stci | 0x030 => d.frto | 0x038 => d.pto | 0x040 => d.hbto | 0x048 => d.regto
    | 0x050 => d.tlbinv | 0x058 => d.lcinv | 0x060 => d.kret | 0x068 => d.migctl
    | 0x078 => d.gdbg + (match s.gang (gdbgKey d.gdbg) with | some g => if g.halted then 4 else 0 | none => 0)
    | 0x080 => d.merb | 0x088 => d.mehd | 0x090 => d.metl | 0x098 => d.medrop
    | 0x0A0 => d.crb | 0x0A8 => d.crhd | 0x0B0 => d.crtl | 0x0B8 => d.crdrop
    | 0x0C0 => d.htrb | 0x0C8 => d.hthd | 0x0D0 => d.httl | 0x0D8 => d.htdrop
    | 0x0E0 => d.plive | 0x0E8 => d.pmep | 0x0F0 => d.pfail % 2 ^ 64 | 0x0F8 => d.pfail / 2 ^ 64
    | 0x100 => d.lattol | 0x108 => d.pwrctl | 0x110 => d.pwrst | 0x118 => d.drst
    | 0x120 => d.mecc | 0x128 => d.munc | 0x130 => d.chkm | 0x138 => d.cicor | 0x140 => d.resrt
    | 0x148 => d.lnkrt | 0x150 => d.mshrt | 0x158 => d.fpst | 0x160 => d.tlbiasid | 0x168 => d.devnum
    | 0x170 => d.fxb | 0x178 => d.fxop | 0x1C0 => d.kload | 0x1C8 => d.wbref
    | _ => 0

/-! ### The debug window (R469) -/

/-- A slice's word written: PC, mask and depth, or a word of a stack entry; entry 0 is the bottom (log entry 35). -/
def Slice.window (x : Slice) (o v : Nat) : Slice :=
  if o = 0 then { x with pc := v / 4 * 4 }
  else if o = 8 then
    let n := min 16 (fld v 8 8)
    { x with mask := fld v 0 4, stk := List.replicate (n - x.stk.length) ⟨0, 0, 0⟩ ++ x.stk.drop (x.stk.length - n) }
  else
    let e := (o - 16) / 24
    if x.stk.length ≤ e then x else
    let i := x.stk.length - 1 - e
    let y := x.stk.getD i ⟨0, 0, 0⟩
    { x with stk := x.stk.set i (match (o - 16) % 24 with
        | 0 => { y with pc := v }
        | 8 => { y with rc := v }
        | _ => { y with mask := fld v 0 4 }) }

/-- A fragment's windows written; a value that does not fit is ignored. -/
def Gang.fragWindow (g : Gang) (n v : Nat) : Gang :=
  match g.frags.get n with
  | none => g
  | some f =>
    let xv := fld v 0 16
    let xs := fld v 16 16
    let f := if xv % 8 = 0 ∧ xv < g.vLim then { f with xv := xv } else f
    let f := if xs % 8 = 0 ∧ xs < g.uLim then { f with xs := xs } else f
    { g with frags := g.frags.set n f }

/-- Eight bytes of the window of a halted gang written. -/
def State.windowWrite (s : State) (k : Nat) (g : Gang) (o v : Nat) : State :=
  let lo := v % 2 ^ 32
  let hi := v / 2 ^ 32 % 2 ^ 32
  if o < 0x8000 then
    let i := o / 4
    if i / 32 < g.av then s.putGang k ((g.setV (i / 32) (i % 32) lo).setV (i / 32) (i % 32 + 1) hi) else s
  else if o < 0xC000 then
    let n := (o - 0x8000) / 4
    if n < g.asz then s.putGang k ((g.setU n lo).setU (n + 1) hi) else s
  else if o < 0xD000 then
    let c := (o - 0xC000) / 8
    match s.csrWrite k g c 1 (if csrWide c then v else lo) with
    | some (s, g) => (s.putGang k g).trapDue k
    | none => s
  else if o < 0xD040 then
    let n := (o - 0xD000) / 4
    s.putGang k ((if n = 0 then g else g.setM n lo).setM (n + 1) hi)
  else if o < 0xD080 then s.putGang k (g.fragWindow ((o - 0xD040) / 8) v)
  else if 0xE000 ≤ o ∧ o < 0xF000 then
    let sl := (o - 0xE000) / 512
    if 496 ≤ (o - 0xE000) % 512 then s
    else s.putGang k (g.mapSlices (2 ^ sl) (fun _ x => x.window ((o - 0xE000) % 512) v))
  else s

/-- DEBUG_WINDOW_WRITE: the gang that GDBG selects, if it is in a debug halt. -/
def execDebugWindowWrite (s : State) : Out :=
  match s.msg with
  | some (.debugWindowWrite off v) =>
    let k := gdbgKey s.dcb.gdbg
    .next (match s.gang k with
      | some g => if g.halted ∧ off % 8 = 0 then s.windowWrite k g (off % 0x10000) (v % 2 ^ 64) else s
      | none => s)
  | _ => .fault .noMessage

/-- Eight bytes of the window as the host reads them, while the gang is in a debug halt. -/
def State.windowRead (s : State) (o : Nat) : Nat :=
  let k := gdbgKey s.dcb.gdbg
  match s.gang k with
  | none => 0
  | some g =>
    if !g.halted ∨ o % 8 ≠ 0 then 0
    else if o < 0x8000 then
      let i := o / 4
      if i / 32 < g.av then g.v (i / 32) (i % 32) + 2 ^ 32 * g.v (i / 32) (i % 32 + 1) else 0
    else if o < 0xC000 then
      let n := (o - 0x8000) / 4
      if n < g.asz then g.up n else 0
    else if o < 0xD000 then s.csrRead k g ((o - 0xC000) / 8)
    else if o < 0xD040 then
      let n := (o - 0xD000) / 4
      (if n = 0 then g.liveUnf else (g.mreg.get n).toNat) + 2 ^ 32 * (g.mreg.get (n + 1)).toNat
    else if o < 0xD080 then
      (match g.frags.get ((o - 0xD040) / 8) with
       | some f => f.xv + f.xs * 2 ^ 16 + f.slices * 2 ^ 32 + 2 ^ 40
       | none => 0)
    else if o = 0xD080 then (List.range 6).foldr (fun i a => g.count i % 256 + 256 * a) 0
    else if 0xD088 ≤ o ∧ o < 0xD108 then
      (match (g.ops.filter (fun ko => ko.2.held)).drop ((o - 0xD088) / 8) with
       | ko :: _ => ko.2.bin % 256 + ko.2.cls * 256 + 65536
       | [] => 0)
    else if 0xE000 ≤ o ∧ o < 0xF000 then
      let x := g.slice ((o - 0xE000) / 512)
      let p := (o - 0xE000) % 512
      if p = 0 then x.pc else if p = 8 then x.mask + 256 * x.stk.length
      else
        let e := (p - 16) / 24
        if x.stk.length ≤ e then 0 else
        let y := x.stk.getD (x.stk.length - 1 - e) ⟨0, 0, 0⟩
        (match (p - 16) % 24 with | 0 => y.pc | 8 => y.rc | _ => y.mask)
    else 0

/-- A register as the host reads it (R461), the debug window among them. -/
def State.regRead (s : State) (off : Nat) : Nat :=
  if 0x80000 ≤ off ∧ off < 0x90000 then s.windowRead (off - 0x80000) else s.dcbRead off

/-- REGISTER_WRITE; a read of a register, which no row of its own names, is answered (log entry 84). -/
def execRegisterWrite (s : State) : Out :=
  match s.msg with
  | some (.registerWrite off v) => .next (s.regWrite off v)
  | some (.registerRead off) => .next { s with host := { s.host with answers := s.host.answers ++ [(off, s.regRead off)] } }
  | _ => .fault .noMessage

/-! ### Gating (R115, R116) -/

/-- Lines of one slice and set that no longer fit in `cap` ways: the oldest of each set. -/
def overWays {α : Type} (cap : Nat) (same : α → α → Bool) : List α → List α
  | [] => []
  | x :: rest => if cap ≤ (rest.filter (same x)).length then x :: overWays cap same rest else overWays cap same rest

/-- Gates one more group of four L1 ways: the lines that leave are written back, which is a drain (R115, R122). -/
def State.gateL1 (s : State) (core : Nat) : State :=
  let c := s.core core
  if 3 ≤ c.l1Gated then s else
  let out := overWays (12 - 4 * c.l1Gated) (fun x y => l1Set x.line == l1Set y.line) c.l1
  let s := if out.any (fun x => x.dirty != 0) then s.startDrain core [] else s
  let c := s.core core
  s.putCore core { c with l1Gated := c.l1Gated + 1, l1 := c.l1.filter (fun x => !out.any (fun y => y.line == x.line)) }

/-- Gated groups of a slice. -/
def State.slGated (s : State) (i : Nat) : Nat := ((s.coh.gated.find? (fun g => g.1 == i)).map (·.2)).getD 0
def State.setSlGated (s : State) (i n : Nat) : State :=
  { s with coh := { s.coh with gated := s.coh.gated.filter (fun g => g.1 != i) ++ (if n = 0 then [] else [(i, n)]) } }

/-- Gates one more group of two ways of a slice, unless a held line or a speculative one would have to leave. -/
def State.gateSlice (s : State) (i : Nat) : State :=
  let n := s.slGated i
  if 7 ≤ n ∨ 128 ≤ i then s else
  let mine := s.coh.lines.filter (fun x => s.localSlice x.line x.die == i && x.die == i / 32 && x.st != .wb)
  let out := overWays (14 - 2 * n) (fun x y => s.setOf x.line == s.setOf y.line) mine
  if out.any (fun x => x.held || !x.slots.isEmpty || (s.txn x.line).isSome)
      || s.gangs.any (fun kg => kg.2.spec.any (fun x => x.slice == i)) then s
  else
    let s := out.foldl (fun (s : State) v =>
      if v.st == .m || v.st == .o then (s.putSl { v with st := .wb }).push (.wbd v.line v.die v.data v.poison)
      else (s.dropSl v.die v.line).push (.evc v.line v.die)) s
    s.setSlGated i (n + 1)

/-- Gates a shared-store segment that no block holds: its contents are discarded. -/
def State.gateSeg (s : State) (core seg : Nat) : State :=
  let c := s.core core
  let held := (s.useOf core).st.any (fun u => u.1 == 0 && decide (u.2.1 < 8192 * (seg + 1) ∧ 8192 * seg < u.2.1 + u.2.2))
  if held ∨ 28 ≤ seg ∨ bit c.gatedSeg seg then s
  else
    let c := (c.wipe 0 (8192 * seg) (8192 * (seg + 1))).disown 0 (8192 * seg) (8192 * (seg + 1))
    s.putCore core { c with gatedSeg := c.gatedSeg + 2 ^ seg, clearSeg := if bit c.clearSeg seg then c.clearSeg - 2 ^ seg else c.clearSeg }

/-- WAY_GATE: 0 an L1, 1 an LLC slice, 2 a shared-store segment is power-gated. -/
def execWayGate (s : State) : Out :=
  match s.msg with
  | some (.wayGate unit idx grp) =>
    .next (if unit = 0 then (if 256 ≤ idx then s else s.gateL1 idx)
      else if unit = 1 then s.gateSlice idx
      else if 256 ≤ idx then s else s.gateSeg idx grp)
  | _ => .fault .noMessage

/-- WAY_WAKE_DONE: a gated group of ways is back, invalid; a segment wakes into its clear of 256 cycles. -/
def execWayWakeDone (s : State) : Out :=
  match s.msg with
  | some (.wayWakeDone unit idx grp) =>
    .next (if unit = 0 then s.putCore idx { s.core idx with l1Gated := (s.core idx).l1Gated - 1 }
      else if unit = 1 then s.setSlGated idx (s.slGated idx - 1)
      else s.wakeSegs idx (8192 * grp) 8192)
  | _ => .fault .noMessage

/-- SEGMENT_CLEAR_DONE: the segment's clear ends, and accesses that waited for it go on. -/
def execSegmentClearDone (s : State) : Out :=
  match s.msg with
  | some (.segmentClearDone core seg) =>
    let c := s.core core
    .next (if bit c.clearSeg seg then s.putCore core { c with clearSeg := c.clearSeg - 2 ^ seg } else s)
  | _ => .fault .noMessage

/-- PATROL_SCRUB (R111): an error found in a line of populated memory is corrected and counted, or the line is poisoned. -/
def execPatrolScrub (s : State) : Out :=
  match s.msg with
  | some (.patrolScrub addr bad) =>
    let la := addr / 128
    .next (if !populated addr then s
      else if bad then (s.setLm la { s.lm la with poison := true }).countMunc
      else s.errEvent fun d => { d with mecc := errInc d.mecc })
  | _ => .fault .noMessage

/-- LEVEL_SAMPLE (R457, R458): outstanding requests and tile-queue entries of a core. -/
def execLevelSample (s : State) : Out :=
  match s.msg with
  | some (.levelSample core) =>
    let c := s.core core
    let q := (s.eng.tileQ.filter (fun q => q.1 == core)).length
    .next (s.putCore core { c with recs := c.recs.map (fun r =>
      if r.en ∧ r.evt = 15 then r.sample (s.requests core) else if r.en ∧ r.evt = 16 then r.sample q else r) })
  | _ => .fault .noMessage

/-! ### Resets, power and clocks (R471, R472) -/

/-- The state after a whole-device reset: as State.reset, with what lies outside the device (the switch chips, the packets on
their way) and the model's own counters kept.  Memory contents are undefined.  `ok` says which firmware images verify: with a failed
one the device has CXL.io and the mailbox only, and the digest of each verified image is recorded (R473). -/
def State.afterReset (s : State) (ok : Nat → Bool) : State :=
  { State.reset with
    cycle := s.cycle
    free := s.free
    fab := { Fab.reset with outbox := s.fab.outbox, pod := s.fab.pod, colTab := s.fab.colTab, colOpen := s.fab.colOpen
                            colDone := s.fab.colDone }
    host := { HostSt.reset with
      resets := s.host.resets + 1, booted := (List.range 8).all ok, lastReq := s.cycle
      meas := HostSt.reset.meas.mapIdx (fun i d => if ok i then d else 0) } }

/-- A reset that no message describes further: whether each image verifies is free (log entry 53). -/
def State.freshReset (s : State) : State := { s with free := s.free + 8 }.afterReset (fun i => !Config.freeBool (s.free + i))

/-- WHOLE_DEVICE_RESET: 0 I/O die, 1 power loss, 4 CXL reset; 16 (n + 1) more when image n fails verification (R473). -/
def execWholeDeviceReset (s : State) : Out :=
  match s.msg with
  | some (.wholeDeviceReset cause) => .next (s.afterReset (fun i => decide (cause / 16 ≠ i + 1)))
  | _ => .fault .noMessage

/-- THERMAL_TRIP: the module's power is removed, and everything with it. -/
def execThermalTrip (s : State) : Out :=
  match s.msg with
  | some .thermalTrip =>
    let s := s.afterReset (fun _ => true)
    .next { s with host := { s.host with off := true } }
  | _ => .fault .noMessage

/-- MODULE_POWER_ON: power returns and the device comes out of reset. -/
def execModulePowerOn (s : State) : Out :=
  match s.msg with
  | some .modulePowerOn => .next (if s.host.off then s.freshReset else s)
  | _ => .fault .noMessage

/-- CLOCK_ADJUST: die clocks between 700 and 1 400 MHz in steps of 50, and module power at or below PLIM: free choices. -/
def execClockAdjust (s : State) : Out :=
  match s.msg with
  | some .clockAdjust =>
    let cs := (List.range 4).map (fun d => 700 + 50 * (Config.clockChoice (s.free + d) % 15))
    let p := Config.powerReading s.free % (fld s.dcb.pwrctl 0 16 + 1)
    .next { s with free := s.free + 4
                   host := { s.host with clocks := cs }
                   dcb := { s.dcb with pwrst := cs.foldl min 1400 + p * 2 ^ 16 } }
  | _ => .fault .noMessage

/-! ### Idle levels (R470) -/

/-- The device is idle. -/
def State.isIdle (s : State) : Bool :=
  s.sched.blocks.isEmpty && s.queueOrder.all (fun n => s.sched.depWait.contains n) && s.sched.launches.all (fun kl => !kl.2.hasWork)
    && s.fab.migs.isEmpty && s.fab.inbound.isEmpty && s.rcv.sweeps.isEmpty
    && s.eng.walks.isEmpty && decide (s.host.lastReq + 2 ^ 16 ≤ s.cycle)

/-- The level to enter: the deepest that LATTOL allows, 0 for none. -/
def idleLevel (lattol : Nat) : Nat :=
  let tol := fld lattol 0 24
  if bit lattol 31 ∧ 200000 ≤ tol then 4 else if 2000 ≤ tol then 3 else if 50 ≤ tol then 2 else if 2 ≤ tol then 1 else 0

/-- On-core stores as after a loss of power (R87, R115). -/
def CoreSt.powered (c : CoreSt) : CoreSt :=
  { c with shared := [], lpriv := [], astore := [], cstore := [], wstore := [], owned := [], badWord := [], sets := []
           gatedSeg := 0, clearSeg := 0 }

/-- IDLE_ENTRY: L1 keeps everything; L2 gates the cores' stores; L3 keeps memory, durable queues, RCPTs and the I/O dies,
after every dirty line has been written back; L4 is a reset on wake. -/
def execIdleEntry (s : State) : Out :=
  match s.msg with
  | some .idleEntry =>
    let n := idleLevel s.dcb.lattol
    .next (if !s.isIdle ∨ s.host.idle ≠ 0 ∨ n = 0 then s
      else if s.cores.any (fun kc => kc.2.l1.any (fun x => x.dirty != 0)) then
        ((s.drainCores (s.cores.map (·.1))).1).after 64 .idleEntry
      else whenQuiet s .idleEntry fun s =>
        let s := { s with host := { s.host with idle := n } }
        if n < 2 then s
        else if n = 2 then { s with cores := s.cores.map (fun (kc : Nat × CoreSt) => (kc.1, kc.2.powered)) }
        else
          let s := s.coh.lines.foldl (fun s x => if x.st == .m || x.st == .o then s.lineSet x.line x.data x.poison else s) s
          { s with cores := [], coh := { s.coh with lines := [], dir := [], dtlb := [], wcache := [], drains := [] } })
  | _ => .fault .noMessage

/-- WAKE: the device is back from its idle level, from L4 through a whole-device reset; what woke it is served next. -/
def execWake (s : State) : Out :=
  match s.msg with
  | some .wake =>
    .next (if s.host.idle = 4 then { s.freshReset with pending := s.pending }
      else { s with host := { s.host with idle := 0, lastReq := s.cycle } })
  | _ => .fault .noMessage

/-- An access of the host to a register of the control block, by CXL.io (R461). -/
def Msg.register : Msg → Bool
  | .drst _ => true | .tlbinv _ => true | .lcinv _ => true | .kret _ => true | .kload _ => true | .fxopGive _ => true
  | .fxopTake _ => true | .fxbEnable _ => true | .rrdEnable _ _ => true | .rrdDisable _ _ => true | .rrdSetTpol _ _ => true
  | .kvwWrite _ _ => true | .preq _ => true | .gdbgHalt _ => true | .gdbgResume _ => true | .devnumWrite _ => true
  | .tailWrite _ _ => true | .rcrtEnable _ _ => true | .rcrtDisable _ _ => true | .pfailClear _ => true
  | .tableBaseWrite _ _ => true | .ringBaseWrite _ _ => true | .debugWindowWrite _ _ => true | .registerWrite _ _ => true
  | .registerRead _ => true
  | _ => false
/-- A request to the attestation mailbox (R473). -/
def Msg.spdm : Msg → Bool
  | .getVersion => true | .getCapabilities => true | .negotiateAlgorithms _ => true | .getDigests => true
  | .getCertificate _ _ _ => true | .challenge _ _ => true | .getMeasurements _ => true | .spdmUnsupported _ => true
  | _ => false
/-- A request of the fabric, or an access of the host to memory. -/
def Msg.request : Msg → Bool
  | .oreq _ => true | .ofwd _ => true | .olupd _ _ _ => true | .orsp _ => true | .oabs _ => true | .ocon _ => true
  | .regq _ _ _ _ => true | .rega _ _ _ _ _ => true | .malc _ _ _ _ _ _ _ => true | .mala _ _ => true
  | .mcpy _ _ _ _ _ _ _ => true | .mcpa _ _ => true | .regupd _ _ _ _ _ => true | .regack _ => true
  | .mact _ _ _ _ _ => true | .mrel _ _ _ => true | .pinv _ => true | .rdur _ _ => true | .rdura _ _ _ => true
  | .hostRead _ _ _ => true | .hostWrite _ _ _ => true | .bisnpAnswer _ _ _ => true | .podMapAdopt _ _ _ _ _ => true
  | _ => false
/-- A host access, a fabric request or a write to the control block: what wakes the device. -/
def Msg.wakes (m : Msg) : Bool := m.request || m.register || m.spdm

/-! ### Attestation (R473) -/

/-- What a device whose firmware failed verification still acts on: CXL.io, the mailbox, and losses of power. -/
def Msg.mailbox (m : Msg) : Bool :=
  m.register || m.spdm || match m with | .wholeDeviceReset _ => true | .thermalTrip => true | .modulePowerOn => true | _ => false

/-- An answer of the mailbox: the code of its request, and its contents. -/
def State.spdm (s : State) (code v : Nat) : State :=
  { s with host := { s.host with answers := s.host.answers ++ [(code, v)] } }

/-- Request codes of SPDM 1.2, and its code of the ERROR response with UnsupportedRequest (log entry 36). -/
def execGetVersion (s : State) : Out :=
  match s.msg with
  | some .getVersion => .next (s.spdm 0x84 (Config.spdmAnswer 0x84 0))
  | _ => .fault .noMessage
def execGetCapabilities (s : State) : Out :=
  match s.msg with
  | some .getCapabilities => .next (s.spdm 0xE1 (Config.spdmAnswer 0xE1 0))
  | _ => .fault .noMessage
def execNegotiateAlgorithms (s : State) : Out :=
  match s.msg with
  | some (.negotiateAlgorithms algs) => .next (s.spdm 0xE3 (Config.spdmAnswer 0xE3 algs))
  | _ => .fault .noMessage
def execGetDigests (s : State) : Out :=
  match s.msg with
  | some .getDigests => .next (s.spdm 0x81 (Config.spdmAnswer 0x81 0))
  | _ => .fault .noMessage
def execGetCertificate (s : State) : Out :=
  match s.msg with
  | some (.getCertificate slot off len) => .next (s.spdm 0x82 (Config.spdmAnswer 0x82 (slot + 256 * off + 2 ^ 24 * len)))
  | _ => .fault .noMessage
def execChallenge (s : State) : Out :=
  match s.msg with
  | some (.challenge slot nonce) => .next (s.spdm 0x83 (Config.spdmAnswer 0x83 (slot + 256 * nonce)))
  | _ => .fault .noMessage
/-- GET_MEASUREMENTS: the digest recorded in a slot. -/
def execGetMeasurements (s : State) : Out :=
  match s.msg with
  | some (.getMeasurements idx) => .next (s.spdm 0xE0 (s.host.meas.getD idx 0))
  | _ => .fault .noMessage
/-- Any other request: ERROR, UnsupportedRequest. -/
def execSpdmUnsupported (s : State) : Out :=
  match s.msg with
  | some (.spdmUnsupported code) => .next (s.spdm 0x7F (0x07 + 256 * code))
  | _ => .fault .noMessage

end Sys2Proof.Machine
end

