-- ==== Sys2Proof/Machine/SInt.lean ====
section
/-! DEFINITION. Scalar integer, constant and window instructions (R277 to R284). -/

namespace Sys2Proof.Machine

/-- SINT on type t (R278): operands, DIVZ, and the clamped or wrapped result. -/
def sPlan (op : IntOp) (x : RegOp) (g : Gang) (f : Frag) : Plan :=
  let w := isWide x.t
  let bw := w && !op.isShift
  let a := f.ur x.a
  let b := f.ur x.b
  let d := f.ur x.d
  let bs := if op.unary then [] else regs bw b
  let y : Int := if op.unary then 0
    else if op.isShift then ((g.u b % tWidth x.t : Nat) : Int) else tVal x.t (g.uw w b)
  { useU := regs w d ++ regs w a ++ bs, rdU := regs w a ++ bs, scalar := true
    cause := if op.divides && y == 0 then 2 ^ cDIVZ else 0
    wU := wUni w d (tOut x.t x.m.sat (op.exact x.t (tVal x.t (g.uw w a)) y)) }

def execSadd (x : RegOp) (s : State) : Out := regStep s (sPlan .add x)
def execSsub (x : RegOp) (s : State) : Out := regStep s (sPlan .sub x)
def execSmul (x : RegOp) (s : State) : Out := regStep s (sPlan .mul x)
def execSmulh (x : RegOp) (s : State) : Out := regStep s (sPlan .mulh x)
def execSdiv (x : RegOp) (s : State) : Out := regStep s (sPlan .div x)
def execSrem (x : RegOp) (s : State) : Out := regStep s (sPlan .rem x)
def execSand (x : RegOp) (s : State) : Out := regStep s (sPlan .and x)
def execSor (x : RegOp) (s : State) : Out := regStep s (sPlan .or x)
def execSxor (x : RegOp) (s : State) : Out := regStep s (sPlan .xor x)
def execSshl (x : RegOp) (s : State) : Out := regStep s (sPlan .shl x)
def execSshr (x : RegOp) (s : State) : Out := regStep s (sPlan .shr x)
def execSsra (x : RegOp) (s : State) : Out := regStep s (sPlan .sra x)
def execSmin (x : RegOp) (s : State) : Out := regStep s (sPlan .min x)
def execSmax (x : RegOp) (s : State) : Out := regStep s (sPlan .max x)
def execSclz (x : RegOp) (s : State) : Out := regStep s (sPlan .clz x)
def execSpopc (x : RegOp) (s : State) : Out := regStep s (sPlan .popc x)

/-- SCMP (R279). -/
def scmpPlan (x : CcOp) (g : Gang) (f : Frag) : Plan :=
  let w := isWide x.t
  let a := f.ur x.a
  let b := f.ur x.b
  { useU := f.ur x.d :: (regs w a ++ regs w b), rdU := regs w a ++ regs w b, scalar := true
    wU := [(f.ur x.d, if intCond x.cc (tVal x.t (g.uw w a)) (tVal x.t (g.uw w b)) then 1 else 0)] }
def execScmp (x : CcOp) (s : State) : Out := regStep s (scmpPlan x)

/-- SSEL (R280): the condition is one 32-bit register. -/
def sselPlan (x : RegOp) (g : Gang) (f : Frag) : Plan :=
  let w := isWide x.t
  let a := f.ur x.a
  let b := f.ur x.b
  let c := f.ur (op4Slot x.m x.d)
  { useU := regs w (f.ur x.d) ++ regs w a ++ regs w b ++ [c], rdU := regs w a ++ regs w b ++ [c], scalar := true
    wU := wUni w (f.ur x.d) (if g.u c ≠ 0 then g.uw w a else g.uw w b) }
def execSsel (x : RegOp) (s : State) : Out := regStep s (sselPlan x)

/-- SMOV (R280). -/
def smovPlan (x : RegOp) (g : Gang) (f : Frag) : Plan :=
  let w := isWide x.t
  { useU := regs w (f.ur x.d) ++ regs w (f.ur x.a), rdU := regs w (f.ur x.a), scalar := true
    wU := wUni w (f.ur x.d) (g.uw w (f.ur x.a)) }
def execSmov (x : RegOp) (s : State) : Out := regStep s (smovPlan x)

/-- SLEA (R281). -/
def sleaPlan (x : CcOp) (g : Gang) (f : Frag) : Plan :=
  let bw := isLong x.t
  let a := f.ur x.a
  let b := f.ur x.b
  { useU := regs true (f.ur x.d) ++ regs true a ++ regs bw b, rdU := regs true a ++ regs bw b, scalar := true
    wU := wUni true (f.ur x.d) (wrapN 64 ((g.up a : Int) + extIndex x.t (g.uw bw b) * (2 ^ x.cc : Nat))) }
def execSlea (x : CcOp) (s : State) : Out := regStep s (sleaPlan x)

/-- SINTI (R282): the immediate in place of the second operand, on a fixed type. -/
def siPlan (op : IntOp) (t : Nat) (x : ImmOp) (g : Gang) (f : Frag) : Plan :=
  let w := isWide t
  let a := f.ur x.a
  { useU := regs w (f.ur x.d) ++ regs w a, rdU := regs w a, scalar := true
    wU := wUni w (f.ur x.d) (tOut t x.m.sat (op.exact t (tVal t (g.uw w a)) x.imm)) }
def execSaddS32Imm (x : ImmOp) (s : State) : Out := regStep s (siPlan .add 0 x)
def execSmulS32Imm (x : ImmOp) (s : State) : Out := regStep s (siPlan .mul 0 x)
def execSandS32Imm (x : ImmOp) (s : State) : Out := regStep s (siPlan .and 0 x)
def execSorS32Imm (x : ImmOp) (s : State) : Out := regStep s (siPlan .or 0 x)
def execSxorS32Imm (x : ImmOp) (s : State) : Out := regStep s (siPlan .xor 0 x)
def execSshlS32Imm (x : ImmOp) (s : State) : Out := regStep s (siPlan .shl 0 x)
def execSshrS32Imm (x : ImmOp) (s : State) : Out := regStep s (siPlan .shr 0 x)
def execSsraS32Imm (x : ImmOp) (s : State) : Out := regStep s (siPlan .sra 0 x)
def execSminS32Imm (x : ImmOp) (s : State) : Out := regStep s (siPlan .min 0 x)
def execSmaxS32Imm (x : ImmOp) (s : State) : Out := regStep s (siPlan .max 0 x)
def execSminN32Imm (x : ImmOp) (s : State) : Out := regStep s (siPlan .min 1 x)
def execSmaxN32Imm (x : ImmOp) (s : State) : Out := regStep s (siPlan .max 1 x)
def execSaddS64Imm (x : ImmOp) (s : State) : Out := regStep s (siPlan .add 2 x)

/-- SCMP with an immediate (R279, R282): EQ compares the low 32 bits. -/
def siCmpPlan (eq : Bool) (t : Nat) (x : ImmOp) (g : Gang) (f : Frag) : Plan :=
  let a := f.ur x.a
  { useU := [f.ur x.d, a], rdU := [a], scalar := true
    wU := [(f.ur x.d, if (if eq then g.u a == wrapN 32 x.imm else decide (tVal t (g.u a) < x.imm)) then 1 else 0)] }
def execScmpEqS32Imm (x : ImmOp) (s : State) : Out := regStep s (siCmpPlan true 0 x)
def execScmpLtS32Imm (x : ImmOp) (s : State) : Out := regStep s (siCmpPlan false 0 x)
def execScmpLtN32Imm (x : ImmOp) (s : State) : Out := regStep s (siCmpPlan false 1 x)

/-- SLI (R283). -/
def sliPlan (x : SliOp) (_ : Gang) (f : Frag) : Plan :=
  { useU := regs x.w64 (f.ur x.d), scalar := true
    wU := wUni x.w64 (f.ur x.d) (wrapN (if x.w64 then 64 else 32) x.imm) }
def execSli (x : SliOp) (s : State) : Out := regStep s (sliPlan x)

/-- SETXV and SETXS (R284): the limit is the whole allotment in handler mode. -/
def setWindow (s : State) (vec : Bool) (base : Nat) : Out :=
  withIssue s fun i g f =>
    if g.badW then .next (s.killGang i.key rUREG i.pc)
    else if g.chk && (s.core (coreOf i.key)).slBad then .next (s.killGang i.key rSCALAR i.pc)
    else if (if vec then g.vLim else g.uLim) ≤ base then .next (s.trap i (2 ^ cBOUNDS) none)
    else
      let f' := if vec then { f with xv := base } else { f with xs := base }
      .next (s.finish i { g with frags := g.frags.set i.frag f' })
def execSetxv (base : Nat) (s : State) : Out := setWindow s true base
def execSetxs (base : Nat) (s : State) : Out := setWindow s false base

/-- RDX (R284). -/
def rdxPlan (d k n : Nat) (g : Gang) (f : Frag) : Plan :=
  { useU := [f.ur d], scalar := true
    wU := wUni false (f.ur d) (match k with | 0 => f.xv | 1 => f.xs | 2 => n | 3 => g.av | _ => g.asz) }
def execRdx (d k : Nat) (s : State) : Out :=
  regStep s (rdxPlan d k (match s.issue with | some i => i.frag | none => 0))

end Sys2Proof.Machine
end

