-- ==== Sys2Proof/Machine/VFlt.lean ====
section
/-! DEFINITION. Floating point, special functions and conversions, vector and scalar (R296 to R314). -/

namespace Sys2Proof.Machine

/-- The value positions of a VFLT type: format and bit offset (R298, R232). -/
def vfParts (t : Nat) : List (Fmt × Nat) :=
  match t with
  | 0 => [(f32, 0)]
  | 1 => [(f64, 0)]
  | 2 => [(f16, 0), (f16, 16)]
  | _ => [(bf16, 0), (bf16, 16)]

/-- One lane of a VFLT form: each value position computed by itself, flags ORed (R296, R299). -/
def vfLane (t : Nat) (op : Fmt → Nat → Nat → Nat → Flagged) (a b c : Nat) : Flagged :=
  (vfParts t).foldl (fun acc p =>
    let g (x : Nat) := fld x p.2 p.1.width
    let r := op p.1 (g a) (g b) (g c)
    (acc.1 + r.1 * 2 ^ p.2, acc.2 ||| r.2)) (0, 0)

/-- A VFLT plan over results and flags per lane: `bw` and `cw` say whether b and c are pairs, `useB`, `useC` whether they
are read, `dw` the destination. -/
def fPlan (x : RegOp) (aw bw dw useB useC : Bool) (g : Gang) (f : Frag) (op : Nat → Nat → Nat → Flagged) : Plan :=
  let a := f.vr x.a
  let b := f.vr x.b
  let c := f.vr (op4Slot x.m x.d)
  let rd := regs aw a ++ (if useB then regs bw b else []) ++ (if useC then regs aw c else [])
  let r (l : Nat) := op (g.vw aw a l) (g.vw bw b l) (g.vw aw c l)
  { useV := regs dw (f.vr x.d) ++ rd, rdV := rd, rdM := modxMasks x.m, rdLanes := g.act f x.m
    flags := orAll ((laneList (g.act f x.m)).map (fun l => (r l).2))
    wV := wVec g f x.m dw (f.vr x.d) (fun l => (r l).1) }

/-- The rounding mode of an instruction of this gang (R234). -/
def Gang.rm (g : Gang) (m : Modx) : Rm := rmOf m.rnd g.fpctl

def vf2 (x : RegOp) (g : Gang) (f : Frag) (op : Fmt → Rm → Bool → Nat → Nat → Flagged) : Plan :=
  fPlan x (isF64 x.t) (isF64 x.t) (isF64 x.t) true false g f
    (fun a b c => vfLane x.t (fun fm p q _ => op fm (g.rm x.m) x.m.sat p q) a b c)
def vf3 (x : RegOp) (np nc : Bool) (g : Gang) (f : Frag) : Plan :=
  fPlan x (isF64 x.t) (isF64 x.t) (isF64 x.t) true true g f
    (fun a b c => vfLane x.t (fun fm p q r => fma fm (g.rm x.m) x.m.sat np nc p q r) a b c)
def vf1 (x : RegOp) (g : Gang) (f : Frag) (op : Fmt → Nat → Flagged) : Plan :=
  fPlan x (isF64 x.t) false (isF64 x.t) false false g f (fun a b c => vfLane x.t (fun fm p _ _ => op fm p) a b c)

def execVfadd (x : RegOp) (s : State) : Out := regStep s (fun g f => vf2 x g f (fun fm m sat => fadd fm m sat false))
def execVfsub (x : RegOp) (s : State) : Out := regStep s (fun g f => vf2 x g f (fun fm m sat => fadd fm m sat true))
def execVfmul (x : RegOp) (s : State) : Out := regStep s (fun g f => vf2 x g f fmul)
def execVffma (x : RegOp) (s : State) : Out := regStep s (vf3 x false false)
def execVffms (x : RegOp) (s : State) : Out := regStep s (vf3 x false true)
def execVfnfma (x : RegOp) (s : State) : Out := regStep s (vf3 x true false)
def execVfmin (x : RegOp) (s : State) : Out := regStep s (fun g f => vf2 x g f (fun fm _ _ => fminmax fm false))
def execVfmax (x : RegOp) (s : State) : Out := regStep s (fun g f => vf2 x g f (fun fm _ _ => fminmax fm true))
def execVfdiv (x : RegOp) (s : State) : Out := regStep s (fun g f => vf2 x g f fdiv)
def execVfsqrt (x : RegOp) (s : State) : Out := regStep s (fun g f => vf1 x g f (fun fm a => fsqrt fm (g.rm x.m) x.m.sat a))

/-- The sign-bit forms (R300). -/
def signOf (fm : Fmt) (a : Nat) : Nat := a / 2 ^ (fm.width - 1) % 2 * 2 ^ (fm.width - 1)
def execVfabs (x : RegOp) (s : State) : Out :=
  regStep s (fun g f => vf1 x g f (fun fm a => (a % 2 ^ (fm.width - 1), 0)))
def execVfneg (x : RegOp) (s : State) : Out :=
  regStep s (fun g f => vf1 x g f (fun fm a => (a ^^^ 2 ^ (fm.width - 1), 0)))
def execVfsgn (x : RegOp) (s : State) : Out :=
  regStep s (fun g f => vf2 x g f (fun fm _ _ a b => (a % 2 ^ (fm.width - 1) + signOf fm b, 0)))

/-- VFCLASS (R301): one 32-bit result. -/
def execVfclass (x : RegOp) (s : State) : Out :=
  regStep s (fun g f => fPlan x (isF64 x.t) false false false false g f
    (fun a _ _ => (fclass (if isF64 x.t then f64 else f32) a, 0)))
/-- VFLDX (R302): b is one S32 register. -/
def execVfldx (x : RegOp) (s : State) : Out :=
  regStep s (fun g f => fPlan x (isF64 x.t) false (isF64 x.t) true false g f
    (fun a b _ => fldx (if isF64 x.t then f64 else f32) (g.rm x.m) x.m.sat a (sextN 32 b)))

/-! ### Scalar floating point (R303 to R305) -/

/-- An SFLT plan. -/
def sfPlan (x : RegOp) (useC : Bool) (g : Gang) (f : Frag) (op : Fmt → Nat → Nat → Nat → Flagged) : Plan :=
  let w := isF64 x.t
  let a := f.ur x.a
  let b := f.ur x.b
  let c := f.ur (op4Slot x.m x.d)
  let rd := regs w a ++ regs w b ++ (if useC then regs w c else [])
  let r := op (if w then f64 else f32) (g.uw w a) (g.uw w b) (g.uw w c)
  { useU := regs w (f.ur x.d) ++ rd, rdU := rd, scalar := true, flags := r.2, wU := wUni w (f.ur x.d) r.1 }
def execSfadd (x : RegOp) (s : State) : Out :=
  regStep s (fun g f => sfPlan x false g f (fun fm a b _ => fadd fm (g.rm x.m) x.m.sat false a b))
def execSfmul (x : RegOp) (s : State) : Out :=
  regStep s (fun g f => sfPlan x false g f (fun fm a b _ => fmul fm (g.rm x.m) x.m.sat a b))
def execSffma (x : RegOp) (s : State) : Out :=
  regStep s (fun g f => sfPlan x true g f (fun fm a b c => fma fm (g.rm x.m) x.m.sat false false a b c))

def sfcmpPlan (x : CcOp) (g : Gang) (f : Frag) : Plan :=
  let w := isF64 x.t
  let a := f.ur x.a
  let b := f.ur x.b
  let r := fcmp (if w then f64 else f32) x.cc (g.uw w a) (g.uw w b)
  { useU := f.ur x.d :: (regs w a ++ regs w b), rdU := regs w a ++ regs w b, scalar := true
    flags := r.2, wU := [(f.ur x.d, if r.1 then 1 else 0)] }
def execSfcmp (x : CcOp) (s : State) : Out := regStep s (sfcmpPlan x)

/-! ### Conversions (R310 to R314) -/

/-- Register type codes of R310. -/
def regTy (c : Nat) : NumTy :=
  match c with
  | 0 => .flt f64
  | 1 => .flt f32
  | 2 => .flt f16
  | 3 => .flt bf16
  | 4 => .int true 32
  | 5 => .int false 32
  | 6 => .int true 64
  | _ => .int false 64
/-- Narrow format codes of R310. -/
def narrowTy (c : Nat) : NumTy :=
  match c with
  | 0 => .flt f16
  | 1 => .flt bf16
  | 2 => .flt e4m3
  | 3 => .flt e5m2
  | 4 => .int true 8
  | 5 => .int false 8
  | 6 => .int true 16
  | _ => .int false 16

/-- A register value as a pattern of its type: the low bits (R311). -/
def lowBits (t : NumTy) (w : Nat) : Nat := w % 2 ^ t.width

/-- SFCVT (R303): VCVT of one value on uniform registers. -/
def sfcvtPlan (x : CvtOp) (g : Gang) (f : Frag) : Plan :=
  let dw := isWideCode x.x
  let aw := isWideCode x.y
  let r := cvt (regTy x.y) (regTy x.x) (g.rm x.m) x.m.sat (f8ov g.fpctl) (lowBits (regTy x.y) (g.uw aw (f.ur x.a)))
  { useU := regs dw (f.ur x.d) ++ regs aw (f.ur x.a), rdU := regs aw (f.ur x.a), scalar := true
    flags := r.2, wU := wUni dw (f.ur x.d) r.1 }
def execSfcvt (x : CvtOp) (s : State) : Out := regStep s (sfcvtPlan x)

/-- A conversion plan over lanes. -/
def cvPlan (x : CvtOp) (dw : Bool) (rd : List Nat) (g : Gang) (f : Frag) (r : Nat → Flagged) : Plan :=
  { useV := regs dw (f.vr x.d) ++ rd, rdV := rd, rdM := modxMasks x.m, rdLanes := g.act f x.m
    flags := orAll ((laneList (g.act f x.m)).map (fun l => (r l).2))
    wV := wVec g f x.m dw (f.vr x.d) (fun l => (r l).1) }

/-- VCVT (R311). -/
def execVcvt (x : CvtOp) (s : State) : Out :=
  regStep s (fun g f =>
    let aw := isWideCode x.y
    cvPlan x (isWideCode x.x) (regs aw (f.vr x.a)) g f (fun l =>
      cvt (regTy x.y) (regTy x.x) (g.rm x.m) x.m.sat (f8ov g.fpctl) (lowBits (regTy x.y) (g.vw aw (f.vr x.a) l))))

/-- VPACK (R312). -/
def execVpack (x : CvtOp) (s : State) : Out :=
  regStep s (fun g f =>
    let t := narrowTy x.x
    let src : NumTy := if t.isInt then .int true 32 else .flt f32
    let one (v : Nat) := cvt src t (g.rm x.m) x.m.sat (f8ov g.fpctl) v
    let byte := t.width == 8
    cvPlan x false ([f.vr x.a, f.vr x.b] ++ if byte then [f.vr x.d] else []) g f (fun l =>
      let p := one (g.v (f.vr x.a) l)
      let q := one (g.v (f.vr x.b) l)
      if byte then
        let old := g.v (f.vr x.d) l
        (linePut (linePut old (2 * x.y) 1 p.1) (2 * x.y + 1) 1 q.1, p.2 ||| q.2)
      else (p.1 + 2 ^ 16 * q.1, p.2 ||| q.2)))

/-- VUNPK (R313). -/
def execVunpk (x : CvtOp) (s : State) : Out :=
  regStep s (fun g f =>
    let t := narrowTy x.x
    let dst : NumTy := if t.isInt then .int true 32 else .flt f32
    cvPlan x false [f.vr x.a] g f (fun l =>
      cvt t dst .rne false false (fld (g.v (f.vr x.a) l) (t.width * x.y) t.width)))

/-- VDEQ (R314). -/
def execVdeq (x : CvtOp) (s : State) : Out :=
  regStep s (fun g f =>
    let c := f.vr (op4Slot x.m x.d)
    cvPlan x false [f.vr x.a, f.vr x.b, c] g f (fun l =>
      gq4Deq (g.rm x.m) (fld (g.v (f.vr x.a) l) (4 * x.y) 4) (g.v (f.vr x.b) l % 256) (g.v c l)))

/-! ### Special functions (R307 to R309) -/

/-- A one-operand special function with fixed RNE (R308). -/
def sfuPlan (m : Modx) (w : Bool) (d a : Nat) (g : Gang) (f : Frag) (op : Nat → Flagged) : Plan :=
  let r (l : Nat) := op (g.vw w (f.vr a) l)
  { useV := regs w (f.vr d) ++ regs w (f.vr a), rdV := regs w (f.vr a), rdM := modxMasks m, rdLanes := g.act f m
    flags := orAll ((laneList (g.act f m)).map (fun l => (r l).2))
    wV := wVec g f m w (f.vr d) (fun l => (r l).1) }
def execVlg2 (x : MskOp) (s : State) : Out := regStep s (fun g f => sfuPlan x.m false x.d x.a g f flg2)
def execVrcp (x : RegOp) (s : State) : Out :=
  regStep s (fun g f => sfuPlan x.m (isF64 x.t) x.d x.a g f (frcp (if isF64 x.t then f64 else f32)))
def execVrsq (x : RegOp) (s : State) : Out :=
  regStep s (fun g f => sfuPlan x.m (isF64 x.t) x.d x.a g f (frsq (if isF64 x.t then f64 else f32)))
def execVsin (x : MskOp) (s : State) : Out := regStep s (fun g f => sfuPlan x.m false x.d x.a g f (fsincos false))
def execVcos (x : MskOp) (s : State) : Out := regStep s (fun g f => sfuPlan x.m false x.d x.a g f (fsincos true))

/-- A signalling NaN (R230). -/
def isSnan (fm : Fmt) (w : Nat) : Bool := match fm.unpack w with | .nan s => s | _ => false

/-- VEX2S (R309): b is a uniform register, c the fourth operand; NV for a signalling operand. -/
def vex2sPlan (x : MskOp) (g : Gang) (f : Frag) : Plan :=
  let c := f.vr (op4Slot x.m x.d)
  let sc := g.u (f.ur x.b)
  let nv (l : Nat) : Nat :=
    if isSnan f32 (g.v (f.vr x.a) l) || isSnan f32 sc || isSnan f32 (g.v c l) then fNV else 0
  { useV := [f.vr x.d, f.vr x.a, c], useU := [f.ur x.b], rdV := [f.vr x.a, c], rdU := [f.ur x.b]
    rdM := modxMasks x.m, rdLanes := g.act f x.m
    flags := orAll ((laneList (g.act f x.m)).map nv)
    wV := wVec g f x.m false (f.vr x.d) (fun l => exp2s (g.v (f.vr x.a) l) sc (g.v c l)) }
def execVex2s (x : MskOp) (s : State) : Out := regStep s (vex2sPlan x)

end Sys2Proof.Machine
end

