-- ==== Sys2Proof/Machine/VInt.lean ====
section
/-! DEFINITION. Vector integer and address instructions (R285 to R290). -/

namespace Sys2Proof.Machine

/-- VINT on type t (R286): `sat` also for the forms that always saturate. -/
def vPlan (op : IntOp) (alwaysSat : Bool) (x : RegOp) (g : Gang) (f : Frag) : Plan :=
  let w := isWide x.t
  let bw := w && !op.isShift
  let a := f.vr x.a
  let b := f.vr x.b
  let d := f.vr x.d
  let bs := if op.unary then [] else regs bw b
  let y (l : Nat) : Int := if op.unary then 0
    else if op.isShift then ((g.v b l % tWidth x.t : Nat) : Int) else tVal x.t (g.vw w b l)
  { useV := regs w d ++ regs w a ++ bs, rdV := regs w a ++ bs, rdM := modxMasks x.m, rdLanes := g.act f x.m
    cause := if op.divides && (laneList (g.act f x.m)).any (fun l => y l == 0) then 2 ^ cDIVZ else 0
    wV := wVec g f x.m w d (fun l => tOut x.t (alwaysSat || x.m.sat) (op.exact x.t (tVal x.t (g.vw w a l)) (y l))) }

def execVadd (x : RegOp) (s : State) : Out := regStep s (vPlan .add false x)
def execVsub (x : RegOp) (s : State) : Out := regStep s (vPlan .sub false x)
def execVmul (x : RegOp) (s : State) : Out := regStep s (vPlan .mul false x)
def execVmulh (x : RegOp) (s : State) : Out := regStep s (vPlan .mulh false x)
def execVdiv (x : RegOp) (s : State) : Out := regStep s (vPlan .div false x)
def execVrem (x : RegOp) (s : State) : Out := regStep s (vPlan .rem false x)
def execVadds (x : RegOp) (s : State) : Out := regStep s (vPlan .add true x)
def execVsubs (x : RegOp) (s : State) : Out := regStep s (vPlan .sub true x)
def execVmin (x : RegOp) (s : State) : Out := regStep s (vPlan .min false x)
def execVmax (x : RegOp) (s : State) : Out := regStep s (vPlan .max false x)
def execVabs (x : RegOp) (s : State) : Out := regStep s (vPlan .abs false x)
def execVand (x : RegOp) (s : State) : Out := regStep s (vPlan .and false x)
def execVor (x : RegOp) (s : State) : Out := regStep s (vPlan .or false x)
def execVxor (x : RegOp) (s : State) : Out := regStep s (vPlan .xor false x)
def execVshl (x : RegOp) (s : State) : Out := regStep s (vPlan .shl false x)
def execVshr (x : RegOp) (s : State) : Out := regStep s (vPlan .shr false x)
def execVsra (x : RegOp) (s : State) : Out := regStep s (vPlan .sra false x)
def execVclz (x : RegOp) (s : State) : Out := regStep s (vPlan .clz false x)
def execVpopc (x : RegOp) (s : State) : Out := regStep s (vPlan .popc false x)

/-- VMAD (R287): x × y + z with z the fourth operand. -/
def vmadPlan (x : RegOp) (g : Gang) (f : Frag) : Plan :=
  let w := isWide x.t
  let a := f.vr x.a
  let b := f.vr x.b
  let c := f.vr (op4Slot x.m x.d)
  let rd := regs w a ++ regs w b ++ regs w c
  { useV := regs w (f.vr x.d) ++ rd, rdV := rd, rdM := modxMasks x.m, rdLanes := g.act f x.m
    wV := wVec g f x.m w (f.vr x.d) (fun l =>
      tOut x.t x.m.sat (tVal x.t (g.vw w a l) * tVal x.t (g.vw w b l) + tVal x.t (g.vw w c l))) }
def execVmad (x : RegOp) (s : State) : Out := regStep s (vmadPlan x)

/-- VLEA (R288): base + index × 2^j. -/
def vleaPlan (j : Nat) (m : Modx) (t d a b : Nat) (g : Gang) (f : Frag) : Plan :=
  let bw := isLong t
  let rd := regs true (f.vr a) ++ regs bw (f.vr b)
  { useV := regs true (f.vr d) ++ rd, rdV := rd, rdM := modxMasks m, rdLanes := g.act f m
    wV := wVec g f m true (f.vr d) (fun l =>
      wrapN 64 ((g.vp (f.vr a) l : Int) + extIndex t (g.vw bw (f.vr b) l) * (2 ^ j : Nat))) }
def execVlea (x : CcOp) (s : State) : Out := regStep s (vleaPlan x.cc x.m x.t x.d x.a x.b)
def execVleaX16 (x : RegOp) (s : State) : Out := regStep s (vleaPlan 4 x.m x.t x.d x.a x.b)

/-- One lane of VOFF (R289): the moved pointer, or the subcode it faults with. -/
def voffLane (p : Nat) (disp : Int) : Except Nat Nat :=
  if 128 ≤ fld p 56 8 ∨ fld p 36 20 = 0 then .error subBADPTR
  else
    let o := (fld p 0 36 : Int) + disp
    if o < 0 ∨ (2 ^ 36 : Nat) ≤ o then .error subRANGE else .ok (fld p 36 28 * 2 ^ 36 + o.toNat)

/-- VOFF (R289): any faulting lane faults the instruction. -/
def voffPlan (m : Modx) (d a : Nat) (bs : List Nat) (disp : Nat → Int) (g : Gang) (f : Frag) : Plan :=
  let av := f.vr a
  let lane (l : Nat) := voffLane (g.vp av l) (disp l)
  let bad := (laneList (g.act f m)).filterMap (fun l =>
    match lane l with | .error sub => some (g.vp av l, l, sub, 0, 0) | .ok _ => none)
  { useV := regs true (f.vr d) ++ regs true av ++ bs, rdV := regs true av ++ bs, rdM := modxMasks m, rdLanes := g.act f m
    cause := if bad.isEmpty then 0 else 2 ^ cOBJF
    entries := bad
    wV := wVec g f m true (f.vr d) (fun l => match lane l with | .ok r => r | .error _ => 0) }
def execVoff (x : RegOp) (s : State) : Out :=
  regStep s (fun g f => voffPlan x.m x.d x.a (regs (isLong x.t) (f.vr x.b))
    (fun l => extIndex x.t (g.vw (isLong x.t) (f.vr x.b) l)) g f)

/-- VINTI (R290). -/
def viPlan (op : IntOp) (t : Nat) (alwaysSat : Bool) (x : ImmOp) (g : Gang) (f : Frag) : Plan :=
  let w := isWide t
  let a := f.vr x.a
  { useV := regs w (f.vr x.d) ++ regs w a, rdV := regs w a, rdM := modxMasks x.m, rdLanes := g.act f x.m
    wV := wVec g f x.m w (f.vr x.d) (fun l => tOut t (alwaysSat || x.m.sat) (op.exact t (tVal t (g.vw w a l)) x.imm)) }
def execVaddS32Imm (x : ImmOp) (s : State) : Out := regStep s (viPlan .add 0 false x)
def execVmulS32Imm (x : ImmOp) (s : State) : Out := regStep s (viPlan .mul 0 false x)
def execVandS32Imm (x : ImmOp) (s : State) : Out := regStep s (viPlan .and 0 false x)
def execVorS32Imm (x : ImmOp) (s : State) : Out := regStep s (viPlan .or 0 false x)
def execVxorS32Imm (x : ImmOp) (s : State) : Out := regStep s (viPlan .xor 0 false x)
def execVshlS32Imm (x : ImmOp) (s : State) : Out := regStep s (viPlan .shl 0 false x)
def execVshrS32Imm (x : ImmOp) (s : State) : Out := regStep s (viPlan .shr 0 false x)
def execVsraS32Imm (x : ImmOp) (s : State) : Out := regStep s (viPlan .sra 0 false x)
def execVminS32Imm (x : ImmOp) (s : State) : Out := regStep s (viPlan .min 0 false x)
def execVmaxS32Imm (x : ImmOp) (s : State) : Out := regStep s (viPlan .max 0 false x)
def execVminN32Imm (x : ImmOp) (s : State) : Out := regStep s (viPlan .min 1 false x)
def execVmaxN32Imm (x : ImmOp) (s : State) : Out := regStep s (viPlan .max 1 false x)
def execVaddsS32Imm (x : ImmOp) (s : State) : Out := regStep s (viPlan .add 0 true x)
def execVaddsN32Imm (x : ImmOp) (s : State) : Out := regStep s (viPlan .add 1 true x)
def execVaddS64Imm (x : ImmOp) (s : State) : Out := regStep s (viPlan .add 2 false x)
def execVoffS64Imm (x : ImmOp) (s : State) : Out :=
  regStep s (fun g f => voffPlan x.m x.d x.a [] (fun _ => x.imm) g f)

end Sys2Proof.Machine
end

