-- ==== Sys2Proof/Machine/VMsk.lean ====
section
/-! DEFINITION. Mask registers, moves, VGET and VPUT, and compares into masks (R291 to R295, R305, R306). -/

namespace Sys2Proof.Machine

/-- A mask-writing form (R292). -/
def mPlan (x : MskOp) (rdU rdV rdM : List Nat) (g : Gang) (f : Frag) (b : Nat → Bool) : Plan :=
  { useU := rdU, useV := rdV, rdU := rdU, rdV := rdV, rdM := rdM ++ modxMasks x.m ++ [x.d], rdLanes := g.act f x.m, masks := true
    wM := [(x.d, maskWrite g f x.m x.d b)] }
def execMand (x : MskOp) (s : State) : Out :=
  regStep s (fun g f => mPlan x [] [] [x.a, x.b] g f (fun l => bit (g.mask f x.a) l && bit (g.mask f x.b) l))
def execMor (x : MskOp) (s : State) : Out :=
  regStep s (fun g f => mPlan x [] [] [x.a, x.b] g f (fun l => bit (g.mask f x.a) l || bit (g.mask f x.b) l))
def execMxor (x : MskOp) (s : State) : Out :=
  regStep s (fun g f => mPlan x [] [] [x.a, x.b] g f (fun l => bit (g.mask f x.a) l != bit (g.mask f x.b) l))
def execMnot (x : MskOp) (s : State) : Out :=
  regStep s (fun g f => mPlan x [] [] [x.a] g f (fun l => !bit (g.mask f x.a) l))
def execMmovMm (x : MskOp) (s : State) : Out :=
  regStep s (fun g f => mPlan x [] [] [x.a] g f (fun l => bit (g.mask f x.a) l))
def execMmovMs (x : MskOp) (s : State) : Out :=
  regStep s (fun g f => mPlan x [f.ur x.a] [] [] g f (fun l => bit (g.u (f.ur x.a)) l))
def execMset (x : MskOp) (s : State) : Out :=
  regStep s (fun g f => mPlan x [] [f.vr x.a] [] g f (fun l => g.v (f.vr x.a) l != 0))

/-- A uniform result of masks (R293). -/
def muPlan (x : MskOp) (rdM : List Nat) (g : Gang) (f : Frag) (v : Nat) : Plan :=
  { useU := [f.ur x.d], rdM := rdM ++ modxMasks x.m, rdLanes := g.act f x.m, masks := true
    wU := wUni false (f.ur x.d) v }
def execMmovSm (x : MskOp) (s : State) : Out :=
  regStep s (fun g f => muPlan x [x.a] g f (g.mask f x.a &&& g.act f x.m))
def execMcnt (x : MskOp) (s : State) : Out :=
  regStep s (fun g f => muPlan x [x.a, x.b] g f (laneCount (g.mask f x.a &&& g.mask f x.b &&& g.act f x.m)))
def execMffs (x : MskOp) (s : State) : Out :=
  regStep s (fun g f => muPlan x [x.a, x.b] g f
    ((laneList (g.mask f x.a &&& g.mask f x.b &&& g.act f x.m)).headD 32))

/-- A move into the lanes of act (R294). -/
def movPlan (x : MskOp) (w : Bool) (rdV rdU : List Nat) (g : Gang) (f : Frag) (r : Nat → Nat) : Plan :=
  { useV := regs w (f.vr x.d) ++ rdV, useU := rdU, rdV := rdV, rdU := rdU, rdM := modxMasks x.m, rdLanes := g.act f x.m
    wV := wVec g f x.m w (f.vr x.d) r }
def execVmovW32 (x : MskOp) (s : State) : Out :=
  regStep s (fun g f => movPlan x false [f.vr x.a] [] g f (fun l => g.v (f.vr x.a) l))
def execVmovW64 (x : MskOp) (s : State) : Out :=
  regStep s (fun g f => movPlan x true (regs true (f.vr x.a)) [] g f (fun l => g.vp (f.vr x.a) l))
def execVbcstW32 (x : MskOp) (s : State) : Out :=
  regStep s (fun g f => movPlan x false [] [f.ur x.a] g f (fun _ => g.u (f.ur x.a)))
def execVbcstW64 (x : MskOp) (s : State) : Out :=
  regStep s (fun g f => movPlan x true [] (regs true (f.ur x.a)) g f (fun _ => g.up (f.ur x.a)))
def execVlane (x : MskOp) (s : State) : Out := regStep s (fun g f => movPlan x false [] [] g f (fun l => l))

/-- VSEL (R294): the condition is the fourth operand. -/
def vselPlan (w : Bool) (x : MskOp) (g : Gang) (f : Frag) : Plan :=
  let c := f.vr (op4Slot x.m x.d)
  movPlan x w (regs w (f.vr x.a) ++ regs w (f.vr x.b) ++ regs w c) [] g f
    (fun l => if g.vw w c l ≠ 0 then g.vw w (f.vr x.a) l else g.vw w (f.vr x.b) l)
def execVselW32 (x : MskOp) (s : State) : Out := regStep s (vselPlan false x)
def execVselW64 (x : MskOp) (s : State) : Out := regStep s (vselPlan true x)

/-- VGET (R295): any live lane may be read; a dead one gives 0 and sets DEADSRC. -/
def vgetPlan (w : Bool) (x : MskOp) (g : Gang) (f : Frag) : Plan :=
  let l := g.u (f.ur x.b) % 32
  let ok := bit g.live l
  { useU := regs w (f.ur x.d) ++ [f.ur x.b], useV := regs w (f.vr x.a), rdU := [f.ur x.b]
    rdV := regs w (f.vr x.a), rdLanes := if ok then 2 ^ l else 0
    deadsrc := !ok, wU := wUni w (f.ur x.d) (if ok then g.vw w (f.vr x.a) l else 0) }
def execVgetW32 (x : MskOp) (s : State) : Out := regStep s (vgetPlan false x)
def execVgetW64 (x : MskOp) (s : State) : Out := regStep s (vgetPlan true x)

/-- VPUT (R295): writes lane S(b) mod 32 when it is in act; MZ zeroes the other lanes of active. -/
def vputPlan (w : Bool) (x : MskOp) (g : Gang) (f : Frag) : Plan :=
  let l := g.u (f.ur x.b) % 32
  let d := f.vr x.d
  let ok := bit (g.act f x.m) l
  { useV := regs w d, useU := regs w (f.ur x.a) ++ [f.ur x.b], rdU := regs w (f.ur x.a) ++ [f.ur x.b]
    rdM := modxMasks x.m, rdLanes := if ok then 2 ^ l else 0
    wV := (if ok then wLane w d l (g.uw w (f.ur x.a)) else [])
      ++ (if x.m.mz then (laneList (andNot (g.active f) (if ok then 2 ^ l else 0))).flatMap (fun j => wLane w d j 0) else []) }
def execVputW32 (x : MskOp) (s : State) : Out := regStep s (vputPlan false x)
def execVputW64 (x : MskOp) (s : State) : Out := regStep s (vputPlan true x)

/-- A compare into a mask register (R306). -/
def vcmpPlan (x : CcOp) (w : Bool) (g : Gang) (f : Frag) (c : Nat → Nat → Bool × Nat) : Plan :=
  let a := f.vr x.a
  let b := f.vr x.b
  let r (l : Nat) := c (g.vw w a l) (g.vw w b l)
  { useV := regs w a ++ regs w b, rdV := regs w a ++ regs w b, rdM := modxMasks x.m ++ [x.d], rdLanes := g.act f x.m
    flags := orAll ((laneList (g.act f x.m)).map (fun l => (r l).2))
    wM := [(x.d, maskWrite g f x.m x.d (fun l => (r l).1))] }
def execVcmp (x : CcOp) (s : State) : Out :=
  regStep s (fun g f => vcmpPlan x (isWide x.t) g f (fun a b => (intCond x.cc (tVal x.t a) (tVal x.t b), 0)))
def execVfcmp (x : CcOp) (s : State) : Out :=
  regStep s (fun g f => vcmpPlan x (isF64 x.t) g f (fcmp (if isF64 x.t then f64 else f32) x.cc))

end Sys2Proof.Machine
end

