-- ==== Sys2Proof/Machine/VXl.lean ====
section
/-! DEFINITION. Cross-lane instructions (R315 to R319). -/

namespace Sys2Proof.Machine

/-- A shuffle (R316): any live source lane is read; a dead one gives 0 and sets DEADSRC. -/
def shufPlan (x : RegOp) (vecB : Bool) (g : Gang) (f : Frag) (src : Nat → Nat) : Plan :=
  let w := isF64 x.t
  let a := f.vr x.a
  let act := laneList (g.act f x.m)
  let live (l : Nat) := bit g.live (src l)
  { useV := regs w (f.vr x.d) ++ regs w a ++ (if vecB then [f.vr x.b] else [])
    useU := if vecB then [] else [f.ur x.b]
    rdU := if vecB then [] else [f.ur x.b]
    rdV := if vecB then [f.vr x.b] else []
    rdM := modxMasks x.m
    rdLanes := g.act f x.m
    rdX := (act.filter live).flatMap (fun l => (regs w a).map (fun n => (l, n, src l)))
    deadsrc := act.any (fun l => !live l)
    wV := wVec g f x.m w (f.vr x.d) (fun l => if live l then g.vw w a (src l) else 0) }
def execVshf (x : RegOp) (s : State) : Out :=
  regStep s (fun g f => shufPlan x true g f (fun l => g.v (f.vr x.b) l % 32))
def execVshfu (x : RegOp) (s : State) : Out :=
  regStep s (fun g f => shufPlan x false g f (fun l => let k := g.u (f.ur x.b) % 32; if l < k then l else l - k))
def execVshfd (x : RegOp) (s : State) : Out :=
  regStep s (fun g f => shufPlan x false g f (fun l => let k := g.u (f.ur x.b) % 32; if 31 < l + k then l else l + k))
def execVshfx (x : RegOp) (s : State) : Out :=
  regStep s (fun g f => shufPlan x false g f (fun l => (l ^^^ (g.u (f.ur x.b) % 32)) % 32))

/-- A vote (R317) over the present lanes and those of them with the predicate. -/
def votePlan (x : MskOp) (g : Gang) (f : Frag) (r : Nat → Nat → Nat) : Plan :=
  let act := g.act f x.m
  let p := maskOfList ((laneList act).filter (fun l => g.v (f.vr x.a) l != 0))
  { useU := [f.ur x.d], useV := [f.vr x.a], rdV := [f.vr x.a], rdM := modxMasks x.m, rdLanes := act
    wU := wUni false (f.ur x.d) (r act p) }
def execVvoteAny (x : MskOp) (s : State) : Out :=
  regStep s (fun g f => votePlan x g f (fun _ p => if p ≠ 0 then 1 else 0))
def execVvoteAll (x : MskOp) (s : State) : Out :=
  regStep s (fun g f => votePlan x g f (fun act p => if p = act then 1 else 0))
def execVvoteUni (x : MskOp) (s : State) : Out :=
  regStep s (fun g f => votePlan x g f (fun act p => if p = act ∨ p = 0 then 1 else 0))
def execVvoteBal (x : MskOp) (s : State) : Out := regStep s (fun g f => votePlan x g f (fun _ p => p))
def execVvoteCnt (x : MskOp) (s : State) : Out := regStep s (fun g f => votePlan x g f (fun _ p => laneCount p))

/-- Reduction and scan operators. -/
inductive RedOp where
  | sum | min | max
  deriving DecidableEq, Repr

/-- One combination on a VXL type, with its flags (R318). -/
def RedOp.combine (op : RedOp) (t : Nat) (rm : Rm) (a b : Flagged) : Flagged :=
  if t = 4 ∨ t = 5 then
    let fm := if t = 5 then f64 else f32
    let r := match op with
      | .sum => fadd fm rm false false a.1 b.1
      | .min => fminmax fm false a.1 b.1
      | .max => fminmax fm true a.1 b.1
    (r.1, a.2 ||| b.2 ||| r.2)
  else
    (match op with
     | .sum => (a.1 + b.1) % 2 ^ tWidth t
     | .min => if tVal t a.1 ≤ tVal t b.1 then a.1 else b.1
     | .max => if tVal t a.1 ≤ tVal t b.1 then b.1 else a.1, 0)

/-- ident(op) of R249. -/
def RedOp.ident (op : RedOp) (t : Nat) : Nat :=
  match op with
  | .sum => 0
  | .min => if t = 4 then f32.infBits false else if t = 5 then f64.infBits false
    else wrapN (tWidth t) (intHi (tSigned t) (tWidth t))
  | .max => if t = 4 then f32.infBits true else if t = 5 then f64.infBits true
    else wrapN (tWidth t) (intLo (tSigned t) (tWidth t))

/-- The 32 operands, absent outside act. -/
def redInputs (x : RegOp) (g : Gang) (f : Frag) : List (Option Flagged) :=
  (List.range 32).map (fun l => if bit (g.act f x.m) l then some (g.vw (isWideXl x.t) (f.vr x.a) l, 0) else none)

/-- VRSUM, VRMIN, VRMAX (R318). -/
def redPlan (op : RedOp) (x : RegOp) (g : Gang) (f : Frag) : Plan :=
  let w := isWideXl x.t
  let r := (tree (op.combine x.t (g.rm x.m)) (redInputs x g f)).getD (op.ident x.t, 0)
  { useU := regs w (f.ur x.d), useV := regs w (f.vr x.a), rdV := regs w (f.vr x.a), rdM := modxMasks x.m
    rdLanes := g.act f x.m, flags := r.2, wU := wUni w (f.ur x.d) r.1 }
def execVrsum (x : RegOp) (s : State) : Out := regStep s (redPlan .sum x)
def execVrmin (x : RegOp) (s : State) : Out := regStep s (redPlan .min x)
def execVrmax (x : RegOp) (s : State) : Out := regStep s (redPlan .max x)

/-- VSCAN (R318). -/
def scanPlan (op : RedOp) (x : RegOp) (g : Gang) (f : Frag) : Plan :=
  let w := isWideXl x.t
  let r := scan (op.combine x.t (g.rm x.m)) (redInputs x g f)
  { useV := regs w (f.vr x.d) ++ regs w (f.vr x.a), rdV := regs w (f.vr x.a), rdM := modxMasks x.m
    rdLanes := g.act f x.m
    flags := orAll (r.map (fun o => match o with | some v => v.2 | none => 0))
    wV := wVec g f x.m w (f.vr x.d) (fun l => match (r[l]?).join with | some v => v.1 | none => 0) }
def execVscanAdd (x : RegOp) (s : State) : Out := regStep s (scanPlan .sum x)
def execVscanMin (x : RegOp) (s : State) : Out := regStep s (scanPlan .min x)
def execVscanMax (x : RegOp) (s : State) : Out := regStep s (scanPlan .max x)

end Sys2Proof.Machine
end

