-- ==== Sys2Proof/Machine/Dispatch.lean ====
section
/-! DEFINITION. One arm per constructor of Instr: each calls that instruction's meaning. -/

namespace Sys2Proof.Machine

/-- The effect of one instruction or event. -/
def exec (i : Instr) (s : State) : Host.Outcome State Fault Refusal :=
  match i with
  | .sadd x => Sys2Proof.Machine.execSadd x s
  | .ssub x => Sys2Proof.Machine.execSsub x s
  | .smul x => Sys2Proof.Machine.execSmul x s
  | .smulh x => Sys2Proof.Machine.execSmulh x s
  | .sdiv x => Sys2Proof.Machine.execSdiv x s
  | .srem x => Sys2Proof.Machine.execSrem x s
  | .sand x => Sys2Proof.Machine.execSand x s
  | .sor x => Sys2Proof.Machine.execSor x s
  | .sxor x => Sys2Proof.Machine.execSxor x s
  | .sshl x => Sys2Proof.Machine.execSshl x s
  | .sshr x => Sys2Proof.Machine.execSshr x s
  | .ssra x => Sys2Proof.Machine.execSsra x s
  | .smin x => Sys2Proof.Machine.execSmin x s
  | .smax x => Sys2Proof.Machine.execSmax x s
  | .sclz x => Sys2Proof.Machine.execSclz x s
  | .spopc x => Sys2Proof.Machine.execSpopc x s
  | .scmp x => Sys2Proof.Machine.execScmp x s
  | .ssel x => Sys2Proof.Machine.execSsel x s
  | .smov x => Sys2Proof.Machine.execSmov x s
  | .slea x => Sys2Proof.Machine.execSlea x s
  | .saddS32Imm x => Sys2Proof.Machine.execSaddS32Imm x s
  | .smulS32Imm x => Sys2Proof.Machine.execSmulS32Imm x s
  | .sandS32Imm x => Sys2Proof.Machine.execSandS32Imm x s
  | .sorS32Imm x => Sys2Proof.Machine.execSorS32Imm x s
  | .sxorS32Imm x => Sys2Proof.Machine.execSxorS32Imm x s
  | .sshlS32Imm x => Sys2Proof.Machine.execSshlS32Imm x s
  | .sshrS32Imm x => Sys2Proof.Machine.execSshrS32Imm x s
  | .ssraS32Imm x => Sys2Proof.Machine.execSsraS32Imm x s
  | .sminS32Imm x => Sys2Proof.Machine.execSminS32Imm x s
  | .smaxS32Imm x => Sys2Proof.Machine.execSmaxS32Imm x s
  | .sminN32Imm x => Sys2Proof.Machine.execSminN32Imm x s
  | .smaxN32Imm x => Sys2Proof.Machine.execSmaxN32Imm x s
  | .scmpEqS32Imm x => Sys2Proof.Machine.execScmpEqS32Imm x s
  | .scmpLtS32Imm x => Sys2Proof.Machine.execScmpLtS32Imm x s
  | .scmpLtN32Imm x => Sys2Proof.Machine.execScmpLtN32Imm x s
  | .saddS64Imm x => Sys2Proof.Machine.execSaddS64Imm x s
  | .sli x => Sys2Proof.Machine.execSli x s
  | .setxv base => Sys2Proof.Machine.execSetxv base s
  | .setxs base => Sys2Proof.Machine.execSetxs base s
  | .rdx d k => Sys2Proof.Machine.execRdx d k s
  | .vadd x => Sys2Proof.Machine.execVadd x s
  | .vsub x => Sys2Proof.Machine.execVsub x s
  | .vmul x => Sys2Proof.Machine.execVmul x s
  | .vmulh x => Sys2Proof.Machine.execVmulh x s
  | .vmad x => Sys2Proof.Machine.execVmad x s
  | .vdiv x => Sys2Proof.Machine.execVdiv x s
  | .vrem x => Sys2Proof.Machine.execVrem x s
  | .vadds x => Sys2Proof.Machine.execVadds x s
  | .vsubs x => Sys2Proof.Machine.execVsubs x s
  | .vmin x => Sys2Proof.Machine.execVmin x s
  | .vmax x => Sys2Proof.Machine.execVmax x s
  | .vabs x => Sys2Proof.Machine.execVabs x s
  | .vand x => Sys2Proof.Machine.execVand x s
  | .vor x => Sys2Proof.Machine.execVor x s
  | .vxor x => Sys2Proof.Machine.execVxor x s
  | .vshl x => Sys2Proof.Machine.execVshl x s
  | .vshr x => Sys2Proof.Machine.execVshr x s
  | .vsra x => Sys2Proof.Machine.execVsra x s
  | .vclz x => Sys2Proof.Machine.execVclz x s
  | .vpopc x => Sys2Proof.Machine.execVpopc x s
  | .vlea x => Sys2Proof.Machine.execVlea x s
  | .vleaX16 x => Sys2Proof.Machine.execVleaX16 x s
  | .voff x => Sys2Proof.Machine.execVoff x s
  | .vaddS32Imm x => Sys2Proof.Machine.execVaddS32Imm x s
  | .vmulS32Imm x => Sys2Proof.Machine.execVmulS32Imm x s
  | .vandS32Imm x => Sys2Proof.Machine.execVandS32Imm x s
  | .vorS32Imm x => Sys2Proof.Machine.execVorS32Imm x s
  | .vxorS32Imm x => Sys2Proof.Machine.execVxorS32Imm x s
  | .vshlS32Imm x => Sys2Proof.Machine.execVshlS32Imm x s
  | .vshrS32Imm x => Sys2Proof.Machine.execVshrS32Imm x s
  | .vsraS32Imm x => Sys2Proof.Machine.execVsraS32Imm x s
  | .vminS32Imm x => Sys2Proof.Machine.execVminS32Imm x s
  | .vmaxS32Imm x => Sys2Proof.Machine.execVmaxS32Imm x s
  | .vminN32Imm x => Sys2Proof.Machine.execVminN32Imm x s
  | .vmaxN32Imm x => Sys2Proof.Machine.execVmaxN32Imm x s
  | .vaddsS32Imm x => Sys2Proof.Machine.execVaddsS32Imm x s
  | .vaddsN32Imm x => Sys2Proof.Machine.execVaddsN32Imm x s
  | .vaddS64Imm x => Sys2Proof.Machine.execVaddS64Imm x s
  | .voffS64Imm x => Sys2Proof.Machine.execVoffS64Imm x s
  | .mand x => Sys2Proof.Machine.execMand x s
  | .mor x => Sys2Proof.Machine.execMor x s
  | .mxor x => Sys2Proof.Machine.execMxor x s
  | .mnot x => Sys2Proof.Machine.execMnot x s
  | .mcnt x => Sys2Proof.Machine.execMcnt x s
  | .mffs x => Sys2Proof.Machine.execMffs x s
  | .mmovMm x => Sys2Proof.Machine.execMmovMm x s
  | .mmovMs x => Sys2Proof.Machine.execMmovMs x s
  | .mmovSm x => Sys2Proof.Machine.execMmovSm x s
  | .mset x => Sys2Proof.Machine.execMset x s
  | .vmovW32 x => Sys2Proof.Machine.execVmovW32 x s
  | .vmovW64 x => Sys2Proof.Machine.execVmovW64 x s
  | .vbcstW32 x => Sys2Proof.Machine.execVbcstW32 x s
  | .vbcstW64 x => Sys2Proof.Machine.execVbcstW64 x s
  | .vselW32 x => Sys2Proof.Machine.execVselW32 x s
  | .vselW64 x => Sys2Proof.Machine.execVselW64 x s
  | .vlane x => Sys2Proof.Machine.execVlane x s
  | .vgetW32 x => Sys2Proof.Machine.execVgetW32 x s
  | .vgetW64 x => Sys2Proof.Machine.execVgetW64 x s
  | .vputW32 x => Sys2Proof.Machine.execVputW32 x s
  | .vputW64 x => Sys2Proof.Machine.execVputW64 x s
  | .vfadd x => Sys2Proof.Machine.execVfadd x s
  | .vfsub x => Sys2Proof.Machine.execVfsub x s
  | .vfmul x => Sys2Proof.Machine.execVfmul x s
  | .vffma x => Sys2Proof.Machine.execVffma x s
  | .vffms x => Sys2Proof.Machine.execVffms x s
  | .vfnfma x => Sys2Proof.Machine.execVfnfma x s
  | .vfmin x => Sys2Proof.Machine.execVfmin x s
  | .vfmax x => Sys2Proof.Machine.execVfmax x s
  | .vfabs x => Sys2Proof.Machine.execVfabs x s
  | .vfneg x => Sys2Proof.Machine.execVfneg x s
  | .vfdiv x => Sys2Proof.Machine.execVfdiv x s
  | .vfsqrt x => Sys2Proof.Machine.execVfsqrt x s
  | .vfclass x => Sys2Proof.Machine.execVfclass x s
  | .vfsgn x => Sys2Proof.Machine.execVfsgn x s
  | .vfldx x => Sys2Proof.Machine.execVfldx x s
  | .sfadd x => Sys2Proof.Machine.execSfadd x s
  | .sfmul x => Sys2Proof.Machine.execSfmul x s
  | .sffma x => Sys2Proof.Machine.execSffma x s
  | .sfcmp x => Sys2Proof.Machine.execSfcmp x s
  | .sfcvt x => Sys2Proof.Machine.execSfcvt x s
  | .vcmp x => Sys2Proof.Machine.execVcmp x s
  | .vfcmp x => Sys2Proof.Machine.execVfcmp x s
  | .vex2s x => Sys2Proof.Machine.execVex2s x s
  | .vlg2 x => Sys2Proof.Machine.execVlg2 x s
  | .vrcp x => Sys2Proof.Machine.execVrcp x s
  | .vrsq x => Sys2Proof.Machine.execVrsq x s
  | .vsin x => Sys2Proof.Machine.execVsin x s
  | .vcos x => Sys2Proof.Machine.execVcos x s
  | .vcvt x => Sys2Proof.Machine.execVcvt x s
  | .vpack x => Sys2Proof.Machine.execVpack x s
  | .vunpk x => Sys2Proof.Machine.execVunpk x s
  | .vdeq x => Sys2Proof.Machine.execVdeq x s
  | .vshf x => Sys2Proof.Machine.execVshf x s
  | .vshfu x => Sys2Proof.Machine.execVshfu x s
  | .vshfd x => Sys2Proof.Machine.execVshfd x s
  | .vshfx x => Sys2Proof.Machine.execVshfx x s
  | .vvoteAny x => Sys2Proof.Machine.execVvoteAny x s
  | .vvoteAll x => Sys2Proof.Machine.execVvoteAll x s
  | .vvoteUni x => Sys2Proof.Machine.execVvoteUni x s
  | .vvoteBal x => Sys2Proof.Machine.execVvoteBal x s
  | .vvoteCnt x => Sys2Proof.Machine.execVvoteCnt x s
  | .vrsum x => Sys2Proof.Machine.execVrsum x s
  | .vrmin x => Sys2Proof.Machine.execVrmin x s
  | .vrmax x => Sys2Proof.Machine.execVrmax x s
  | .vscanAdd x => Sys2Proof.Machine.execVscanAdd x s
  | .vscanMin x => Sys2Proof.Machine.execVscanMin x s
  | .vscanMax x => Sys2Proof.Machine.execVscanMax x s
  | .vld x => Sys2Proof.Machine.execVld x s
  | .vst x => Sys2Proof.Machine.execVst x s
  | .vprf x => Sys2Proof.Machine.execVprf x s
  | .sld x => Sys2Proof.Machine.execSld x s
  | .sst x => Sys2Proof.Machine.execSst x s
  | .slda x => Sys2Proof.Machine.execSlda x s
  | .sstr x => Sys2Proof.Machine.execSstr x s
  | .vatmSwap x => Sys2Proof.Machine.execVatmSwap x s
  | .vatmAdd x => Sys2Proof.Machine.execVatmAdd x s
  | .vatmAnd x => Sys2Proof.Machine.execVatmAnd x s
  | .vatmOr x => Sys2Proof.Machine.execVatmOr x s
  | .vatmXor x => Sys2Proof.Machine.execVatmXor x s
  | .vatmMins x => Sys2Proof.Machine.execVatmMins x s
  | .vatmMaxs x => Sys2Proof.Machine.execVatmMaxs x s
  | .vatmMinn x => Sys2Proof.Machine.execVatmMinn x s
  | .vatmMaxn x => Sys2Proof.Machine.execVatmMaxn x s
  | .vatmFadd x => Sys2Proof.Machine.execVatmFadd x s
  | .vcas x => Sys2Proof.Machine.execVcas x s
  | .satmSwap x => Sys2Proof.Machine.execSatmSwap x s
  | .satmAdd x => Sys2Proof.Machine.execSatmAdd x s
  | .satmAnd x => Sys2Proof.Machine.execSatmAnd x s
  | .satmOr x => Sys2Proof.Machine.execSatmOr x s
  | .satmXor x => Sys2Proof.Machine.execSatmXor x s
  | .satmMins x => Sys2Proof.Machine.execSatmMins x s
  | .satmMaxs x => Sys2Proof.Machine.execSatmMaxs x s
  | .satmMinn x => Sys2Proof.Machine.execSatmMinn x s
  | .satmMaxn x => Sys2Proof.Machine.execSatmMaxn x s
  | .satmFadd x => Sys2Proof.Machine.execSatmFadd x s
  | .scas x => Sys2Proof.Machine.execScas x s
  | .fence x => Sys2Proof.Machine.execFence x s
  | .waitc x => Sys2Proof.Machine.execWaitc x s
  | .swini a b => Sys2Proof.Machine.execSwini a b s
  | .swexp a b c => Sys2Proof.Machine.execSwexp a b c s
  | .swwt a b => Sys2Proof.Machine.execSwwt a b s
  | .bara a k => Sys2Proof.Machine.execBara a k s
  | .barw a k => Sys2Proof.Machine.execBarw a k s
  | .bars k => Sys2Proof.Machine.execBars k s
  | .grpq a k => Sys2Proof.Machine.execGrpq a k s
  | .regang mask => Sys2Proof.Machine.execRegang mask s
  | .nap a space t => Sys2Proof.Machine.execNap a space t s
  | .bru disp => Sys2Proof.Machine.execBru disp s
  | .bruZ r disp => Sys2Proof.Machine.execBruZ r disp s
  | .bruNz r disp => Sys2Proof.Machine.execBruNz r disp s
  | .bruLt r disp => Sys2Proof.Machine.execBruLt r disp s
  | .bruGe r disp => Sys2Proof.Machine.execBruGe r disp s
  | .call r disp => Sys2Proof.Machine.execCall r disp s
  | .brv x => Sys2Proof.Machine.execBrv x s
  | .jmpr a => Sys2Proof.Machine.execJmpr a s
  | .tbeg a disp => Sys2Proof.Machine.execTbeg a disp s
  | .tbegIdem a disp => Sys2Proof.Machine.execTbegIdem a disp s
  | .tabt code => Sys2Proof.Machine.execTabt code s
  | .trap code => Sys2Proof.Machine.execTrap code s
  | .tclr a => Sys2Proof.Machine.execTclr a s
  | .brk code => Sys2Proof.Machine.execBrk code s
  | .csrr a n => Sys2Proof.Machine.execCsrr a n s
  | .csrw a n => Sys2Proof.Machine.execCsrw a n s
  | .csrs a n => Sys2Proof.Machine.execCsrs a n s
  | .csrc a n => Sys2Proof.Machine.execCsrc a n s
  | .cpy x => Sys2Proof.Machine.execCpy x s
  | .cpy2 x => Sys2Proof.Machine.execCpy2 x s
  | .cpyg x => Sys2Proof.Machine.execCpyg x s
  | .cpyp x => Sys2Proof.Machine.execCpyp x s
  | .cpyq x => Sys2Proof.Machine.execCpyq x s
  | .cprel a => Sys2Proof.Machine.execCprel a s
  | .bincl a b => Sys2Proof.Machine.execBincl a b s
  | .binad a b => Sys2Proof.Machine.execBinad a b s
  | .binrd a b => Sys2Proof.Machine.execBinrd a b s
  | .twld x => Sys2Proof.Machine.execTwld x s
  | .tmul x => Sys2Proof.Machine.execTmul x s
  | .tmulX4 x => Sys2Proof.Machine.execTmulX4 x s
  | .tmuls x => Sys2Proof.Machine.execTmuls x s
  | .tzero x => Sys2Proof.Machine.execTzero x s
  | .trd x => Sys2Proof.Machine.execTrd x s
  | .aplnk x => Sys2Proof.Machine.execAplnk x s
  | .apref x => Sys2Proof.Machine.execApref x s
  | .attn x => Sys2Proof.Machine.execAttn x s
  | .amrg x => Sys2Proof.Machine.execAmrg x s
  | .arcp x => Sys2Proof.Machine.execArcp x s
  | .ssopn x => Sys2Proof.Machine.execSsopn x s
  | .ssld x => Sys2Proof.Machine.execSsld x s
  | .sssv x => Sys2Proof.Machine.execSssv x s
  | .ssrbk x => Sys2Proof.Machine.execSsrbk x s
  | .ssfrk x => Sys2Proof.Machine.execSsfrk x s
  | .ssqry x => Sys2Proof.Machine.execSsqry x s
  | .oalc x => Sys2Proof.Machine.execOalc x s
  | .ofre x => Sys2Proof.Machine.execOfre x s
  | .oloc x => Sys2Proof.Machine.execOloc x s
  | .opin x => Sys2Proof.Machine.execOpin x s
  | .ounp x => Sys2Proof.Machine.execOunp x s
  | .ocol x => Sys2Proof.Machine.execOcol x s
  | .omig x => Sys2Proof.Machine.execOmig x s
  | .ocln x => Sys2Proof.Machine.execOcln x s
  | .ored x => Sys2Proof.Machine.execOred x s
  | .obar x => Sys2Proof.Machine.execObar x s
  | .rcomm x => Sys2Proof.Machine.execRcomm x s
  | .rcqry x => Sys2Proof.Machine.execRcqry x s
  | .rcver x => Sys2Proof.Machine.execRcver x s
  | .yield => Sys2Proof.Machine.execYield s
  | .join => Sys2Proof.Machine.execJoin s
  | .tend => Sys2Proof.Machine.execTend s
  | .tret => Sys2Proof.Machine.execTret s
  | .nop => Sys2Proof.Machine.execNop s
  | .loadReturn => Sys2Proof.Machine.execLoadReturn s
  | .pageWalkDone => Sys2Proof.Machine.execPageWalkDone s
  | .ibufFill => Sys2Proof.Machine.execIbufFill s
  | .engineCompletion => Sys2Proof.Machine.execEngineCompletion s
  | .blockingAnswer => Sys2Proof.Machine.execBlockingAnswer s
  | .releaseAcksDone => Sys2Proof.Machine.execReleaseAcksDone s
  | .tendDone => Sys2Proof.Machine.execTendDone s
  | .syncWordCount => Sys2Proof.Machine.execSyncWordCount s
  | .napWake => Sys2Proof.Machine.execNapWake s
  | .napTimeout => Sys2Proof.Machine.execNapTimeout s
  | .syncto => Sys2Proof.Machine.execSyncto s
  | .trapEntry => Sys2Proof.Machine.execTrapEntry s
  | .handlerPreempt => Sys2Proof.Machine.execHandlerPreempt s
  | .oreq => Sys2Proof.Machine.execOreq s
  | .ofwd => Sys2Proof.Machine.execOfwd s
  | .olupd => Sys2Proof.Machine.execOlupd s
  | .orsp => Sys2Proof.Machine.execOrsp s
  | .oabs => Sys2Proof.Machine.execOabs s
  | .ocon => Sys2Proof.Machine.execOcon s
  | .regq => Sys2Proof.Machine.execRegq s
  | .rega => Sys2Proof.Machine.execRega s
  | .malc => Sys2Proof.Machine.execMalc s
  | .mala => Sys2Proof.Machine.execMala s
  | .mcpy => Sys2Proof.Machine.execMcpy s
  | .mcpa => Sys2Proof.Machine.execMcpa s
  | .copyPassEnd => Sys2Proof.Machine.execCopyPassEnd s
  | .regupd => Sys2Proof.Machine.execRegupd s
  | .regack => Sys2Proof.Machine.execRegack s
  | .mact => Sys2Proof.Machine.execMact s
  | .mrel => Sys2Proof.Machine.execMrel s
  | .stubCollect => Sys2Proof.Machine.execStubCollect s
  | .rds => Sys2Proof.Machine.execRds s
  | .rdo => Sys2Proof.Machine.execRdo s
  | .upg => Sys2Proof.Machine.execUpg s
  | .wbd => Sys2Proof.Machine.execWbd s
  | .evc => Sys2Proof.Machine.execEvc s
  | .snps => Sys2Proof.Machine.execSnps s
  | .snpi => Sys2Proof.Machine.execSnpi s
  | .binv => Sys2Proof.Machine.execBinv s
  | .data => Sys2Proof.Machine.execData s
  | .gnt => Sys2Proof.Machine.execGnt s
  | .iack => Sys2Proof.Machine.execIack s
  | .cmp => Sys2Proof.Machine.execCmp s
  | .drn => Sys2Proof.Machine.execDrn s
  | .l1Writeback => Sys2Proof.Machine.execL1Writeback s
  | .drainDone => Sys2Proof.Machine.execDrainDone s
  | .rclr => Sys2Proof.Machine.execRclr s
  | .podDirOreq => Sys2Proof.Machine.execPodDirOreq s
  | .orspAtSwitch => Sys2Proof.Machine.execOrspAtSwitch s
  | .pinv => Sys2Proof.Machine.execPinv s
  | .piack => Sys2Proof.Machine.execPiack s
  | .psi => Sys2Proof.Machine.execPsi s
  | .psia => Sys2Proof.Machine.execPsia s
  | .psclr => Sys2Proof.Machine.execPsclr s
  | .hostRead => Sys2Proof.Machine.execHostRead s
  | .hostWrite => Sys2Proof.Machine.execHostWrite s
  | .bisnpAnswer => Sys2Proof.Machine.execBisnpAnswer s
  | .hbtoExpiry => Sys2Proof.Machine.execHbtoExpiry s
  | .frtoExpiry => Sys2Proof.Machine.execFrtoExpiry s
  | .peerTimeout => Sys2Proof.Machine.execPeerTimeout s
  | .packetAgeDiscard => Sys2Proof.Machine.execPacketAgeDiscard s
  | .podMapAdopt => Sys2Proof.Machine.execPodMapAdopt s
  | .epochAnnounce => Sys2Proof.Machine.execEpochAnnounce s
  | .portDown => Sys2Proof.Machine.execPortDown s
  | .flitRetry => Sys2Proof.Machine.execFlitRetry s
  | .collectiveContribution => Sys2Proof.Machine.execCollectiveContribution s
  | .collectiveTableWrite => Sys2Proof.Machine.execCollectiveTableWrite s
  | .rdur => Sys2Proof.Machine.execRdur s
  | .rdura => Sys2Proof.Machine.execRdura s
  | .rclose => Sys2Proof.Machine.execRclose s
  | .rclosa => Sys2Proof.Machine.execRclosa s
  | .durableAccept => Sys2Proof.Machine.execDurableAccept s
  | .durableWriteback => Sys2Proof.Machine.execDurableWriteback s
  | .settlerSweep => Sys2Proof.Machine.execSettlerSweep s
  | .containmentScan => Sys2Proof.Machine.execContainmentScan s
  | .drst => Sys2Proof.Machine.execDrst s
  | .watchdog => Sys2Proof.Machine.execWatchdog s
  | .wholeDeviceReset => Sys2Proof.Machine.execWholeDeviceReset s
  | .thermalTrip => Sys2Proof.Machine.execThermalTrip s
  | .clockAdjust => Sys2Proof.Machine.execClockAdjust s
  | .tlbinv => Sys2Proof.Machine.execTlbinv s
  | .tlbinvComplete => Sys2Proof.Machine.execTlbinvComplete s
  | .lcinv => Sys2Proof.Machine.execLcinv s
  | .kret => Sys2Proof.Machine.execKret s
  | .keyRetireComplete => Sys2Proof.Machine.execKeyRetireComplete s
  | .kload => Sys2Proof.Machine.execKload s
  | .fxopGive => Sys2Proof.Machine.execFxopGive s
  | .fxopTake => Sys2Proof.Machine.execFxopTake s
  | .fxbEnable => Sys2Proof.Machine.execFxbEnable s
  | .rrdEnable => Sys2Proof.Machine.execRrdEnable s
  | .rrdDisable => Sys2Proof.Machine.execRrdDisable s
  | .rrdDisableComplete => Sys2Proof.Machine.execRrdDisableComplete s
  | .rrdSetTpol => Sys2Proof.Machine.execRrdSetTpol s
  | .kvwWrite => Sys2Proof.Machine.execKvwWrite s
  | .kvwEffect => Sys2Proof.Machine.execKvwEffect s
  | .preq => Sys2Proof.Machine.execPreq s
  | .gdbgHalt => Sys2Proof.Machine.execGdbgHalt s
  | .gdbgResume => Sys2Proof.Machine.execGdbgResume s
  | .devnumWrite => Sys2Proof.Machine.execDevnumWrite s
  | .tailWrite => Sys2Proof.Machine.execTailWrite s
  | .rcrtEnable => Sys2Proof.Machine.execRcrtEnable s
  | .rcrtDisable => Sys2Proof.Machine.execRcrtDisable s
  | .pfailClear => Sys2Proof.Machine.execPfailClear s
  | .tableBaseWrite => Sys2Proof.Machine.execTableBaseWrite s
  | .ringBaseWrite => Sys2Proof.Machine.execRingBaseWrite s
  | .debugWindowWrite => Sys2Proof.Machine.execDebugWindowWrite s
  | .registerWrite => Sys2Proof.Machine.execRegisterWrite s
  | .launchAccept => Sys2Proof.Machine.execLaunchAccept s
  | .dependenceWake => Sys2Proof.Machine.execDependenceWake s
  | .blockPlace => Sys2Proof.Machine.execBlockPlace s
  | .placeBackoff => Sys2Proof.Machine.execPlaceBackoff s
  | .storageClearDone => Sys2Proof.Machine.execStorageClearDone s
  | .blockRetire => Sys2Proof.Machine.execBlockRetire s
  | .queue63Release => Sys2Proof.Machine.execQueue63Release s
  | .timeSlice => Sys2Proof.Machine.execTimeSlice s
  | .priorityWait => Sys2Proof.Machine.execPriorityWait s
  | .preemptModeChoice => Sys2Proof.Machine.execPreemptModeChoice s
  | .blockSave => Sys2Proof.Machine.execBlockSave s
  | .blockFlush => Sys2Proof.Machine.execBlockFlush s
  | .blockRestore => Sys2Proof.Machine.execBlockRestore s
  | .stateStoreOp => Sys2Proof.Machine.execStateStoreOp s
  | .tilePassStart => Sys2Proof.Machine.execTilePassStart s
  | .weightLatch => Sys2Proof.Machine.execWeightLatch s
  | .peaWalkStart => Sys2Proof.Machine.execPeaWalkStart s
  | .headerReturn => Sys2Proof.Machine.execHeaderReturn s
  | .promotionCheck => Sys2Proof.Machine.execPromotionCheck s
  | .regenSeal => Sys2Proof.Machine.execRegenSeal s
  | .regenTimeout => Sys2Proof.Machine.execRegenTimeout s
  | .attnItem => Sys2Proof.Machine.execAttnItem s
  | .tripleReturn => Sys2Proof.Machine.execTripleReturn s
  | .holdLapse => Sys2Proof.Machine.execHoldLapse s
  | .wayGate => Sys2Proof.Machine.execWayGate s
  | .wayWakeDone => Sys2Proof.Machine.execWayWakeDone s
  | .segmentClearDone => Sys2Proof.Machine.execSegmentClearDone s
  | .patrolScrub => Sys2Proof.Machine.execPatrolScrub s
  | .idleEntry => Sys2Proof.Machine.execIdleEntry s
  | .wake => Sys2Proof.Machine.execWake s
  | .getVersion => Sys2Proof.Machine.execGetVersion s
  | .getCapabilities => Sys2Proof.Machine.execGetCapabilities s
  | .negotiateAlgorithms => Sys2Proof.Machine.execNegotiateAlgorithms s
  | .getDigests => Sys2Proof.Machine.execGetDigests s
  | .getCertificate => Sys2Proof.Machine.execGetCertificate s
  | .challenge => Sys2Proof.Machine.execChallenge s
  | .getMeasurements => Sys2Proof.Machine.execGetMeasurements s
  | .spdmUnsupported => Sys2Proof.Machine.execSpdmUnsupported s
  | .linkTraining => Sys2Proof.Machine.execLinkTraining s
  | .modulePowerOn => Sys2Proof.Machine.execModulePowerOn s
  | .chunkSend => Sys2Proof.Machine.execChunkSend s
  | .levelSample => Sys2Proof.Machine.execLevelSample s

end Sys2Proof.Machine
end

