-- ==== Sys2Proof/Decode.lean ====
section
/-! DEFINITION. Decoding of a bundle (R253 to R268), total on any words and bytes, every rejection named; and after it
the encoder, written from the same encoding tables. -/

namespace Sys2Proof

/-- Why words do not decode; each raises ILLEGAL (R268), but for `truncated`, which asks for a further word. -/
inductive DecodeError where
  /-- The words end inside a bundle. -/
  | truncated
  /-- The all-zero word (R268 check 1). -/
  | zeroWord
  /-- A reserved major opcode (R268 check 1). -/
  | reservedMajor
  /-- A reserved fn, cond or form (R268 check 2). -/
  | reservedFn
  /-- A carry word of kind 0b11 (R256). -/
  | carryKind
  /-- A non-zero field that must be zero (R258). -/
  | unusedField
  /-- Carry words out of the order of R254, or too many. -/
  | carryOrder
  /-- A reserved MODX bit, or a value R263 or R264 refuses. -/
  | modxReserved
  /-- A reserved HNT bit (R266). -/
  | hntReserved
  /-- More IMX words than the format accepts (R262). -/
  | imxRefused
  /-- A MODX before a class that refuses it, or before a form whose entry names no MODX field, be the word's fields zero
  (R256, R265; DESIGN CHOICE of log entry 61). -/
  | modxRefused
  /-- A field check of `Instr.check` fails. -/
  | illFormed (e : IllFormed)
  deriving DecidableEq, Repr

/-- The carry words read before a base word (R254): IMX payloads in order, and the MODX and HNT payloads. -/
structure Carry where
  imx  : List Nat
  modx : Option Nat
  hnt  : Option Nat
  deriving DecidableEq, Repr

/-- No carry word. -/
def Carry.empty : Carry := ⟨[], none, none⟩

/-- True for a word under major 0x3F. -/
def isCarryWord (w : Nat) : Bool := fld w 26 6 == 63

/-- One more carry word, in the order of R254. -/
def Carry.add (c : Carry) (w : Nat) : Except DecodeError Carry :=
  match fld w 24 2 with
  | 0 => if c.modx.isNone && c.hnt.isNone && decide (c.imx.length < 2)
         then .ok { c with imx := c.imx ++ [fld w 0 24] } else .error .carryOrder
  | 1 => if fld w 0 2 = 0 then
           (if c.modx.isNone && c.hnt.isNone then .ok { c with modx := some (fld w 0 24) } else .error .carryOrder)
         else .error .modxReserved
  | 2 => if fld w 0 16 = 0 then
           (if c.hnt.isNone then .ok { c with hnt := some (fld w 0 24) } else .error .carryOrder)
         else .error .hntReserved
  | _ => .error .carryKind

/-- The fields of a MODX payload (R263). -/
def modxOf (p : Nat) : Modx :=
  ⟨fld p 20 4, bit p 19, bit p 18, fld p 15 3, bit p 14, fld p 8 6, bit p 7, fld p 5 2, fld p 2 3⟩

/-- The modifiers of a bundle; without MODX, none. -/
def Carry.mx (c : Carry) : Modx :=
  match c.modx with
  | some p => modxOf p
  | none => Modx.none

/-- The modifiers of SLDA and SSTR: without MODX the ordering is the major's and the scope is DEV (R325). -/
def Carry.mxFixed (c : Carry) (ord : Nat) : Modx :=
  match c.modx with
  | some p => modxOf p
  | none => { Modx.none with ord := ord, scope := 2 }

/-- True when ORD and SCOPE are the only MODX fields in use: FENCE accepts no other (R265). -/
def Carry.onlyOrder (c : Carry) : Bool := c.mx == { Modx.none with ord := c.mx.ord, scope := c.mx.scope }

/-- The joined unsigned immediate of R260, IMX payloads most significant. -/
def Carry.immU (c : Carry) (w width : Nat) : Nat :=
  c.imx.foldl (fun acc p => acc * 16777216 + p) 0 * 2 ^ width + fld w 0 width

/-- The joined signed immediate of R260, extended from bit F + 24k − 1. -/
def Carry.immS (c : Carry) (w width : Nat) : Int :=
  sextN (width + 24 * c.imx.length) (c.immU w width)

/-- The fields of BRV, one IMX extending both displacements (R261). -/
def Carry.brv (c : Carry) (w : Nat) : BrvOp :=
  match c.imx with
  | [] => ⟨fld w 22 4, bit w 21, sextN 11 (fld w 10 11), fld w 0 10⟩
  | p :: _ => ⟨fld w 22 4, bit w 21, sextN 23 (fld p 12 12 * 2048 + fld w 10 11), fld p 0 12 * 1024 + fld w 0 10⟩

/-- The checks common to every form: unused fields (R258), carry words accepted (R262, R265), field checks. -/
def fin (c : Carry) (w : Nat) (unused : List (Nat × Nat)) (imxMax : Nat) (modxOk : Bool) (i : Instr) :
    Except DecodeError Instr :=
  if unused.any (fun u => fld w u.1 u.2 != 0) then .error .unusedField
  else if imxMax < c.imx.length then .error .imxRefused
  else if c.modx.isSome && !modxOk then .error .modxRefused
  else match i.check with
    | none => .ok i
    | some e => .error (.illFormed e)

/-- Major 0x01 of R267: the form chosen by its fn field; a value no entry assigns is reserved. -/
def decodeVint (c : Carry) (w : Nat) : Except DecodeError Instr :=
  match fld w 0 6 with
  | 0 => fin c w [] 0 true (.vadd ⟨c.mx, fld w 6 2, fld w 20 6, fld w 14 6, fld w 8 6⟩)
  | 1 => fin c w [] 0 true (.vsub ⟨c.mx, fld w 6 2, fld w 20 6, fld w 14 6, fld w 8 6⟩)
  | 2 => fin c w [] 0 true (.vmul ⟨c.mx, fld w 6 2, fld w 20 6, fld w 14 6, fld w 8 6⟩)
  | 3 => fin c w [] 0 true (.vmulh ⟨c.mx, fld w 6 2, fld w 20 6, fld w 14 6, fld w 8 6⟩)
  | 4 => fin c w [] 0 true (.vmad ⟨c.mx, fld w 6 2, fld w 20 6, fld w 14 6, fld w 8 6⟩)
  | 5 => fin c w [] 0 true (.vdiv ⟨c.mx, fld w 6 2, fld w 20 6, fld w 14 6, fld w 8 6⟩)
  | 6 => fin c w [] 0 true (.vrem ⟨c.mx, fld w 6 2, fld w 20 6, fld w 14 6, fld w 8 6⟩)
  | 7 => fin c w [] 0 true (.vadds ⟨c.mx, fld w 6 2, fld w 20 6, fld w 14 6, fld w 8 6⟩)
  | 8 => fin c w [] 0 true (.vsubs ⟨c.mx, fld w 6 2, fld w 20 6, fld w 14 6, fld w 8 6⟩)
  | 9 => fin c w [] 0 true (.vmin ⟨c.mx, fld w 6 2, fld w 20 6, fld w 14 6, fld w 8 6⟩)
  | 10 => fin c w [] 0 true (.vmax ⟨c.mx, fld w 6 2, fld w 20 6, fld w 14 6, fld w 8 6⟩)
  | 11 => fin c w [(8, 6)] 0 true (.vabs ⟨c.mx, fld w 6 2, fld w 20 6, fld w 14 6, fld w 8 6⟩)
  | 12 => fin c w [] 0 true (.vand ⟨c.mx, fld w 6 2, fld w 20 6, fld w 14 6, fld w 8 6⟩)
  | 13 => fin c w [] 0 true (.vor ⟨c.mx, fld w 6 2, fld w 20 6, fld w 14 6, fld w 8 6⟩)
  | 14 => fin c w [] 0 true (.vxor ⟨c.mx, fld w 6 2, fld w 20 6, fld w 14 6, fld w 8 6⟩)
  | 15 => fin c w [] 0 true (.vshl ⟨c.mx, fld w 6 2, fld w 20 6, fld w 14 6, fld w 8 6⟩)
  | 16 => fin c w [] 0 true (.vshr ⟨c.mx, fld w 6 2, fld w 20 6, fld w 14 6, fld w 8 6⟩)
  | 17 => fin c w [] 0 true (.vsra ⟨c.mx, fld w 6 2, fld w 20 6, fld w 14 6, fld w 8 6⟩)
  | 18 => fin c w [(8, 6)] 0 true (.vclz ⟨c.mx, fld w 6 2, fld w 20 6, fld w 14 6, fld w 8 6⟩)
  | 19 => fin c w [(8, 6)] 0 true (.vpopc ⟨c.mx, fld w 6 2, fld w 20 6, fld w 14 6, fld w 8 6⟩)
  | 20 => fin c w [] 0 true (.vlea ⟨c.mx, fld w 6 2, fld w 20 6, fld w 14 6, fld w 8 6, fld w 0 2⟩)
  | 21 => fin c w [] 0 true (.vlea ⟨c.mx, fld w 6 2, fld w 20 6, fld w 14 6, fld w 8 6, fld w 0 2⟩)
  | 22 => fin c w [] 0 true (.vlea ⟨c.mx, fld w 6 2, fld w 20 6, fld w 14 6, fld w 8 6, fld w 0 2⟩)
  | 23 => fin c w [] 0 true (.vlea ⟨c.mx, fld w 6 2, fld w 20 6, fld w 14 6, fld w 8 6, fld w 0 2⟩)
  | 24 => fin c w [] 0 true (.vleaX16 ⟨c.mx, fld w 6 2, fld w 20 6, fld w 14 6, fld w 8 6⟩)
  | 25 => fin c w [] 0 true (.voff ⟨c.mx, fld w 6 2, fld w 20 6, fld w 14 6, fld w 8 6⟩)
  | _ => .error .reservedFn

/-- Major 0x02 of R267: the form chosen by its fn field; a value no entry assigns is reserved. -/
def decodeVinti (c : Carry) (w : Nat) : Except DecodeError Instr :=
  match fld w 10 4 with
  | 0 => fin c w [] 2 true (.vaddS32Imm ⟨c.mx, fld w 20 6, fld w 14 6, c.immS w 10⟩)
  | 1 => fin c w [] 2 true (.vmulS32Imm ⟨c.mx, fld w 20 6, fld w 14 6, c.immS w 10⟩)
  | 2 => fin c w [] 2 true (.vandS32Imm ⟨c.mx, fld w 20 6, fld w 14 6, c.immS w 10⟩)
  | 3 => fin c w [] 2 true (.vorS32Imm ⟨c.mx, fld w 20 6, fld w 14 6, c.immS w 10⟩)
  | 4 => fin c w [] 2 true (.vxorS32Imm ⟨c.mx, fld w 20 6, fld w 14 6, c.immS w 10⟩)
  | 5 => fin c w [] 2 true (.vshlS32Imm ⟨c.mx, fld w 20 6, fld w 14 6, c.immS w 10⟩)
  | 6 => fin c w [] 2 true (.vshrS32Imm ⟨c.mx, fld w 20 6, fld w 14 6, c.immS w 10⟩)
  | 7 => fin c w [] 2 true (.vsraS32Imm ⟨c.mx, fld w 20 6, fld w 14 6, c.immS w 10⟩)
  | 8 => fin c w [] 2 true (.vminS32Imm ⟨c.mx, fld w 20 6, fld w 14 6, c.immS w 10⟩)
  | 9 => fin c w [] 2 true (.vmaxS32Imm ⟨c.mx, fld w 20 6, fld w 14 6, c.immS w 10⟩)
  | 10 => fin c w [] 2 true (.vminN32Imm ⟨c.mx, fld w 20 6, fld w 14 6, c.immS w 10⟩)
  | 11 => fin c w [] 2 true (.vmaxN32Imm ⟨c.mx, fld w 20 6, fld w 14 6, c.immS w 10⟩)
  | 12 => fin c w [] 2 true (.vaddsS32Imm ⟨c.mx, fld w 20 6, fld w 14 6, c.immS w 10⟩)
  | 13 => fin c w [] 2 true (.vaddsN32Imm ⟨c.mx, fld w 20 6, fld w 14 6, c.immS w 10⟩)
  | 14 => fin c w [] 2 true (.vaddS64Imm ⟨c.mx, fld w 20 6, fld w 14 6, c.immS w 10⟩)
  | 15 => fin c w [] 2 true (.voffS64Imm ⟨c.mx, fld w 20 6, fld w 14 6, c.immS w 10⟩)
  | _ => .error .reservedFn

/-- Major 0x03 of R267: the form chosen by its fn field; a value no entry assigns is reserved. -/
def decodeVflt (c : Carry) (w : Nat) : Except DecodeError Instr :=
  match fld w 0 6 with
  | 0 => fin c w [] 0 true (.vfadd ⟨c.mx, fld w 6 2, fld w 20 6, fld w 14 6, fld w 8 6⟩)
  | 1 => fin c w [] 0 true (.vfsub ⟨c.mx, fld w 6 2, fld w 20 6, fld w 14 6, fld w 8 6⟩)
  | 2 => fin c w [] 0 true (.vfmul ⟨c.mx, fld w 6 2, fld w 20 6, fld w 14 6, fld w 8 6⟩)
  | 3 => fin c w [] 0 true (.vffma ⟨c.mx, fld w 6 2, fld w 20 6, fld w 14 6, fld w 8 6⟩)
  | 4 => fin c w [] 0 true (.vffms ⟨c.mx, fld w 6 2, fld w 20 6, fld w 14 6, fld w 8 6⟩)
  | 5 => fin c w [] 0 true (.vfnfma ⟨c.mx, fld w 6 2, fld w 20 6, fld w 14 6, fld w 8 6⟩)
  | 6 => fin c w [] 0 true (.vfmin ⟨c.mx, fld w 6 2, fld w 20 6, fld w 14 6, fld w 8 6⟩)
  | 7 => fin c w [] 0 true (.vfmax ⟨c.mx, fld w 6 2, fld w 20 6, fld w 14 6, fld w 8 6⟩)
  | 8 => fin c w [(8, 6)] 0 true (.vfabs ⟨c.mx, fld w 6 2, fld w 20 6, fld w 14 6, fld w 8 6⟩)
  | 9 => fin c w [(8, 6)] 0 true (.vfneg ⟨c.mx, fld w 6 2, fld w 20 6, fld w 14 6, fld w 8 6⟩)
  | 10 => fin c w [] 0 true (.vfdiv ⟨c.mx, fld w 6 2, fld w 20 6, fld w 14 6, fld w 8 6⟩)
  | 11 => fin c w [(8, 6)] 0 true (.vfsqrt ⟨c.mx, fld w 6 2, fld w 20 6, fld w 14 6, fld w 8 6⟩)
  | 12 => fin c w [(7, 1), (8, 6)] 0 true (.vfclass ⟨c.mx, fld w 6 1, fld w 20 6, fld w 14 6, fld w 8 6⟩)
  | 13 => fin c w [] 0 true (.vfsgn ⟨c.mx, fld w 6 2, fld w 20 6, fld w 14 6, fld w 8 6⟩)
  | 14 => fin c w [(7, 1)] 0 true (.vfldx ⟨c.mx, fld w 6 1, fld w 20 6, fld w 14 6, fld w 8 6⟩)
  | _ => .error .reservedFn

/-- Major 0x04 of R267: the form chosen by its fn field; a value no entry assigns is reserved. -/
def decodeVsfu (c : Carry) (w : Nat) : Except DecodeError Instr :=
  match fld w 0 6 with
  | 0 => fin c w [(6, 2)] 0 true (.vex2s ⟨c.mx, fld w 20 6, fld w 14 6, fld w 8 6⟩)
  | 1 => fin c w [(8, 6), (6, 2)] 0 true (.vlg2 ⟨c.mx, fld w 20 6, fld w 14 6, fld w 8 6⟩)
  | 2 => fin c w [(7, 1), (8, 6)] 0 true (.vrcp ⟨c.mx, fld w 6 1, fld w 20 6, fld w 14 6, fld w 8 6⟩)
  | 3 => fin c w [(7, 1), (8, 6)] 0 true (.vrsq ⟨c.mx, fld w 6 1, fld w 20 6, fld w 14 6, fld w 8 6⟩)
  | 4 => fin c w [(8, 6), (6, 2)] 0 true (.vsin ⟨c.mx, fld w 20 6, fld w 14 6, fld w 8 6⟩)
  | 5 => fin c w [(8, 6), (6, 2)] 0 true (.vcos ⟨c.mx, fld w 20 6, fld w 14 6, fld w 8 6⟩)
  | _ => .error .reservedFn

/-- Major 0x05 of R267: the form chosen by its fn field; a value no entry assigns is reserved. -/
def decodeVcvt (c : Carry) (w : Nat) : Except DecodeError Instr :=
  match fld w 6 2 with
  | 0 => fin c w [(8, 6)] 0 true (.vcvt ⟨c.mx, fld w 20 6, fld w 14 6, 0, fld w 3 3, fld w 0 3⟩)
  | 1 => fin c w [(0, 2)] 0 true (.vpack ⟨c.mx, fld w 20 6, fld w 14 6, fld w 8 6, fld w 3 3, fld w 2 1⟩)
  | 2 => fin c w [(8, 6), (0, 1)] 0 true (.vunpk ⟨c.mx, fld w 20 6, fld w 14 6, 0, fld w 3 3, fld w 1 2⟩)
  | 3 => fin c w [(3, 3)] 0 true (.vdeq ⟨c.mx, fld w 20 6, fld w 14 6, fld w 8 6, fld w 3 3, fld w 0 3⟩)
  | _ => .error .reservedFn

/-- Major 0x06 of R267: the form chosen by its fn field; a value no entry assigns is reserved. -/
def decodeVcmp (c : Carry) (w : Nat) : Except DecodeError Instr :=
  match fld w 7 1 with
  | 0 => fin c w [] 0 true (.vcmp ⟨c.mx, fld w 5 2, fld w 20 6, fld w 14 6, fld w 8 6, fld w 0 5⟩)
  | _ => if fld w 6 1 = 0 then fin c w [] 0 true (.vfcmp ⟨c.mx, fld w 5 1, fld w 20 6, fld w 14 6, fld w 8 6, fld w 0 5⟩) else .error .reservedFn

/-- Major 0x07 of R267: the form chosen by its fn field; a value no entry assigns is reserved. -/
def decodeVxl (c : Carry) (w : Nat) : Except DecodeError Instr :=
  match fld w 0 5 with
  | 0 => fin c w [(5, 1), (7, 1)] 0 true (.vshf ⟨c.mx, fld w 6 1, fld w 20 6, fld w 14 6, fld w 8 6⟩)
  | 1 => fin c w [(5, 1), (7, 1)] 0 true (.vshfu ⟨c.mx, fld w 6 1, fld w 20 6, fld w 14 6, fld w 8 6⟩)
  | 2 => fin c w [(5, 1), (7, 1)] 0 true (.vshfd ⟨c.mx, fld w 6 1, fld w 20 6, fld w 14 6, fld w 8 6⟩)
  | 3 => fin c w [(5, 1), (7, 1)] 0 true (.vshfx ⟨c.mx, fld w 6 1, fld w 20 6, fld w 14 6, fld w 8 6⟩)
  | 4 => fin c w [(8, 6), (5, 3)] 0 true (.vvoteAny ⟨c.mx, fld w 20 6, fld w 14 6, fld w 8 6⟩)
  | 5 => fin c w [(8, 6), (5, 3)] 0 true (.vvoteAll ⟨c.mx, fld w 20 6, fld w 14 6, fld w 8 6⟩)
  | 6 => fin c w [(8, 6), (5, 3)] 0 true (.vvoteUni ⟨c.mx, fld w 20 6, fld w 14 6, fld w 8 6⟩)
  | 7 => fin c w [(8, 6), (5, 3)] 0 true (.vvoteBal ⟨c.mx, fld w 20 6, fld w 14 6, fld w 8 6⟩)
  | 8 => fin c w [(8, 6), (5, 3)] 0 true (.vvoteCnt ⟨c.mx, fld w 20 6, fld w 14 6, fld w 8 6⟩)
  | 9 => fin c w [(8, 6)] 0 true (.vrsum ⟨c.mx, fld w 5 3, fld w 20 6, fld w 14 6, fld w 8 6⟩)
  | 10 => fin c w [(8, 6)] 0 true (.vrmin ⟨c.mx, fld w 5 3, fld w 20 6, fld w 14 6, fld w 8 6⟩)
  | 11 => fin c w [(8, 6)] 0 true (.vrmax ⟨c.mx, fld w 5 3, fld w 20 6, fld w 14 6, fld w 8 6⟩)
  | 12 => fin c w [(8, 6)] 0 true (.vscanAdd ⟨c.mx, fld w 5 3, fld w 20 6, fld w 14 6, fld w 8 6⟩)
  | 13 => fin c w [(8, 6)] 0 true (.vscanMin ⟨c.mx, fld w 5 3, fld w 20 6, fld w 14 6, fld w 8 6⟩)
  | 14 => fin c w [(8, 6)] 0 true (.vscanMax ⟨c.mx, fld w 5 3, fld w 20 6, fld w 14 6, fld w 8 6⟩)
  | _ => .error .reservedFn

/-- Major 0x08 of R267: the form chosen by its fn field; a value no entry assigns is reserved. -/
def decodeVmsk (c : Carry) (w : Nat) : Except DecodeError Instr :=
  match fld w 0 8 with
  | 0 => fin c w [] 0 true (.mand ⟨c.mx, fld w 20 6, fld w 14 6, fld w 8 6⟩)
  | 1 => fin c w [] 0 true (.mor ⟨c.mx, fld w 20 6, fld w 14 6, fld w 8 6⟩)
  | 2 => fin c w [] 0 true (.mxor ⟨c.mx, fld w 20 6, fld w 14 6, fld w 8 6⟩)
  | 3 => fin c w [(8, 6)] 0 true (.mnot ⟨c.mx, fld w 20 6, fld w 14 6, fld w 8 6⟩)
  | 4 => fin c w [] 0 true (.mcnt ⟨c.mx, fld w 20 6, fld w 14 6, fld w 8 6⟩)
  | 5 => fin c w [] 0 true (.mffs ⟨c.mx, fld w 20 6, fld w 14 6, fld w 8 6⟩)
  | 6 => fin c w [(8, 6)] 0 true (.mmovMm ⟨c.mx, fld w 20 6, fld w 14 6, fld w 8 6⟩)
  | 7 => fin c w [(8, 6)] 0 true (.mmovMs ⟨c.mx, fld w 20 6, fld w 14 6, fld w 8 6⟩)
  | 8 => fin c w [(8, 6)] 0 true (.mmovSm ⟨c.mx, fld w 20 6, fld w 14 6, fld w 8 6⟩)
  | 9 => fin c w [(8, 6)] 0 true (.mset ⟨c.mx, fld w 20 6, fld w 14 6, fld w 8 6⟩)
  | 16 => fin c w [(8, 6)] 0 true (.vmovW32 ⟨c.mx, fld w 20 6, fld w 14 6, fld w 8 6⟩)
  | 17 => fin c w [(8, 6)] 0 true (.vmovW64 ⟨c.mx, fld w 20 6, fld w 14 6, fld w 8 6⟩)
  | 18 => fin c w [(8, 6)] 0 true (.vbcstW32 ⟨c.mx, fld w 20 6, fld w 14 6, fld w 8 6⟩)
  | 19 => fin c w [(8, 6)] 0 true (.vbcstW64 ⟨c.mx, fld w 20 6, fld w 14 6, fld w 8 6⟩)
  | 20 => fin c w [] 0 true (.vselW32 ⟨c.mx, fld w 20 6, fld w 14 6, fld w 8 6⟩)
  | 21 => fin c w [] 0 true (.vselW64 ⟨c.mx, fld w 20 6, fld w 14 6, fld w 8 6⟩)
  | 22 => fin c w [(14, 6), (8, 6)] 0 true (.vlane ⟨c.mx, fld w 20 6, fld w 14 6, fld w 8 6⟩)
  | 23 => fin c w [] 0 false (.vgetW32 ⟨c.mx, fld w 20 6, fld w 14 6, fld w 8 6⟩)
  | 24 => fin c w [] 0 false (.vgetW64 ⟨c.mx, fld w 20 6, fld w 14 6, fld w 8 6⟩)
  | 25 => fin c w [] 0 true (.vputW32 ⟨c.mx, fld w 20 6, fld w 14 6, fld w 8 6⟩)
  | 26 => fin c w [] 0 true (.vputW64 ⟨c.mx, fld w 20 6, fld w 14 6, fld w 8 6⟩)
  | _ => .error .reservedFn

/-- Major 0x09 of R267: the form chosen by its fn field; a value no entry assigns is reserved. -/
def decodeSint (c : Carry) (w : Nat) : Except DecodeError Instr :=
  match fld w 0 6 with
  | 0 => fin c w [] 0 true (.sadd ⟨c.mx, fld w 6 2, fld w 20 6, fld w 14 6, fld w 8 6⟩)
  | 1 => fin c w [] 0 true (.ssub ⟨c.mx, fld w 6 2, fld w 20 6, fld w 14 6, fld w 8 6⟩)
  | 2 => fin c w [] 0 true (.smul ⟨c.mx, fld w 6 2, fld w 20 6, fld w 14 6, fld w 8 6⟩)
  | 3 => fin c w [] 0 false (.smulh ⟨c.mx, fld w 6 2, fld w 20 6, fld w 14 6, fld w 8 6⟩)
  | 4 => fin c w [] 0 false (.sdiv ⟨c.mx, fld w 6 2, fld w 20 6, fld w 14 6, fld w 8 6⟩)
  | 5 => fin c w [] 0 false (.srem ⟨c.mx, fld w 6 2, fld w 20 6, fld w 14 6, fld w 8 6⟩)
  | 6 => fin c w [] 0 false (.sand ⟨c.mx, fld w 6 2, fld w 20 6, fld w 14 6, fld w 8 6⟩)
  | 7 => fin c w [] 0 false (.sor ⟨c.mx, fld w 6 2, fld w 20 6, fld w 14 6, fld w 8 6⟩)
  | 8 => fin c w [] 0 false (.sxor ⟨c.mx, fld w 6 2, fld w 20 6, fld w 14 6, fld w 8 6⟩)
  | 9 => fin c w [] 0 true (.sshl ⟨c.mx, fld w 6 2, fld w 20 6, fld w 14 6, fld w 8 6⟩)
  | 10 => fin c w [] 0 false (.sshr ⟨c.mx, fld w 6 2, fld w 20 6, fld w 14 6, fld w 8 6⟩)
  | 11 => fin c w [] 0 false (.ssra ⟨c.mx, fld w 6 2, fld w 20 6, fld w 14 6, fld w 8 6⟩)
  | 12 => fin c w [] 0 false (.smin ⟨c.mx, fld w 6 2, fld w 20 6, fld w 14 6, fld w 8 6⟩)
  | 13 => fin c w [] 0 false (.smax ⟨c.mx, fld w 6 2, fld w 20 6, fld w 14 6, fld w 8 6⟩)
  | 14 => fin c w [(8, 6)] 0 false (.sclz ⟨c.mx, fld w 6 2, fld w 20 6, fld w 14 6, fld w 8 6⟩)
  | 15 => fin c w [(8, 6)] 0 false (.spopc ⟨c.mx, fld w 6 2, fld w 20 6, fld w 14 6, fld w 8 6⟩)
  | 16 => fin c w [] 0 false (.scmp ⟨c.mx, fld w 6 2, fld w 20 6, fld w 14 6, fld w 8 6, fld w 0 3⟩)
  | 17 => fin c w [] 0 false (.scmp ⟨c.mx, fld w 6 2, fld w 20 6, fld w 14 6, fld w 8 6, fld w 0 3⟩)
  | 18 => fin c w [] 0 false (.scmp ⟨c.mx, fld w 6 2, fld w 20 6, fld w 14 6, fld w 8 6, fld w 0 3⟩)
  | 19 => fin c w [] 0 false (.scmp ⟨c.mx, fld w 6 2, fld w 20 6, fld w 14 6, fld w 8 6, fld w 0 3⟩)
  | 20 => fin c w [] 0 false (.scmp ⟨c.mx, fld w 6 2, fld w 20 6, fld w 14 6, fld w 8 6, fld w 0 3⟩)
  | 21 => fin c w [] 0 false (.scmp ⟨c.mx, fld w 6 2, fld w 20 6, fld w 14 6, fld w 8 6, fld w 0 3⟩)
  | 22 => fin c w [] 0 true (.ssel ⟨c.mx, fld w 6 2, fld w 20 6, fld w 14 6, fld w 8 6⟩)
  | 23 => fin c w [(8, 6)] 0 false (.smov ⟨c.mx, fld w 6 2, fld w 20 6, fld w 14 6, fld w 8 6⟩)
  | 24 => fin c w [] 0 false (.slea ⟨c.mx, fld w 6 2, fld w 20 6, fld w 14 6, fld w 8 6, fld w 0 3⟩)
  | 25 => fin c w [] 0 false (.slea ⟨c.mx, fld w 6 2, fld w 20 6, fld w 14 6, fld w 8 6, fld w 0 3⟩)
  | 26 => fin c w [] 0 false (.slea ⟨c.mx, fld w 6 2, fld w 20 6, fld w 14 6, fld w 8 6, fld w 0 3⟩)
  | 27 => fin c w [] 0 false (.slea ⟨c.mx, fld w 6 2, fld w 20 6, fld w 14 6, fld w 8 6, fld w 0 3⟩)
  | 28 => fin c w [] 0 false (.slea ⟨c.mx, fld w 6 2, fld w 20 6, fld w 14 6, fld w 8 6, fld w 0 3⟩)
  | _ => .error .reservedFn

/-- Major 0x0A of R267: the form chosen by its fn field; a value no entry assigns is reserved. -/
def decodeSinti (c : Carry) (w : Nat) : Except DecodeError Instr :=
  match fld w 10 4 with
  | 0 => fin c w [] 2 true (.saddS32Imm ⟨c.mx, fld w 20 6, fld w 14 6, c.immS w 10⟩)
  | 1 => fin c w [] 2 true (.smulS32Imm ⟨c.mx, fld w 20 6, fld w 14 6, c.immS w 10⟩)
  | 2 => fin c w [] 2 false (.sandS32Imm ⟨c.mx, fld w 20 6, fld w 14 6, c.immS w 10⟩)
  | 3 => fin c w [] 2 false (.sorS32Imm ⟨c.mx, fld w 20 6, fld w 14 6, c.immS w 10⟩)
  | 4 => fin c w [] 2 false (.sxorS32Imm ⟨c.mx, fld w 20 6, fld w 14 6, c.immS w 10⟩)
  | 5 => fin c w [] 2 true (.sshlS32Imm ⟨c.mx, fld w 20 6, fld w 14 6, c.immS w 10⟩)
  | 6 => fin c w [] 2 false (.sshrS32Imm ⟨c.mx, fld w 20 6, fld w 14 6, c.immS w 10⟩)
  | 7 => fin c w [] 2 false (.ssraS32Imm ⟨c.mx, fld w 20 6, fld w 14 6, c.immS w 10⟩)
  | 8 => fin c w [] 2 false (.sminS32Imm ⟨c.mx, fld w 20 6, fld w 14 6, c.immS w 10⟩)
  | 9 => fin c w [] 2 false (.smaxS32Imm ⟨c.mx, fld w 20 6, fld w 14 6, c.immS w 10⟩)
  | 10 => fin c w [] 2 false (.sminN32Imm ⟨c.mx, fld w 20 6, fld w 14 6, c.immS w 10⟩)
  | 11 => fin c w [] 2 false (.smaxN32Imm ⟨c.mx, fld w 20 6, fld w 14 6, c.immS w 10⟩)
  | 12 => fin c w [] 2 false (.scmpEqS32Imm ⟨c.mx, fld w 20 6, fld w 14 6, c.immS w 10⟩)
  | 13 => fin c w [] 2 false (.scmpLtS32Imm ⟨c.mx, fld w 20 6, fld w 14 6, c.immS w 10⟩)
  | 14 => fin c w [] 2 false (.scmpLtN32Imm ⟨c.mx, fld w 20 6, fld w 14 6, c.immS w 10⟩)
  | 15 => fin c w [] 2 true (.saddS64Imm ⟨c.mx, fld w 20 6, fld w 14 6, c.immS w 10⟩)
  | _ => .error .reservedFn

/-- Major 0x0B of R267: the form chosen by its fn field; a value no entry assigns is reserved. -/
def decodeSflt (c : Carry) (w : Nat) : Except DecodeError Instr :=
  match fld w 7 1 with
  | 0 =>
    (match fld w 0 6 with
    | 0 => fin c w [(7, 1)] 0 true (.sfadd ⟨c.mx, fld w 6 1, fld w 20 6, fld w 14 6, fld w 8 6⟩)
    | 1 => fin c w [(7, 1)] 0 true (.sfmul ⟨c.mx, fld w 6 1, fld w 20 6, fld w 14 6, fld w 8 6⟩)
    | 2 => fin c w [(7, 1)] 0 true (.sffma ⟨c.mx, fld w 6 1, fld w 20 6, fld w 14 6, fld w 8 6⟩)
    | 8 => fin c w [(7, 1)] 0 false (.sfcmp ⟨c.mx, fld w 6 1, fld w 20 6, fld w 14 6, fld w 8 6, fld w 0 3⟩)
    | 9 => fin c w [(7, 1)] 0 false (.sfcmp ⟨c.mx, fld w 6 1, fld w 20 6, fld w 14 6, fld w 8 6, fld w 0 3⟩)
    | 10 => fin c w [(7, 1)] 0 false (.sfcmp ⟨c.mx, fld w 6 1, fld w 20 6, fld w 14 6, fld w 8 6, fld w 0 3⟩)
    | 11 => fin c w [(7, 1)] 0 false (.sfcmp ⟨c.mx, fld w 6 1, fld w 20 6, fld w 14 6, fld w 8 6, fld w 0 3⟩)
    | 12 => fin c w [(7, 1)] 0 false (.sfcmp ⟨c.mx, fld w 6 1, fld w 20 6, fld w 14 6, fld w 8 6, fld w 0 3⟩)
    | 13 => fin c w [(7, 1)] 0 false (.sfcmp ⟨c.mx, fld w 6 1, fld w 20 6, fld w 14 6, fld w 8 6, fld w 0 3⟩)
    | 14 => fin c w [(7, 1)] 0 false (.sfcmp ⟨c.mx, fld w 6 1, fld w 20 6, fld w 14 6, fld w 8 6, fld w 0 3⟩)
    | 15 => fin c w [(7, 1)] 0 false (.sfcmp ⟨c.mx, fld w 6 1, fld w 20 6, fld w 14 6, fld w 8 6, fld w 0 3⟩)
    | _ => .error .reservedFn)
  | _ => if fld w 6 1 = 0 then fin c w [(8, 6)] 0 true (.sfcvt ⟨c.mx, fld w 20 6, fld w 14 6, 0, fld w 3 3, fld w 0 3⟩) else .error .reservedFn

/-- Major 0x0C of R267: the form chosen by its fn field; a value no entry assigns is reserved. -/
def decodeLi (c : Carry) (w : Nat) : Except DecodeError Instr :=
  match fld w 18 2 with
  | 0 => fin c w [] 2 false (.sli ⟨fld w 20 6, c.imx.length == 2, c.immS w 18⟩)
  | 1 => fin c w [(20, 6)] 2 false (.setxv (c.immU w 18))
  | 2 => fin c w [(20, 6)] 2 false (.setxs (c.immU w 18))
  | 3 => fin c w [] 2 false (.rdx (fld w 20 6) (c.immU w 18))
  | _ => .error .reservedFn

/-- Major 0x17 of R267: the form chosen by its fn field; a value no entry assigns is reserved. -/
def decodeVatm (c : Carry) (w : Nat) : Except DecodeError Instr :=
  match fld w 0 4 with
  | 0 => fin c w [] 0 true (.vatmSwap ⟨c.mx, fld w 20 6, fld w 14 6, fld w 8 6, fld w 5 3, fld w 4 1 == 1⟩)
  | 1 => fin c w [] 0 true (.vatmAdd ⟨c.mx, fld w 20 6, fld w 14 6, fld w 8 6, fld w 5 3, fld w 4 1 == 1⟩)
  | 2 => fin c w [] 0 true (.vatmAnd ⟨c.mx, fld w 20 6, fld w 14 6, fld w 8 6, fld w 5 3, fld w 4 1 == 1⟩)
  | 3 => fin c w [] 0 true (.vatmOr ⟨c.mx, fld w 20 6, fld w 14 6, fld w 8 6, fld w 5 3, fld w 4 1 == 1⟩)
  | 4 => fin c w [] 0 true (.vatmXor ⟨c.mx, fld w 20 6, fld w 14 6, fld w 8 6, fld w 5 3, fld w 4 1 == 1⟩)
  | 5 => fin c w [] 0 true (.vatmMins ⟨c.mx, fld w 20 6, fld w 14 6, fld w 8 6, fld w 5 3, fld w 4 1 == 1⟩)
  | 6 => fin c w [] 0 true (.vatmMaxs ⟨c.mx, fld w 20 6, fld w 14 6, fld w 8 6, fld w 5 3, fld w 4 1 == 1⟩)
  | 7 => fin c w [] 0 true (.vatmMinn ⟨c.mx, fld w 20 6, fld w 14 6, fld w 8 6, fld w 5 3, fld w 4 1 == 1⟩)
  | 8 => fin c w [] 0 true (.vatmMaxn ⟨c.mx, fld w 20 6, fld w 14 6, fld w 8 6, fld w 5 3, fld w 4 1 == 1⟩)
  | 9 => fin c w [] 0 true (.vatmFadd ⟨c.mx, fld w 20 6, fld w 14 6, fld w 8 6, fld w 5 3, fld w 4 1 == 1⟩)
  | 15 => fin c w [] 0 true (.vcas ⟨c.mx, fld w 20 6, fld w 14 6, fld w 8 6, fld w 5 3, fld w 4 1 == 1⟩)
  | _ => .error .reservedFn

/-- Major 0x18 of R267: the form chosen by its fn field; a value no entry assigns is reserved. -/
def decodeSatm (c : Carry) (w : Nat) : Except DecodeError Instr :=
  match fld w 0 4 with
  | 0 => fin c w [] 0 true (.satmSwap ⟨c.mx, fld w 20 6, fld w 14 6, fld w 8 6, fld w 5 3, fld w 4 1 == 1⟩)
  | 1 => fin c w [] 0 true (.satmAdd ⟨c.mx, fld w 20 6, fld w 14 6, fld w 8 6, fld w 5 3, fld w 4 1 == 1⟩)
  | 2 => fin c w [] 0 true (.satmAnd ⟨c.mx, fld w 20 6, fld w 14 6, fld w 8 6, fld w 5 3, fld w 4 1 == 1⟩)
  | 3 => fin c w [] 0 true (.satmOr ⟨c.mx, fld w 20 6, fld w 14 6, fld w 8 6, fld w 5 3, fld w 4 1 == 1⟩)
  | 4 => fin c w [] 0 true (.satmXor ⟨c.mx, fld w 20 6, fld w 14 6, fld w 8 6, fld w 5 3, fld w 4 1 == 1⟩)
  | 5 => fin c w [] 0 true (.satmMins ⟨c.mx, fld w 20 6, fld w 14 6, fld w 8 6, fld w 5 3, fld w 4 1 == 1⟩)
  | 6 => fin c w [] 0 true (.satmMaxs ⟨c.mx, fld w 20 6, fld w 14 6, fld w 8 6, fld w 5 3, fld w 4 1 == 1⟩)
  | 7 => fin c w [] 0 true (.satmMinn ⟨c.mx, fld w 20 6, fld w 14 6, fld w 8 6, fld w 5 3, fld w 4 1 == 1⟩)
  | 8 => fin c w [] 0 true (.satmMaxn ⟨c.mx, fld w 20 6, fld w 14 6, fld w 8 6, fld w 5 3, fld w 4 1 == 1⟩)
  | 9 => fin c w [] 0 true (.satmFadd ⟨c.mx, fld w 20 6, fld w 14 6, fld w 8 6, fld w 5 3, fld w 4 1 == 1⟩)
  | 15 => fin c w [] 0 true (.scas ⟨c.mx, fld w 20 6, fld w 14 6, fld w 8 6, fld w 5 3, fld w 4 1 == 1⟩)
  | _ => .error .reservedFn

/-- Major 0x1B of R267: the form chosen by its fn field; a value no entry assigns is reserved. -/
def decodeSyncWords (c : Carry) (w : Nat) : Except DecodeError Instr :=
  match fld w 20 6 with
  | 0 => fin c w [(0, 2), (2, 6)] 0 false (.swini (fld w 14 6) (fld w 8 6))
  | 1 => fin c w [(0, 2)] 0 false (.swexp (fld w 14 6) (fld w 8 6) (fld w 2 6))
  | 2 => fin c w [(0, 2), (2, 6)] 0 false (.swwt (fld w 14 6) (fld w 8 6))
  | _ => .error .reservedFn

/-- Major 0x1C of R267: the form chosen by its fn field; a value no entry assigns is reserved. -/
def decodeBarriers (c : Carry) (w : Nat) : Except DecodeError Instr :=
  match fld w 20 6 with
  | 0 => fin c w [(8, 6)] 0 false (.bara (fld w 14 6) (fld w 0 8))
  | 1 => fin c w [(8, 6)] 0 false (.barw (fld w 14 6) (fld w 0 8))
  | 2 => fin c w [(14, 6), (8, 6)] 0 false (.bars (fld w 0 8))
  | 3 => fin c w [(8, 6)] 0 false (.grpq (fld w 14 6) (fld w 0 8))
  | _ => .error .reservedFn

/-- Major 0x1D of R267: the form chosen by its fn field; a value no entry assigns is reserved. -/
def decodeGang (c : Carry) (w : Nat) : Except DecodeError Instr :=
  match fld w 20 6 with
  | 0 => fin c w [(14, 6), (8, 6)] 0 false (.regang (fld w 0 8))
  | 2 => fin c w [(0, 6)] 0 false (.nap (fld w 14 6) (fld w 12 2) (fld w 6 6))
  | 1 => fin c w [(14, 6), (0, 14)] 0 false (.yield)
  | _ => .error .reservedFn

/-- Major 0x1E of R267: the form chosen by its fn field; a value no entry assigns is reserved. -/
def decodeBranch (c : Carry) (w : Nat) : Except DecodeError Instr :=
  match fld w 23 3 with
  | 0 => fin c w [(17, 6)] 2 false (.bru (c.immS w 17))
  | 1 => fin c w [] 2 false (.bruZ (fld w 17 6) (c.immS w 17))
  | 2 => fin c w [] 2 false (.bruNz (fld w 17 6) (c.immS w 17))
  | 3 => fin c w [] 2 false (.bruLt (fld w 17 6) (c.immS w 17))
  | 4 => fin c w [] 2 false (.bruGe (fld w 17 6) (c.immS w 17))
  | 5 => fin c w [] 2 false (.call (fld w 17 6) (c.immS w 17))
  | _ => .error .reservedFn

/-- Major 0x20 of R267: the form chosen by its fn field; a value no entry assigns is reserved. -/
def decodeJoin (c : Carry) (w : Nat) : Except DecodeError Instr :=
  match fld w 20 6 with
  | 1 => fin c w [(0, 14)] 0 false (.jmpr (fld w 14 6))
  | 0 => fin c w [(14, 6), (0, 14)] 0 false (.join)
  | _ => .error .reservedFn

/-- Major 0x21 of R267: the form chosen by its fn field; a value no entry assigns is reserved. -/
def decodeTasks (c : Carry) (w : Nat) : Except DecodeError Instr :=
  match fld w 20 6 with
  | 0 => fin c w [] 2 false (.tbeg (fld w 14 6) (c.immS w 14))
  | 1 => fin c w [] 2 false (.tbegIdem (fld w 14 6) (c.immS w 14))
  | 3 => fin c w [(14, 6)] 0 false (.tabt (fld w 0 14))
  | 2 => fin c w [(14, 6), (0, 14)] 0 false (.tend)
  | _ => .error .reservedFn

/-- Major 0x22 of R267: the form chosen by its fn field; a value no entry assigns is reserved. -/
def decodeSys (c : Carry) (w : Nat) : Except DecodeError Instr :=
  match fld w 20 6 with
  | 0 => fin c w [(14, 6)] 0 false (.trap (fld w 0 14))
  | 2 => fin c w [(0, 14)] 0 false (.tclr (fld w 14 6))
  | 3 => fin c w [(14, 6)] 0 false (.brk (fld w 0 14))
  | 1 => fin c w [(14, 6), (0, 14)] 0 false (.tret)
  | 4 => fin c w [(14, 6), (0, 14)] 0 false (.nop)
  | _ => .error .reservedFn

/-- Major 0x23 of R267: the form chosen by its fn field; a value no entry assigns is reserved. -/
def decodeCsr (c : Carry) (w : Nat) : Except DecodeError Instr :=
  match fld w 20 6 with
  | 0 => fin c w [(12, 2)] 0 false (.csrr (fld w 14 6) (fld w 0 12))
  | 1 => fin c w [(12, 2)] 0 false (.csrw (fld w 14 6) (fld w 0 12))
  | 2 => fin c w [(12, 2)] 0 false (.csrs (fld w 14 6) (fld w 0 12))
  | 3 => fin c w [(12, 2)] 0 false (.csrc (fld w 14 6) (fld w 0 12))
  | _ => .error .reservedFn

/-- Major 0x24 of R267: the form chosen by its fn field; a value no entry assigns is reserved. -/
def decodeCopy (c : Carry) (w : Nat) : Except DecodeError Instr :=
  match fld w 20 6 with
  | 0 => fin c w [] 0 false (.cpy ⟨fld w 14 6, fld w 8 6, fld w 2 6, fld w 0 1 == 1, fld w 1 1 == 1⟩)
  | 1 => fin c w [] 0 false (.cpy2 ⟨fld w 14 6, fld w 8 6, fld w 2 6, fld w 0 1 == 1, fld w 1 1 == 1⟩)
  | 2 => fin c w [] 0 false (.cpyg ⟨fld w 14 6, fld w 8 6, fld w 2 6, fld w 0 1 == 1, fld w 1 1 == 1⟩)
  | 3 => fin c w [] 0 false (.cpyp ⟨fld w 14 6, fld w 8 6, fld w 2 6, fld w 0 1 == 1, fld w 1 1 == 1⟩)
  | 4 => fin c w [] 0 false (.cpyq ⟨fld w 14 6, fld w 8 6, fld w 2 6, fld w 0 1 == 1, fld w 1 1 == 1⟩)
  | 5 => fin c w [(0, 14)] 0 false (.cprel (fld w 14 6))
  | _ => .error .reservedFn

/-- Major 0x25 of R267: the form chosen by its fn field; a value no entry assigns is reserved. -/
def decodeBin (c : Carry) (w : Nat) : Except DecodeError Instr :=
  match fld w 20 6 with
  | 0 => fin c w [(0, 8)] 0 false (.bincl (fld w 14 6) (fld w 8 6))
  | 1 => fin c w [(0, 8)] 0 false (.binad (fld w 14 6) (fld w 8 6))
  | 2 => fin c w [(0, 8)] 0 false (.binrd (fld w 14 6) (fld w 8 6))
  | _ => .error .reservedFn

/-- Major 0x26 of R267: the form chosen by its fn field; a value no entry assigns is reserved. -/
def decodeTile (c : Carry) (w : Nat) : Except DecodeError Instr :=
  match fld w 20 6 with
  | 0 => fin c w [] 0 false (.twld ⟨fld w 14 6, fld w 8 6, fld w 2 6, fld w 0 1 == 1, fld w 1 1 == 1⟩)
  | 1 => fin c w [] 0 false (.tmul ⟨fld w 14 6, fld w 8 6, fld w 2 6, fld w 0 1 == 1, fld w 1 1 == 1⟩)
  | 2 => fin c w [] 0 false (.tmulX4 ⟨fld w 14 6, fld w 8 6, fld w 2 6, fld w 0 1 == 1, fld w 1 1 == 1⟩)
  | 3 => fin c w [] 0 false (.tmuls ⟨fld w 14 6, fld w 8 6, fld w 2 6, fld w 0 1 == 1, fld w 1 1 == 1⟩)
  | 4 => fin c w [] 0 false (.tzero ⟨fld w 14 6, fld w 8 6, fld w 2 6, fld w 0 1 == 1, fld w 1 1 == 1⟩)
  | 5 => fin c w [] 0 false (.trd ⟨fld w 14 6, fld w 8 6, fld w 2 6, fld w 0 1 == 1, fld w 1 1 == 1⟩)
  | _ => .error .reservedFn

/-- Major 0x27 of R267: the form chosen by its fn field; a value no entry assigns is reserved. -/
def decodeAttention (c : Carry) (w : Nat) : Except DecodeError Instr :=
  match fld w 20 6 with
  | 0 => fin c w [] 0 false (.aplnk ⟨fld w 14 6, fld w 8 6, fld w 2 6, fld w 0 1 == 1, fld w 1 1 == 1⟩)
  | 1 => fin c w [] 0 false (.apref ⟨fld w 14 6, fld w 8 6, fld w 2 6, fld w 0 1 == 1, fld w 1 1 == 1⟩)
  | 2 => fin c w [] 0 false (.attn ⟨fld w 14 6, fld w 8 6, fld w 2 6, fld w 0 1 == 1, fld w 1 1 == 1⟩)
  | 3 => fin c w [] 0 false (.amrg ⟨fld w 14 6, fld w 8 6, fld w 2 6, fld w 0 1 == 1, fld w 1 1 == 1⟩)
  | 4 => fin c w [] 0 false (.arcp ⟨fld w 14 6, fld w 8 6, fld w 2 6, fld w 0 1 == 1, fld w 1 1 == 1⟩)
  | _ => .error .reservedFn

/-- Major 0x28 of R267: the form chosen by its fn field; a value no entry assigns is reserved. -/
def decodeStateStore (c : Carry) (w : Nat) : Except DecodeError Instr :=
  match fld w 20 6 with
  | 0 => fin c w [] 0 false (.ssopn ⟨fld w 14 6, fld w 8 6, fld w 2 6, fld w 0 1 == 1, fld w 1 1 == 1⟩)
  | 1 => fin c w [] 0 false (.ssld ⟨fld w 14 6, fld w 8 6, fld w 2 6, fld w 0 1 == 1, fld w 1 1 == 1⟩)
  | 2 => fin c w [] 0 false (.sssv ⟨fld w 14 6, fld w 8 6, fld w 2 6, fld w 0 1 == 1, fld w 1 1 == 1⟩)
  | 3 => fin c w [] 0 false (.ssrbk ⟨fld w 14 6, fld w 8 6, fld w 2 6, fld w 0 1 == 1, fld w 1 1 == 1⟩)
  | 4 => fin c w [] 0 false (.ssfrk ⟨fld w 14 6, fld w 8 6, fld w 2 6, fld w 0 1 == 1, fld w 1 1 == 1⟩)
  | 5 => fin c w [] 0 false (.ssqry ⟨fld w 14 6, fld w 8 6, fld w 2 6, fld w 0 1 == 1, fld w 1 1 == 1⟩)
  | _ => .error .reservedFn

/-- Major 0x29 of R267: the form chosen by its fn field; a value no entry assigns is reserved. -/
def decodeObject (c : Carry) (w : Nat) : Except DecodeError Instr :=
  match fld w 20 6 with
  | 0 => fin c w [] 0 false (.oalc ⟨fld w 14 6, fld w 8 6, fld w 2 6, fld w 0 1 == 1, fld w 1 1 == 1⟩)
  | 1 => fin c w [] 0 false (.ofre ⟨fld w 14 6, fld w 8 6, fld w 2 6, fld w 0 1 == 1, fld w 1 1 == 1⟩)
  | 2 => fin c w [] 0 false (.oloc ⟨fld w 14 6, fld w 8 6, fld w 2 6, fld w 0 1 == 1, fld w 1 1 == 1⟩)
  | 3 => fin c w [] 0 false (.opin ⟨fld w 14 6, fld w 8 6, fld w 2 6, fld w 0 1 == 1, fld w 1 1 == 1⟩)
  | 4 => fin c w [] 0 false (.ounp ⟨fld w 14 6, fld w 8 6, fld w 2 6, fld w 0 1 == 1, fld w 1 1 == 1⟩)
  | 5 => fin c w [] 0 false (.ocol ⟨fld w 14 6, fld w 8 6, fld w 2 6, fld w 0 1 == 1, fld w 1 1 == 1⟩)
  | 6 => fin c w [] 0 false (.omig ⟨fld w 14 6, fld w 8 6, fld w 2 6, fld w 0 1 == 1, fld w 1 1 == 1⟩)
  | 7 => fin c w [] 0 false (.ocln ⟨fld w 14 6, fld w 8 6, fld w 2 6, fld w 0 1 == 1, fld w 1 1 == 1⟩)
  | _ => .error .reservedFn

/-- Major 0x2A of R267: the form chosen by its fn field; a value no entry assigns is reserved. -/
def decodeCollective (c : Carry) (w : Nat) : Except DecodeError Instr :=
  match fld w 20 6 with
  | 0 => fin c w [] 0 false (.ored ⟨fld w 14 6, fld w 8 6, fld w 2 6, fld w 0 1 == 1, fld w 1 1 == 1⟩)
  | 1 => fin c w [] 0 false (.obar ⟨fld w 14 6, fld w 8 6, fld w 2 6, fld w 0 1 == 1, fld w 1 1 == 1⟩)
  | _ => .error .reservedFn

/-- Major 0x2B of R267: the form chosen by its fn field; a value no entry assigns is reserved. -/
def decodeRecovery (c : Carry) (w : Nat) : Except DecodeError Instr :=
  match fld w 20 6 with
  | 0 => fin c w [] 0 false (.rcomm ⟨fld w 14 6, fld w 8 6, fld w 2 6, fld w 0 1 == 1, fld w 1 1 == 1⟩)
  | 1 => fin c w [] 0 false (.rcqry ⟨fld w 14 6, fld w 8 6, fld w 2 6, fld w 0 1 == 1, fld w 1 1 == 1⟩)
  | 2 => fin c w [] 0 false (.rcver ⟨fld w 14 6, fld w 8 6, fld w 2 6, fld w 0 1 == 1, fld w 1 1 == 1⟩)
  | _ => .error .reservedFn

/-- The base word of a bundle under its carry words, by the major opcode map of R267. -/
def decodeBase (c : Carry) (w : Nat) : Except DecodeError Instr :=
  if w = 0 then .error .zeroWord else
  match fld w 26 6 with
  | 1 => decodeVint c w
  | 2 => decodeVinti c w
  | 3 => decodeVflt c w
  | 4 => decodeVsfu c w
  | 5 => decodeVcvt c w
  | 6 => decodeVcmp c w
  | 7 => decodeVxl c w
  | 8 => decodeVmsk c w
  | 9 => decodeSint c w
  | 10 => decodeSinti c w
  | 11 => decodeSflt c w
  | 12 => decodeLi c w
  | 16 => fin c w [] 0 true (.vld ⟨c.mx, fld w 20 6, fld w 14 6, fld w 8 6, fld w 5 3, fld w 2 3, fld w 0 2⟩)
  | 17 => fin c w [] 0 true (.vst ⟨c.mx, fld w 20 6, fld w 14 6, fld w 8 6, fld w 5 3, fld w 2 3, fld w 0 2⟩)
  | 18 => fin c w [] 0 true (.vprf ⟨c.mx, fld w 20 6, fld w 14 6, fld w 8 6, fld w 5 3, fld w 2 3, fld w 0 2⟩)
  | 19 => fin c w [] 0 true (.sld ⟨c.mx, fld w 20 6, fld w 14 6, fld w 8 6, fld w 5 3, fld w 2 3, fld w 0 2⟩)
  | 20 => fin c w [] 0 true (.sst ⟨c.mx, fld w 20 6, fld w 14 6, fld w 8 6, fld w 5 3, fld w 2 3, fld w 0 2⟩)
  | 21 => fin c w [] 0 true (.slda ⟨c.mxFixed 1, fld w 20 6, fld w 14 6, fld w 8 6, fld w 5 3, fld w 2 3, fld w 0 2⟩)
  | 22 => fin c w [] 0 true (.sstr ⟨c.mxFixed 2, fld w 20 6, fld w 14 6, fld w 8 6, fld w 5 3, fld w 2 3, fld w 0 2⟩)
  | 23 => decodeVatm c w
  | 24 => decodeSatm c w
  | 25 => if c.onlyOrder then fin c w [(20, 6), (14, 6), (7, 7)] 0 true (.fence ⟨c.mx.ord, c.mx.scope, fld w 0 7⟩) else .error .modxRefused
  | 26 => fin c w [(0, 2)] 0 false (.waitc ⟨fld w 22 4, fld w 18 4, fld w 14 4, fld w 10 4, fld w 6 4, fld w 2 4⟩)
  | 27 => decodeSyncWords c w
  | 28 => decodeBarriers c w
  | 29 => decodeGang c w
  | 30 => decodeBranch c w
  | 31 => fin c w [] 1 false (.brv (c.brv w))
  | 32 => decodeJoin c w
  | 33 => decodeTasks c w
  | 34 => decodeSys c w
  | 35 => decodeCsr c w
  | 36 => decodeCopy c w
  | 37 => decodeBin c w
  | 38 => decodeTile c w
  | 39 => decodeAttention c w
  | 40 => decodeStateStore c w
  | 41 => decodeObject c w
  | 42 => decodeCollective c w
  | 43 => decodeRecovery c w
  | _ => .error .reservedMajor

/-- A decoded bundle (R254): its instruction, its HNT payload (0 for none) and its length in words. -/
structure Bundle where
  instr : Instr
  hnt : Nat
  words : Nat
  deriving DecidableEq, Repr

/-- Reads a bundle from the front of a list of words: carry words, then the base word. -/
def decodeFrom (c : Carry) (n : Nat) : List Nat → Except DecodeError Bundle
  | [] => .error .truncated
  | w :: rest =>
    if isCarryWord w then
      match c.add w with
      | .ok c' => decodeFrom c' (n + 1) rest
      | .error e => .error e
    else
      match decodeBase c w with
      | .ok i => .ok ⟨i, c.hnt.getD 0, n + 1⟩
      | .error e => .error e

/-- Decodes the bundle at the front of the words. -/
def decode (ws : List Nat) : Except DecodeError Bundle := decodeFrom Carry.empty 0 ws

/-- The words of a little-endian byte sequence (R8, R253); bytes short of a word are dropped. -/
def wordsOfBytes : List Byte → List Nat
  | a :: b :: c :: d :: rest =>
    (a.toNat + b.toNat * 256 + c.toNat * 65536 + d.toNat * 16777216) :: wordsOfBytes rest
  | _ => []

/-- Decodes the bundle at the front of the bytes. -/
def decodeBytes (bs : List Byte) : Except DecodeError Bundle := decode (wordsOfBytes bs)

/-- The bytes of a word, least significant first. -/
def bytesOfWord (w : Nat) : List Byte :=
  [BitVec.ofNat 8 w, BitVec.ofNat 8 (w / 256), BitVec.ofNat 8 (w / 65536), BitVec.ofNat 8 (w / 16777216)]

/-- The words of a table entry's bits: 32 bits a word, the first word the least significant, five words in all (the
longest bundle), zero above `nbits`. -/
def tableWords (nbits w : Nat) : List Nat :=
  (List.range 5).map (fun k => (w % 2 ^ nbits) / 2 ^ (32 * k) % 4294967296)

/-- The instruction the decoder reads from an instruction whose bits are w, numbered as the opcode table does. -/
def decodeTableWord (nbits w : Nat) : Option Instr :=
  match decodeBytes ((tableWords nbits w).flatMap bytesOfWord) with
  | .ok b => some b.instr
  | .error _ => none

/-! ### The encoder -/

/-- Payload words of an IMX value list: kind 0b00 under major 0x3F (R262). -/
def imxWord (p : Nat) : Nat := 4227858432 + p

/-- The base field of an immediate of `width` bits. -/
def immLow (width : Nat) (v : Int) : Nat := wrapN width v

/-- The fewest IMX payloads that represent v over a field of `width` bits (R260, R271). -/
def immWords (width : Nat) (v : Int) : List Nat :=
  if fitsSigned width v then []
  else if fitsSigned (width + 24) v then [wrapN (width + 24) v / 2 ^ width]
  else [wrapN (width + 48) v / 2 ^ (width + 24), wrapN (width + 48) v / 2 ^ width % 16777216]

/-- The two payloads of SLI.W64 (R283). -/
def immPair (width : Nat) (v : Int) : List Nat :=
  [wrapN (width + 48) v / 2 ^ (width + 24), wrapN (width + 48) v / 2 ^ width % 16777216]

/-- The IMX payload of a BRV whose displacements do not fit their fields (R261). -/
def brvWords (x : BrvOp) : List Nat :=
  if fitsSigned 11 x.tgt && decide (x.rc < 1024) then []
  else [wrapN 23 x.tgt / 2048 * 4096 + x.rc / 1024]

/-- A MODX word (R263). -/
def modxWord (m : Modx) : Nat :=
  4244635648 + m.mreg * 1048576 + (if m.men then 524288 else 0) + (if m.mz then 262144 else 0) + m.rnd * 32768
    + (if m.sat then 16384 else 0) + m.op4 * 256 + (if m.op4v then 128 else 0) + m.ord * 32 + m.scope * 4

/-- The MODX of a FENCE (R329). -/
def fenceModx (x : FenceOp) : Modx := { Modx.none with ord := x.ord, scope := x.scope }

/-- The base word and the immediate words of an instruction (`encImm`, `encBrv`), or `none` for an event. -/
def encodeBase : Instr → Option (List Nat × Modx × Nat)
  | .sadd x => some ([], x.m, 603979776 + x.d * 1048576 + x.a * 16384 + x.b * 256 + x.t * 64)
  | .ssub x => some ([], x.m, 603979777 + x.d * 1048576 + x.a * 16384 + x.b * 256 + x.t * 64)
  | .smul x => some ([], x.m, 603979778 + x.d * 1048576 + x.a * 16384 + x.b * 256 + x.t * 64)
  | .smulh x => some ([], x.m, 603979779 + x.d * 1048576 + x.a * 16384 + x.b * 256 + x.t * 64)
  | .sdiv x => some ([], x.m, 603979780 + x.d * 1048576 + x.a * 16384 + x.b * 256 + x.t * 64)
  | .srem x => some ([], x.m, 603979781 + x.d * 1048576 + x.a * 16384 + x.b * 256 + x.t * 64)
  | .sand x => some ([], x.m, 603979782 + x.d * 1048576 + x.a * 16384 + x.b * 256 + x.t * 64)
  | .sor x => some ([], x.m, 603979783 + x.d * 1048576 + x.a * 16384 + x.b * 256 + x.t * 64)
  | .sxor x => some ([], x.m, 603979784 + x.d * 1048576 + x.a * 16384 + x.b * 256 + x.t * 64)
  | .sshl x => some ([], x.m, 603979785 + x.d * 1048576 + x.a * 16384 + x.b * 256 + x.t * 64)
  | .sshr x => some ([], x.m, 603979786 + x.d * 1048576 + x.a * 16384 + x.b * 256 + x.t * 64)
  | .ssra x => some ([], x.m, 603979787 + x.d * 1048576 + x.a * 16384 + x.b * 256 + x.t * 64)
  | .smin x => some ([], x.m, 603979788 + x.d * 1048576 + x.a * 16384 + x.b * 256 + x.t * 64)
  | .smax x => some ([], x.m, 603979789 + x.d * 1048576 + x.a * 16384 + x.b * 256 + x.t * 64)
  | .sclz x => some ([], x.m, 603979790 + x.d * 1048576 + x.a * 16384 + x.b * 256 + x.t * 64)
  | .spopc x => some ([], x.m, 603979791 + x.d * 1048576 + x.a * 16384 + x.b * 256 + x.t * 64)
  | .scmp x => some ([], x.m, 603979792 + x.d * 1048576 + x.a * 16384 + x.b * 256 + x.t * 64 + x.cc)
  | .ssel x => some ([], x.m, 603979798 + x.d * 1048576 + x.a * 16384 + x.b * 256 + x.t * 64)
  | .smov x => some ([], x.m, 603979799 + x.d * 1048576 + x.a * 16384 + x.b * 256 + x.t * 64)
  | .slea x => some ([], x.m, 603979800 + x.d * 1048576 + x.a * 16384 + x.b * 256 + x.t * 64 + x.cc)
  | .saddS32Imm x => some (immWords 10 x.imm, x.m, 671088640 + x.d * 1048576 + x.a * 16384 + immLow 10 x.imm)
  | .smulS32Imm x => some (immWords 10 x.imm, x.m, 671089664 + x.d * 1048576 + x.a * 16384 + immLow 10 x.imm)
  | .sandS32Imm x => some (immWords 10 x.imm, x.m, 671090688 + x.d * 1048576 + x.a * 16384 + immLow 10 x.imm)
  | .sorS32Imm x => some (immWords 10 x.imm, x.m, 671091712 + x.d * 1048576 + x.a * 16384 + immLow 10 x.imm)
  | .sxorS32Imm x => some (immWords 10 x.imm, x.m, 671092736 + x.d * 1048576 + x.a * 16384 + immLow 10 x.imm)
  | .sshlS32Imm x => some (immWords 10 x.imm, x.m, 671093760 + x.d * 1048576 + x.a * 16384 + immLow 10 x.imm)
  | .sshrS32Imm x => some (immWords 10 x.imm, x.m, 671094784 + x.d * 1048576 + x.a * 16384 + immLow 10 x.imm)
  | .ssraS32Imm x => some (immWords 10 x.imm, x.m, 671095808 + x.d * 1048576 + x.a * 16384 + immLow 10 x.imm)
  | .sminS32Imm x => some (immWords 10 x.imm, x.m, 671096832 + x.d * 1048576 + x.a * 16384 + immLow 10 x.imm)
  | .smaxS32Imm x => some (immWords 10 x.imm, x.m, 671097856 + x.d * 1048576 + x.a * 16384 + immLow 10 x.imm)
  | .sminN32Imm x => some (immWords 10 x.imm, x.m, 671098880 + x.d * 1048576 + x.a * 16384 + immLow 10 x.imm)
  | .smaxN32Imm x => some (immWords 10 x.imm, x.m, 671099904 + x.d * 1048576 + x.a * 16384 + immLow 10 x.imm)
  | .scmpEqS32Imm x => some (immWords 10 x.imm, x.m, 671100928 + x.d * 1048576 + x.a * 16384 + immLow 10 x.imm)
  | .scmpLtS32Imm x => some (immWords 10 x.imm, x.m, 671101952 + x.d * 1048576 + x.a * 16384 + immLow 10 x.imm)
  | .scmpLtN32Imm x => some (immWords 10 x.imm, x.m, 671102976 + x.d * 1048576 + x.a * 16384 + immLow 10 x.imm)
  | .saddS64Imm x => some (immWords 10 x.imm, x.m, 671104000 + x.d * 1048576 + x.a * 16384 + immLow 10 x.imm)
  | .sli x => some (if x.w64 then immPair 18 x.imm else immWords 18 x.imm, Modx.none, 805306368 + x.d * 1048576 + immLow 18 x.imm)
  | .setxv base => some ([], Modx.none, 805568512 + base)
  | .setxs base => some ([], Modx.none, 805830656 + base)
  | .rdx d k => some ([], Modx.none, 806092800 + d * 1048576 + k)
  | .vadd x => some ([], x.m, 67108864 + x.d * 1048576 + x.a * 16384 + x.b * 256 + x.t * 64)
  | .vsub x => some ([], x.m, 67108865 + x.d * 1048576 + x.a * 16384 + x.b * 256 + x.t * 64)
  | .vmul x => some ([], x.m, 67108866 + x.d * 1048576 + x.a * 16384 + x.b * 256 + x.t * 64)
  | .vmulh x => some ([], x.m, 67108867 + x.d * 1048576 + x.a * 16384 + x.b * 256 + x.t * 64)
  | .vmad x => some ([], x.m, 67108868 + x.d * 1048576 + x.a * 16384 + x.b * 256 + x.t * 64)
  | .vdiv x => some ([], x.m, 67108869 + x.d * 1048576 + x.a * 16384 + x.b * 256 + x.t * 64)
  | .vrem x => some ([], x.m, 67108870 + x.d * 1048576 + x.a * 16384 + x.b * 256 + x.t * 64)
  | .vadds x => some ([], x.m, 67108871 + x.d * 1048576 + x.a * 16384 + x.b * 256 + x.t * 64)
  | .vsubs x => some ([], x.m, 67108872 + x.d * 1048576 + x.a * 16384 + x.b * 256 + x.t * 64)
  | .vmin x => some ([], x.m, 67108873 + x.d * 1048576 + x.a * 16384 + x.b * 256 + x.t * 64)
  | .vmax x => some ([], x.m, 67108874 + x.d * 1048576 + x.a * 16384 + x.b * 256 + x.t * 64)
  | .vabs x => some ([], x.m, 67108875 + x.d * 1048576 + x.a * 16384 + x.b * 256 + x.t * 64)
  | .vand x => some ([], x.m, 67108876 + x.d * 1048576 + x.a * 16384 + x.b * 256 + x.t * 64)
  | .vor x => some ([], x.m, 67108877 + x.d * 1048576 + x.a * 16384 + x.b * 256 + x.t * 64)
  | .vxor x => some ([], x.m, 67108878 + x.d * 1048576 + x.a * 16384 + x.b * 256 + x.t * 64)
  | .vshl x => some ([], x.m, 67108879 + x.d * 1048576 + x.a * 16384 + x.b * 256 + x.t * 64)
  | .vshr x => some ([], x.m, 67108880 + x.d * 1048576 + x.a * 16384 + x.b * 256 + x.t * 64)
  | .vsra x => some ([], x.m, 67108881 + x.d * 1048576 + x.a * 16384 + x.b * 256 + x.t * 64)
  | .vclz x => some ([], x.m, 67108882 + x.d * 1048576 + x.a * 16384 + x.b * 256 + x.t * 64)
  | .vpopc x => some ([], x.m, 67108883 + x.d * 1048576 + x.a * 16384 + x.b * 256 + x.t * 64)
  | .vlea x => some ([], x.m, 67108884 + x.d * 1048576 + x.a * 16384 + x.b * 256 + x.t * 64 + x.cc)
  | .vleaX16 x => some ([], x.m, 67108888 + x.d * 1048576 + x.a * 16384 + x.b * 256 + x.t * 64)
  | .voff x => some ([], x.m, 67108889 + x.d * 1048576 + x.a * 16384 + x.b * 256 + x.t * 64)
  | .vaddS32Imm x => some (immWords 10 x.imm, x.m, 134217728 + x.d * 1048576 + x.a * 16384 + immLow 10 x.imm)
  | .vmulS32Imm x => some (immWords 10 x.imm, x.m, 134218752 + x.d * 1048576 + x.a * 16384 + immLow 10 x.imm)
  | .vandS32Imm x => some (immWords 10 x.imm, x.m, 134219776 + x.d * 1048576 + x.a * 16384 + immLow 10 x.imm)
  | .vorS32Imm x => some (immWords 10 x.imm, x.m, 134220800 + x.d * 1048576 + x.a * 16384 + immLow 10 x.imm)
  | .vxorS32Imm x => some (immWords 10 x.imm, x.m, 134221824 + x.d * 1048576 + x.a * 16384 + immLow 10 x.imm)
  | .vshlS32Imm x => some (immWords 10 x.imm, x.m, 134222848 + x.d * 1048576 + x.a * 16384 + immLow 10 x.imm)
  | .vshrS32Imm x => some (immWords 10 x.imm, x.m, 134223872 + x.d * 1048576 + x.a * 16384 + immLow 10 x.imm)
  | .vsraS32Imm x => some (immWords 10 x.imm, x.m, 134224896 + x.d * 1048576 + x.a * 16384 + immLow 10 x.imm)
  | .vminS32Imm x => some (immWords 10 x.imm, x.m, 134225920 + x.d * 1048576 + x.a * 16384 + immLow 10 x.imm)
  | .vmaxS32Imm x => some (immWords 10 x.imm, x.m, 134226944 + x.d * 1048576 + x.a * 16384 + immLow 10 x.imm)
  | .vminN32Imm x => some (immWords 10 x.imm, x.m, 134227968 + x.d * 1048576 + x.a * 16384 + immLow 10 x.imm)
  | .vmaxN32Imm x => some (immWords 10 x.imm, x.m, 134228992 + x.d * 1048576 + x.a * 16384 + immLow 10 x.imm)
  | .vaddsS32Imm x => some (immWords 10 x.imm, x.m, 134230016 + x.d * 1048576 + x.a * 16384 + immLow 10 x.imm)
  | .vaddsN32Imm x => some (immWords 10 x.imm, x.m, 134231040 + x.d * 1048576 + x.a * 16384 + immLow 10 x.imm)
  | .vaddS64Imm x => some (immWords 10 x.imm, x.m, 134232064 + x.d * 1048576 + x.a * 16384 + immLow 10 x.imm)
  | .voffS64Imm x => some (immWords 10 x.imm, x.m, 134233088 + x.d * 1048576 + x.a * 16384 + immLow 10 x.imm)
  | .mand x => some ([], x.m, 536870912 + x.d * 1048576 + x.a * 16384 + x.b * 256)
  | .mor x => some ([], x.m, 536870913 + x.d * 1048576 + x.a * 16384 + x.b * 256)
  | .mxor x => some ([], x.m, 536870914 + x.d * 1048576 + x.a * 16384 + x.b * 256)
  | .mnot x => some ([], x.m, 536870915 + x.d * 1048576 + x.a * 16384 + x.b * 256)
  | .mcnt x => some ([], x.m, 536870916 + x.d * 1048576 + x.a * 16384 + x.b * 256)
  | .mffs x => some ([], x.m, 536870917 + x.d * 1048576 + x.a * 16384 + x.b * 256)
  | .mmovMm x => some ([], x.m, 536870918 + x.d * 1048576 + x.a * 16384 + x.b * 256)
  | .mmovMs x => some ([], x.m, 536870919 + x.d * 1048576 + x.a * 16384 + x.b * 256)
  | .mmovSm x => some ([], x.m, 536870920 + x.d * 1048576 + x.a * 16384 + x.b * 256)
  | .mset x => some ([], x.m, 536870921 + x.d * 1048576 + x.a * 16384 + x.b * 256)
  | .vmovW32 x => some ([], x.m, 536870928 + x.d * 1048576 + x.a * 16384 + x.b * 256)
  | .vmovW64 x => some ([], x.m, 536870929 + x.d * 1048576 + x.a * 16384 + x.b * 256)
  | .vbcstW32 x => some ([], x.m, 536870930 + x.d * 1048576 + x.a * 16384 + x.b * 256)
  | .vbcstW64 x => some ([], x.m, 536870931 + x.d * 1048576 + x.a * 16384 + x.b * 256)
  | .vselW32 x => some ([], x.m, 536870932 + x.d * 1048576 + x.a * 16384 + x.b * 256)
  | .vselW64 x => some ([], x.m, 536870933 + x.d * 1048576 + x.a * 16384 + x.b * 256)
  | .vlane x => some ([], x.m, 536870934 + x.d * 1048576 + x.a * 16384 + x.b * 256)
  | .vgetW32 x => some ([], x.m, 536870935 + x.d * 1048576 + x.a * 16384 + x.b * 256)
  | .vgetW64 x => some ([], x.m, 536870936 + x.d * 1048576 + x.a * 16384 + x.b * 256)
  | .vputW32 x => some ([], x.m, 536870937 + x.d * 1048576 + x.a * 16384 + x.b * 256)
  | .vputW64 x => some ([], x.m, 536870938 + x.d * 1048576 + x.a * 16384 + x.b * 256)
  | .vfadd x => some ([], x.m, 201326592 + x.d * 1048576 + x.a * 16384 + x.b * 256 + x.t * 64)
  | .vfsub x => some ([], x.m, 201326593 + x.d * 1048576 + x.a * 16384 + x.b * 256 + x.t * 64)
  | .vfmul x => some ([], x.m, 201326594 + x.d * 1048576 + x.a * 16384 + x.b * 256 + x.t * 64)
  | .vffma x => some ([], x.m, 201326595 + x.d * 1048576 + x.a * 16384 + x.b * 256 + x.t * 64)
  | .vffms x => some ([], x.m, 201326596 + x.d * 1048576 + x.a * 16384 + x.b * 256 + x.t * 64)
  | .vfnfma x => some ([], x.m, 201326597 + x.d * 1048576 + x.a * 16384 + x.b * 256 + x.t * 64)
  | .vfmin x => some ([], x.m, 201326598 + x.d * 1048576 + x.a * 16384 + x.b * 256 + x.t * 64)
  | .vfmax x => some ([], x.m, 201326599 + x.d * 1048576 + x.a * 16384 + x.b * 256 + x.t * 64)
  | .vfabs x => some ([], x.m, 201326600 + x.d * 1048576 + x.a * 16384 + x.b * 256 + x.t * 64)
  | .vfneg x => some ([], x.m, 201326601 + x.d * 1048576 + x.a * 16384 + x.b * 256 + x.t * 64)
  | .vfdiv x => some ([], x.m, 201326602 + x.d * 1048576 + x.a * 16384 + x.b * 256 + x.t * 64)
  | .vfsqrt x => some ([], x.m, 201326603 + x.d * 1048576 + x.a * 16384 + x.b * 256 + x.t * 64)
  | .vfclass x => some ([], x.m, 201326604 + x.d * 1048576 + x.a * 16384 + x.b * 256 + x.t * 64)
  | .vfsgn x => some ([], x.m, 201326605 + x.d * 1048576 + x.a * 16384 + x.b * 256 + x.t * 64)
  | .vfldx x => some ([], x.m, 201326606 + x.d * 1048576 + x.a * 16384 + x.b * 256 + x.t * 64)
  | .sfadd x => some ([], x.m, 738197504 + x.d * 1048576 + x.a * 16384 + x.b * 256 + x.t * 64)
  | .sfmul x => some ([], x.m, 738197505 + x.d * 1048576 + x.a * 16384 + x.b * 256 + x.t * 64)
  | .sffma x => some ([], x.m, 738197506 + x.d * 1048576 + x.a * 16384 + x.b * 256 + x.t * 64)
  | .sfcmp x => some ([], x.m, 738197512 + x.d * 1048576 + x.a * 16384 + x.b * 256 + x.t * 64 + x.cc)
  | .sfcvt x => some ([], x.m, 738197632 + x.d * 1048576 + x.a * 16384 + x.x * 8 + x.y)
  | .vcmp x => some ([], x.m, 402653184 + x.d * 1048576 + x.a * 16384 + x.b * 256 + x.t * 32 + x.cc)
  | .vfcmp x => some ([], x.m, 402653312 + x.d * 1048576 + x.a * 16384 + x.b * 256 + x.t * 32 + x.cc)
  | .vex2s x => some ([], x.m, 268435456 + x.d * 1048576 + x.a * 16384 + x.b * 256)
  | .vlg2 x => some ([], x.m, 268435457 + x.d * 1048576 + x.a * 16384 + x.b * 256)
  | .vrcp x => some ([], x.m, 268435458 + x.d * 1048576 + x.a * 16384 + x.b * 256 + x.t * 64)
  | .vrsq x => some ([], x.m, 268435459 + x.d * 1048576 + x.a * 16384 + x.b * 256 + x.t * 64)
  | .vsin x => some ([], x.m, 268435460 + x.d * 1048576 + x.a * 16384 + x.b * 256)
  | .vcos x => some ([], x.m, 268435461 + x.d * 1048576 + x.a * 16384 + x.b * 256)
  | .vcvt x => some ([], x.m, 335544320 + x.d * 1048576 + x.a * 16384 + x.x * 8 + x.y)
  | .vpack x => some ([], x.m, 335544384 + x.d * 1048576 + x.a * 16384 + x.b * 256 + x.x * 8 + x.y * 4)
  | .vunpk x => some ([], x.m, 335544448 + x.d * 1048576 + x.a * 16384 + x.x * 8 + x.y * 2)
  | .vdeq x => some ([], x.m, 335544512 + x.d * 1048576 + x.a * 16384 + x.b * 256 + x.y)
  | .vshf x => some ([], x.m, 469762048 + x.d * 1048576 + x.a * 16384 + x.b * 256 + x.t * 64)
  | .vshfu x => some ([], x.m, 469762049 + x.d * 1048576 + x.a * 16384 + x.b * 256 + x.t * 64)
  | .vshfd x => some ([], x.m, 469762050 + x.d * 1048576 + x.a * 16384 + x.b * 256 + x.t * 64)
  | .vshfx x => some ([], x.m, 469762051 + x.d * 1048576 + x.a * 16384 + x.b * 256 + x.t * 64)
  | .vvoteAny x => some ([], x.m, 469762052 + x.d * 1048576 + x.a * 16384 + x.b * 256)
  | .vvoteAll x => some ([], x.m, 469762053 + x.d * 1048576 + x.a * 16384 + x.b * 256)
  | .vvoteUni x => some ([], x.m, 469762054 + x.d * 1048576 + x.a * 16384 + x.b * 256)
  | .vvoteBal x => some ([], x.m, 469762055 + x.d * 1048576 + x.a * 16384 + x.b * 256)
  | .vvoteCnt x => some ([], x.m, 469762056 + x.d * 1048576 + x.a * 16384 + x.b * 256)
  | .vrsum x => some ([], x.m, 469762057 + x.d * 1048576 + x.a * 16384 + x.b * 256 + x.t * 32)
  | .vrmin x => some ([], x.m, 469762058 + x.d * 1048576 + x.a * 16384 + x.b * 256 + x.t * 32)
  | .vrmax x => some ([], x.m, 469762059 + x.d * 1048576 + x.a * 16384 + x.b * 256 + x.t * 32)
  | .vscanAdd x => some ([], x.m, 469762060 + x.d * 1048576 + x.a * 16384 + x.b * 256 + x.t * 32)
  | .vscanMin x => some ([], x.m, 469762061 + x.d * 1048576 + x.a * 16384 + x.b * 256 + x.t * 32)
  | .vscanMax x => some ([], x.m, 469762062 + x.d * 1048576 + x.a * 16384 + x.b * 256 + x.t * 32)
  | .vld x => some ([], x.m, 1073741824 + x.d * 1048576 + x.a * 16384 + x.b * 256 + x.sp * 32 + x.w * 4 + x.mode)
  | .vst x => some ([], x.m, 1140850688 + x.d * 1048576 + x.a * 16384 + x.b * 256 + x.sp * 32 + x.w * 4 + x.mode)
  | .vprf x => some ([], x.m, 1207959552 + x.d * 1048576 + x.a * 16384 + x.b * 256 + x.sp * 32 + x.w * 4 + x.mode)
  | .sld x => some ([], x.m, 1275068416 + x.d * 1048576 + x.a * 16384 + x.b * 256 + x.sp * 32 + x.w * 4 + x.mode)
  | .sst x => some ([], x.m, 1342177280 + x.d * 1048576 + x.a * 16384 + x.b * 256 + x.sp * 32 + x.w * 4 + x.mode)
  | .slda x => some ([], x.m, 1409286144 + x.d * 1048576 + x.a * 16384 + x.b * 256 + x.sp * 32 + x.w * 4 + x.mode)
  | .sstr x => some ([], x.m, 1476395008 + x.d * 1048576 + x.a * 16384 + x.b * 256 + x.sp * 32 + x.w * 4 + x.mode)
  | .vatmSwap x => some ([], x.m, 1543503872 + x.d * 1048576 + x.a * 16384 + x.b * 256 + x.sp * 32 + (if x.w64 then 16 else 0))
  | .vatmAdd x => some ([], x.m, 1543503873 + x.d * 1048576 + x.a * 16384 + x.b * 256 + x.sp * 32 + (if x.w64 then 16 else 0))
  | .vatmAnd x => some ([], x.m, 1543503874 + x.d * 1048576 + x.a * 16384 + x.b * 256 + x.sp * 32 + (if x.w64 then 16 else 0))
  | .vatmOr x => some ([], x.m, 1543503875 + x.d * 1048576 + x.a * 16384 + x.b * 256 + x.sp * 32 + (if x.w64 then 16 else 0))
  | .vatmXor x => some ([], x.m, 1543503876 + x.d * 1048576 + x.a * 16384 + x.b * 256 + x.sp * 32 + (if x.w64 then 16 else 0))
  | .vatmMins x => some ([], x.m, 1543503877 + x.d * 1048576 + x.a * 16384 + x.b * 256 + x.sp * 32 + (if x.w64 then 16 else 0))
  | .vatmMaxs x => some ([], x.m, 1543503878 + x.d * 1048576 + x.a * 16384 + x.b * 256 + x.sp * 32 + (if x.w64 then 16 else 0))
  | .vatmMinn x => some ([], x.m, 1543503879 + x.d * 1048576 + x.a * 16384 + x.b * 256 + x.sp * 32 + (if x.w64 then 16 else 0))
  | .vatmMaxn x => some ([], x.m, 1543503880 + x.d * 1048576 + x.a * 16384 + x.b * 256 + x.sp * 32 + (if x.w64 then 16 else 0))
  | .vatmFadd x => some ([], x.m, 1543503881 + x.d * 1048576 + x.a * 16384 + x.b * 256 + x.sp * 32 + (if x.w64 then 16 else 0))
  | .vcas x => some ([], x.m, 1543503887 + x.d * 1048576 + x.a * 16384 + x.b * 256 + x.sp * 32 + (if x.w64 then 16 else 0))
  | .satmSwap x => some ([], x.m, 1610612736 + x.d * 1048576 + x.a * 16384 + x.b * 256 + x.sp * 32 + (if x.w64 then 16 else 0))
  | .satmAdd x => some ([], x.m, 1610612737 + x.d * 1048576 + x.a * 16384 + x.b * 256 + x.sp * 32 + (if x.w64 then 16 else 0))
  | .satmAnd x => some ([], x.m, 1610612738 + x.d * 1048576 + x.a * 16384 + x.b * 256 + x.sp * 32 + (if x.w64 then 16 else 0))
  | .satmOr x => some ([], x.m, 1610612739 + x.d * 1048576 + x.a * 16384 + x.b * 256 + x.sp * 32 + (if x.w64 then 16 else 0))
  | .satmXor x => some ([], x.m, 1610612740 + x.d * 1048576 + x.a * 16384 + x.b * 256 + x.sp * 32 + (if x.w64 then 16 else 0))
  | .satmMins x => some ([], x.m, 1610612741 + x.d * 1048576 + x.a * 16384 + x.b * 256 + x.sp * 32 + (if x.w64 then 16 else 0))
  | .satmMaxs x => some ([], x.m, 1610612742 + x.d * 1048576 + x.a * 16384 + x.b * 256 + x.sp * 32 + (if x.w64 then 16 else 0))
  | .satmMinn x => some ([], x.m, 1610612743 + x.d * 1048576 + x.a * 16384 + x.b * 256 + x.sp * 32 + (if x.w64 then 16 else 0))
  | .satmMaxn x => some ([], x.m, 1610612744 + x.d * 1048576 + x.a * 16384 + x.b * 256 + x.sp * 32 + (if x.w64 then 16 else 0))
  | .satmFadd x => some ([], x.m, 1610612745 + x.d * 1048576 + x.a * 16384 + x.b * 256 + x.sp * 32 + (if x.w64 then 16 else 0))
  | .scas x => some ([], x.m, 1610612751 + x.d * 1048576 + x.a * 16384 + x.b * 256 + x.sp * 32 + (if x.w64 then 16 else 0))
  | .fence x => some ([], fenceModx x, 1677721600 + x.spc)
  | .waitc x => some ([], Modx.none, 1744830464 + x.ld * 4194304 + x.st * 262144 + x.cp * 16384 + x.tl * 1024 + x.att * 64 + x.ss * 4)
  | .swini a b => some ([], Modx.none, 1811939328 + a * 16384 + b * 256)
  | .swexp a b c => some ([], Modx.none, 1812987904 + a * 16384 + b * 256 + c * 4)
  | .swwt a b => some ([], Modx.none, 1814036480 + a * 16384 + b * 256)
  | .bara a k => some ([], Modx.none, 1879048192 + a * 16384 + k)
  | .barw a k => some ([], Modx.none, 1880096768 + a * 16384 + k)
  | .bars k => some ([], Modx.none, 1881145344 + k)
  | .grpq a k => some ([], Modx.none, 1882193920 + a * 16384 + k)
  | .regang mask => some ([], Modx.none, 1946157056 + mask)
  | .nap a space t => some ([], Modx.none, 1948254208 + a * 16384 + space * 4096 + t * 64)
  | .bru disp => some (immWords 17 disp, Modx.none, 2013265920 + immLow 17 disp)
  | .bruZ r disp => some (immWords 17 disp, Modx.none, 2021654528 + r * 131072 + immLow 17 disp)
  | .bruNz r disp => some (immWords 17 disp, Modx.none, 2030043136 + r * 131072 + immLow 17 disp)
  | .bruLt r disp => some (immWords 17 disp, Modx.none, 2038431744 + r * 131072 + immLow 17 disp)
  | .bruGe r disp => some (immWords 17 disp, Modx.none, 2046820352 + r * 131072 + immLow 17 disp)
  | .call r disp => some (immWords 17 disp, Modx.none, 2055208960 + r * 131072 + immLow 17 disp)
  | .brv x => some (brvWords x, Modx.none, 2080374784 + x.m * 4194304 + (if x.neg then 2097152 else 0) + immLow 11 x.tgt * 1024 + x.rc % 1024)
  | .jmpr a => some ([], Modx.none, 2148532224 + a * 16384)
  | .tbeg a disp => some (immWords 14 disp, Modx.none, 2214592512 + a * 16384 + immLow 14 disp)
  | .tbegIdem a disp => some (immWords 14 disp, Modx.none, 2215641088 + a * 16384 + immLow 14 disp)
  | .tabt code => some ([], Modx.none, 2217738240 + code)
  | .trap code => some ([], Modx.none, 2281701376 + code)
  | .tclr a => some ([], Modx.none, 2283798528 + a * 16384)
  | .brk code => some ([], Modx.none, 2284847104 + code)
  | .csrr a n => some ([], Modx.none, 2348810240 + a * 16384 + n)
  | .csrw a n => some ([], Modx.none, 2349858816 + a * 16384 + n)
  | .csrs a n => some ([], Modx.none, 2350907392 + a * 16384 + n)
  | .csrc a n => some ([], Modx.none, 2351955968 + a * 16384 + n)
  | .cpy x => some ([], Modx.none, 2415919104 + x.a * 16384 + x.b * 256 + x.c * 4 + (if x.sync then 2 else 0) + (if x.hold then 1 else 0))
  | .cpy2 x => some ([], Modx.none, 2416967680 + x.a * 16384 + x.b * 256 + x.c * 4 + (if x.sync then 2 else 0) + (if x.hold then 1 else 0))
  | .cpyg x => some ([], Modx.none, 2418016256 + x.a * 16384 + x.b * 256 + x.c * 4 + (if x.sync then 2 else 0) + (if x.hold then 1 else 0))
  | .cpyp x => some ([], Modx.none, 2419064832 + x.a * 16384 + x.b * 256 + x.c * 4 + (if x.sync then 2 else 0) + (if x.hold then 1 else 0))
  | .cpyq x => some ([], Modx.none, 2420113408 + x.a * 16384 + x.b * 256 + x.c * 4 + (if x.sync then 2 else 0) + (if x.hold then 1 else 0))
  | .cprel a => some ([], Modx.none, 2421161984 + a * 16384)
  | .bincl a b => some ([], Modx.none, 2483027968 + a * 16384 + b * 256)
  | .binad a b => some ([], Modx.none, 2484076544 + a * 16384 + b * 256)
  | .binrd a b => some ([], Modx.none, 2485125120 + a * 16384 + b * 256)
  | .twld x => some ([], Modx.none, 2550136832 + x.a * 16384 + x.b * 256 + x.c * 4 + (if x.sync then 2 else 0) + (if x.hold then 1 else 0))
  | .tmul x => some ([], Modx.none, 2551185408 + x.a * 16384 + x.b * 256 + x.c * 4 + (if x.sync then 2 else 0) + (if x.hold then 1 else 0))
  | .tmulX4 x => some ([], Modx.none, 2552233984 + x.a * 16384 + x.b * 256 + x.c * 4 + (if x.sync then 2 else 0) + (if x.hold then 1 else 0))
  | .tmuls x => some ([], Modx.none, 2553282560 + x.a * 16384 + x.b * 256 + x.c * 4 + (if x.sync then 2 else 0) + (if x.hold then 1 else 0))
  | .tzero x => some ([], Modx.none, 2554331136 + x.a * 16384 + x.b * 256 + x.c * 4 + (if x.sync then 2 else 0) + (if x.hold then 1 else 0))
  | .trd x => some ([], Modx.none, 2555379712 + x.a * 16384 + x.b * 256 + x.c * 4 + (if x.sync then 2 else 0) + (if x.hold then 1 else 0))
  | .aplnk x => some ([], Modx.none, 2617245696 + x.a * 16384 + x.b * 256 + x.c * 4 + (if x.sync then 2 else 0) + (if x.hold then 1 else 0))
  | .apref x => some ([], Modx.none, 2618294272 + x.a * 16384 + x.b * 256 + x.c * 4 + (if x.sync then 2 else 0) + (if x.hold then 1 else 0))
  | .attn x => some ([], Modx.none, 2619342848 + x.a * 16384 + x.b * 256 + x.c * 4 + (if x.sync then 2 else 0) + (if x.hold then 1 else 0))
  | .amrg x => some ([], Modx.none, 2620391424 + x.a * 16384 + x.b * 256 + x.c * 4 + (if x.sync then 2 else 0) + (if x.hold then 1 else 0))
  | .arcp x => some ([], Modx.none, 2621440000 + x.a * 16384 + x.b * 256 + x.c * 4 + (if x.sync then 2 else 0) + (if x.hold then 1 else 0))
  | .ssopn x => some ([], Modx.none, 2684354560 + x.a * 16384 + x.b * 256 + x.c * 4 + (if x.sync then 2 else 0) + (if x.hold then 1 else 0))
  | .ssld x => some ([], Modx.none, 2685403136 + x.a * 16384 + x.b * 256 + x.c * 4 + (if x.sync then 2 else 0) + (if x.hold then 1 else 0))
  | .sssv x => some ([], Modx.none, 2686451712 + x.a * 16384 + x.b * 256 + x.c * 4 + (if x.sync then 2 else 0) + (if x.hold then 1 else 0))
  | .ssrbk x => some ([], Modx.none, 2687500288 + x.a * 16384 + x.b * 256 + x.c * 4 + (if x.sync then 2 else 0) + (if x.hold then 1 else 0))
  | .ssfrk x => some ([], Modx.none, 2688548864 + x.a * 16384 + x.b * 256 + x.c * 4 + (if x.sync then 2 else 0) + (if x.hold then 1 else 0))
  | .ssqry x => some ([], Modx.none, 2689597440 + x.a * 16384 + x.b * 256 + x.c * 4 + (if x.sync then 2 else 0) + (if x.hold then 1 else 0))
  | .oalc x => some ([], Modx.none, 2751463424 + x.a * 16384 + x.b * 256 + x.c * 4 + (if x.sync then 2 else 0) + (if x.hold then 1 else 0))
  | .ofre x => some ([], Modx.none, 2752512000 + x.a * 16384 + x.b * 256 + x.c * 4 + (if x.sync then 2 else 0) + (if x.hold then 1 else 0))
  | .oloc x => some ([], Modx.none, 2753560576 + x.a * 16384 + x.b * 256 + x.c * 4 + (if x.sync then 2 else 0) + (if x.hold then 1 else 0))
  | .opin x => some ([], Modx.none, 2754609152 + x.a * 16384 + x.b * 256 + x.c * 4 + (if x.sync then 2 else 0) + (if x.hold then 1 else 0))
  | .ounp x => some ([], Modx.none, 2755657728 + x.a * 16384 + x.b * 256 + x.c * 4 + (if x.sync then 2 else 0) + (if x.hold then 1 else 0))
  | .ocol x => some ([], Modx.none, 2756706304 + x.a * 16384 + x.b * 256 + x.c * 4 + (if x.sync then 2 else 0) + (if x.hold then 1 else 0))
  | .omig x => some ([], Modx.none, 2757754880 + x.a * 16384 + x.b * 256 + x.c * 4 + (if x.sync then 2 else 0) + (if x.hold then 1 else 0))
  | .ocln x => some ([], Modx.none, 2758803456 + x.a * 16384 + x.b * 256 + x.c * 4 + (if x.sync then 2 else 0) + (if x.hold then 1 else 0))
  | .ored x => some ([], Modx.none, 2818572288 + x.a * 16384 + x.b * 256 + x.c * 4 + (if x.sync then 2 else 0) + (if x.hold then 1 else 0))
  | .obar x => some ([], Modx.none, 2819620864 + x.a * 16384 + x.b * 256 + x.c * 4 + (if x.sync then 2 else 0) + (if x.hold then 1 else 0))
  | .rcomm x => some ([], Modx.none, 2885681152 + x.a * 16384 + x.b * 256 + x.c * 4 + (if x.sync then 2 else 0) + (if x.hold then 1 else 0))
  | .rcqry x => some ([], Modx.none, 2886729728 + x.a * 16384 + x.b * 256 + x.c * 4 + (if x.sync then 2 else 0) + (if x.hold then 1 else 0))
  | .rcver x => some ([], Modx.none, 2887778304 + x.a * 16384 + x.b * 256 + x.c * 4 + (if x.sync then 2 else 0) + (if x.hold then 1 else 0))
  | .yield => some ([], Modx.none, 1947205632)
  | .join => some ([], Modx.none, 2147483648)
  | .tend => some ([], Modx.none, 2216689664)
  | .tret => some ([], Modx.none, 2282749952)
  | .nop => some ([], Modx.none, 2285895680)
  | .loadReturn => none
  | .pageWalkDone => none
  | .ibufFill => none
  | .engineCompletion => none
  | .blockingAnswer => none
  | .releaseAcksDone => none
  | .tendDone => none
  | .syncWordCount => none
  | .napWake => none
  | .napTimeout => none
  | .syncto => none
  | .trapEntry => none
  | .handlerPreempt => none
  | .oreq => none
  | .ofwd => none
  | .olupd => none
  | .orsp => none
  | .oabs => none
  | .ocon => none
  | .regq => none
  | .rega => none
  | .malc => none
  | .mala => none
  | .mcpy => none
  | .mcpa => none
  | .copyPassEnd => none
  | .regupd => none
  | .regack => none
  | .mact => none
  | .mrel => none
  | .stubCollect => none
  | .rds => none
  | .rdo => none
  | .upg => none
  | .wbd => none
  | .evc => none
  | .snps => none
  | .snpi => none
  | .binv => none
  | .data => none
  | .gnt => none
  | .iack => none
  | .cmp => none
  | .drn => none
  | .l1Writeback => none
  | .drainDone => none
  | .rclr => none
  | .podDirOreq => none
  | .orspAtSwitch => none
  | .pinv => none
  | .piack => none
  | .psi => none
  | .psia => none
  | .psclr => none
  | .hostRead => none
  | .hostWrite => none
  | .bisnpAnswer => none
  | .hbtoExpiry => none
  | .frtoExpiry => none
  | .peerTimeout => none
  | .packetAgeDiscard => none
  | .podMapAdopt => none
  | .epochAnnounce => none
  | .portDown => none
  | .flitRetry => none
  | .collectiveContribution => none
  | .collectiveTableWrite => none
  | .rdur => none
  | .rdura => none
  | .rclose => none
  | .rclosa => none
  | .durableAccept => none
  | .durableWriteback => none
  | .settlerSweep => none
  | .containmentScan => none
  | .drst => none
  | .watchdog => none
  | .wholeDeviceReset => none
  | .thermalTrip => none
  | .clockAdjust => none
  | .tlbinv => none
  | .tlbinvComplete => none
  | .lcinv => none
  | .kret => none
  | .keyRetireComplete => none
  | .kload => none
  | .fxopGive => none
  | .fxopTake => none
  | .fxbEnable => none
  | .rrdEnable => none
  | .rrdDisable => none
  | .rrdDisableComplete => none
  | .rrdSetTpol => none
  | .kvwWrite => none
  | .kvwEffect => none
  | .preq => none
  | .gdbgHalt => none
  | .gdbgResume => none
  | .devnumWrite => none
  | .tailWrite => none
  | .rcrtEnable => none
  | .rcrtDisable => none
  | .pfailClear => none
  | .tableBaseWrite => none
  | .ringBaseWrite => none
  | .debugWindowWrite => none
  | .registerWrite => none
  | .launchAccept => none
  | .dependenceWake => none
  | .blockPlace => none
  | .placeBackoff => none
  | .storageClearDone => none
  | .blockRetire => none
  | .queue63Release => none
  | .timeSlice => none
  | .priorityWait => none
  | .preemptModeChoice => none
  | .blockSave => none
  | .blockFlush => none
  | .blockRestore => none
  | .stateStoreOp => none
  | .tilePassStart => none
  | .weightLatch => none
  | .peaWalkStart => none
  | .headerReturn => none
  | .promotionCheck => none
  | .regenSeal => none
  | .regenTimeout => none
  | .attnItem => none
  | .tripleReturn => none
  | .holdLapse => none
  | .wayGate => none
  | .wayWakeDone => none
  | .segmentClearDone => none
  | .patrolScrub => none
  | .idleEntry => none
  | .wake => none
  | .getVersion => none
  | .getCapabilities => none
  | .negotiateAlgorithms => none
  | .getDigests => none
  | .getCertificate => none
  | .challenge => none
  | .getMeasurements => none
  | .spdmUnsupported => none
  | .linkTraining => none
  | .modulePowerOn => none
  | .chunkSend => none
  | .levelSample => none

/-- The words of an instruction: IMX words, a MODX when a field is non-zero, the base word (R254, R271). -/
def encode (i : Instr) : Option (List Nat) :=
  match encodeBase i with
  | some (imx, m, base) => some (imx.map imxWord ++ (if m = Modx.none then [] else [modxWord m]) ++ [base])
  | none => none

end Sys2Proof
end

