-- ==== Sys2Proof/Machine/Slots.lean ====
section
/-! DEFINITION. The register slots an instruction names (R10, R257), for the interlock of R276. -/

namespace Sys2Proof.Machine

/-- The slots from n that an operand of a record form may name: up to four (R321). -/
def slots4 (n : Nat) : List Nat := [n, n + 1, n + 2, n + 3]
/-- The slots of a command (R363, R383): a descriptor of sixteen registers from a, and pairs or lists from b and c. -/
def slotsCmd (x : Cmd) : List Nat := (List.range 16).map (x.a + ·) ++ slots4 x.b ++ (List.range 16).map (x.c + ·)

/-- A superset of the register slots that an instruction reads or writes, vector and uniform alike. -/
def slotsOf (i : Instr) : List Nat :=
  match i with
  | .sadd x => [x.d, x.d + 1, x.a, x.a + 1, x.b, x.b + 1, x.m.op4, x.m.op4 + 1]
  | .ssub x => [x.d, x.d + 1, x.a, x.a + 1, x.b, x.b + 1, x.m.op4, x.m.op4 + 1]
  | .smul x => [x.d, x.d + 1, x.a, x.a + 1, x.b, x.b + 1, x.m.op4, x.m.op4 + 1]
  | .smulh x => [x.d, x.d + 1, x.a, x.a + 1, x.b, x.b + 1, x.m.op4, x.m.op4 + 1]
  | .sdiv x => [x.d, x.d + 1, x.a, x.a + 1, x.b, x.b + 1, x.m.op4, x.m.op4 + 1]
  | .srem x => [x.d, x.d + 1, x.a, x.a + 1, x.b, x.b + 1, x.m.op4, x.m.op4 + 1]
  | .sand x => [x.d, x.d + 1, x.a, x.a + 1, x.b, x.b + 1, x.m.op4, x.m.op4 + 1]
  | .sor x => [x.d, x.d + 1, x.a, x.a + 1, x.b, x.b + 1, x.m.op4, x.m.op4 + 1]
  | .sxor x => [x.d, x.d + 1, x.a, x.a + 1, x.b, x.b + 1, x.m.op4, x.m.op4 + 1]
  | .sshl x => [x.d, x.d + 1, x.a, x.a + 1, x.b, x.b + 1, x.m.op4, x.m.op4 + 1]
  | .sshr x => [x.d, x.d + 1, x.a, x.a + 1, x.b, x.b + 1, x.m.op4, x.m.op4 + 1]
  | .ssra x => [x.d, x.d + 1, x.a, x.a + 1, x.b, x.b + 1, x.m.op4, x.m.op4 + 1]
  | .smin x => [x.d, x.d + 1, x.a, x.a + 1, x.b, x.b + 1, x.m.op4, x.m.op4 + 1]
  | .smax x => [x.d, x.d + 1, x.a, x.a + 1, x.b, x.b + 1, x.m.op4, x.m.op4 + 1]
  | .sclz x => [x.d, x.d + 1, x.a, x.a + 1, x.b, x.b + 1, x.m.op4, x.m.op4 + 1]
  | .spopc x => [x.d, x.d + 1, x.a, x.a + 1, x.b, x.b + 1, x.m.op4, x.m.op4 + 1]
  | .scmp x => [x.d, x.d + 1, x.a, x.a + 1, x.b, x.b + 1]
  | .ssel x => [x.d, x.d + 1, x.a, x.a + 1, x.b, x.b + 1, x.m.op4, x.m.op4 + 1]
  | .smov x => [x.d, x.d + 1, x.a, x.a + 1, x.b, x.b + 1, x.m.op4, x.m.op4 + 1]
  | .slea x => [x.d, x.d + 1, x.a, x.a + 1, x.b, x.b + 1]
  | .saddS32Imm x => [x.d, x.d + 1, x.a, x.a + 1]
  | .smulS32Imm x => [x.d, x.d + 1, x.a, x.a + 1]
  | .sandS32Imm x => [x.d, x.d + 1, x.a, x.a + 1]
  | .sorS32Imm x => [x.d, x.d + 1, x.a, x.a + 1]
  | .sxorS32Imm x => [x.d, x.d + 1, x.a, x.a + 1]
  | .sshlS32Imm x => [x.d, x.d + 1, x.a, x.a + 1]
  | .sshrS32Imm x => [x.d, x.d + 1, x.a, x.a + 1]
  | .ssraS32Imm x => [x.d, x.d + 1, x.a, x.a + 1]
  | .sminS32Imm x => [x.d, x.d + 1, x.a, x.a + 1]
  | .smaxS32Imm x => [x.d, x.d + 1, x.a, x.a + 1]
  | .sminN32Imm x => [x.d, x.d + 1, x.a, x.a + 1]
  | .smaxN32Imm x => [x.d, x.d + 1, x.a, x.a + 1]
  | .scmpEqS32Imm x => [x.d, x.d + 1, x.a, x.a + 1]
  | .scmpLtS32Imm x => [x.d, x.d + 1, x.a, x.a + 1]
  | .scmpLtN32Imm x => [x.d, x.d + 1, x.a, x.a + 1]
  | .saddS64Imm x => [x.d, x.d + 1, x.a, x.a + 1]
  | .sli x => [x.d, x.d + 1]
  | .rdx d _ => [d]
  | .vadd x => [x.d, x.d + 1, x.a, x.a + 1, x.b, x.b + 1, x.m.op4, x.m.op4 + 1]
  | .vsub x => [x.d, x.d + 1, x.a, x.a + 1, x.b, x.b + 1, x.m.op4, x.m.op4 + 1]
  | .vmul x => [x.d, x.d + 1, x.a, x.a + 1, x.b, x.b + 1, x.m.op4, x.m.op4 + 1]
  | .vmulh x => [x.d, x.d + 1, x.a, x.a + 1, x.b, x.b + 1, x.m.op4, x.m.op4 + 1]
  | .vmad x => [x.d, x.d + 1, x.a, x.a + 1, x.b, x.b + 1, x.m.op4, x.m.op4 + 1]
  | .vdiv x => [x.d, x.d + 1, x.a, x.a + 1, x.b, x.b + 1, x.m.op4, x.m.op4 + 1]
  | .vrem x => [x.d, x.d + 1, x.a, x.a + 1, x.b, x.b + 1, x.m.op4, x.m.op4 + 1]
  | .vadds x => [x.d, x.d + 1, x.a, x.a + 1, x.b, x.b + 1, x.m.op4, x.m.op4 + 1]
  | .vsubs x => [x.d, x.d + 1, x.a, x.a + 1, x.b, x.b + 1, x.m.op4, x.m.op4 + 1]
  | .vmin x => [x.d, x.d + 1, x.a, x.a + 1, x.b, x.b + 1, x.m.op4, x.m.op4 + 1]
  | .vmax x => [x.d, x.d + 1, x.a, x.a + 1, x.b, x.b + 1, x.m.op4, x.m.op4 + 1]
  | .vabs x => [x.d, x.d + 1, x.a, x.a + 1, x.b, x.b + 1, x.m.op4, x.m.op4 + 1]
  | .vand x => [x.d, x.d + 1, x.a, x.a + 1, x.b, x.b + 1, x.m.op4, x.m.op4 + 1]
  | .vor x => [x.d, x.d + 1, x.a, x.a + 1, x.b, x.b + 1, x.m.op4, x.m.op4 + 1]
  | .vxor x => [x.d, x.d + 1, x.a, x.a + 1, x.b, x.b + 1, x.m.op4, x.m.op4 + 1]
  | .vshl x => [x.d, x.d + 1, x.a, x.a + 1, x.b, x.b + 1, x.m.op4, x.m.op4 + 1]
  | .vshr x => [x.d, x.d + 1, x.a, x.a + 1, x.b, x.b + 1, x.m.op4, x.m.op4 + 1]
  | .vsra x => [x.d, x.d + 1, x.a, x.a + 1, x.b, x.b + 1, x.m.op4, x.m.op4 + 1]
  | .vclz x => [x.d, x.d + 1, x.a, x.a + 1, x.b, x.b + 1, x.m.op4, x.m.op4 + 1]
  | .vpopc x => [x.d, x.d + 1, x.a, x.a + 1, x.b, x.b + 1, x.m.op4, x.m.op4 + 1]
  | .vlea x => [x.d, x.d + 1, x.a, x.a + 1, x.b, x.b + 1]
  | .vleaX16 x => [x.d, x.d + 1, x.a, x.a + 1, x.b, x.b + 1, x.m.op4, x.m.op4 + 1]
  | .voff x => [x.d, x.d + 1, x.a, x.a + 1, x.b, x.b + 1, x.m.op4, x.m.op4 + 1]
  | .vaddS32Imm x => [x.d, x.d + 1, x.a, x.a + 1]
  | .vmulS32Imm x => [x.d, x.d + 1, x.a, x.a + 1]
  | .vandS32Imm x => [x.d, x.d + 1, x.a, x.a + 1]
  | .vorS32Imm x => [x.d, x.d + 1, x.a, x.a + 1]
  | .vxorS32Imm x => [x.d, x.d + 1, x.a, x.a + 1]
  | .vshlS32Imm x => [x.d, x.d + 1, x.a, x.a + 1]
  | .vshrS32Imm x => [x.d, x.d + 1, x.a, x.a + 1]
  | .vsraS32Imm x => [x.d, x.d + 1, x.a, x.a + 1]
  | .vminS32Imm x => [x.d, x.d + 1, x.a, x.a + 1]
  | .vmaxS32Imm x => [x.d, x.d + 1, x.a, x.a + 1]
  | .vminN32Imm x => [x.d, x.d + 1, x.a, x.a + 1]
  | .vmaxN32Imm x => [x.d, x.d + 1, x.a, x.a + 1]
  | .vaddsS32Imm x => [x.d, x.d + 1, x.a, x.a + 1]
  | .vaddsN32Imm x => [x.d, x.d + 1, x.a, x.a + 1]
  | .vaddS64Imm x => [x.d, x.d + 1, x.a, x.a + 1]
  | .voffS64Imm x => [x.d, x.d + 1, x.a, x.a + 1]
  | .mand x => [x.d, x.d + 1, x.a, x.a + 1, x.b, x.b + 1, x.m.op4, x.m.op4 + 1]
  | .mor x => [x.d, x.d + 1, x.a, x.a + 1, x.b, x.b + 1, x.m.op4, x.m.op4 + 1]
  | .mxor x => [x.d, x.d + 1, x.a, x.a + 1, x.b, x.b + 1, x.m.op4, x.m.op4 + 1]
  | .mnot x => [x.d, x.d + 1, x.a, x.a + 1, x.b, x.b + 1, x.m.op4, x.m.op4 + 1]
  | .mcnt x => [x.d, x.d + 1, x.a, x.a + 1, x.b, x.b + 1, x.m.op4, x.m.op4 + 1]
  | .mffs x => [x.d, x.d + 1, x.a, x.a + 1, x.b, x.b + 1, x.m.op4, x.m.op4 + 1]
  | .mmovMm x => [x.d, x.d + 1, x.a, x.a + 1, x.b, x.b + 1, x.m.op4, x.m.op4 + 1]
  | .mmovMs x => [x.d, x.d + 1, x.a, x.a + 1, x.b, x.b + 1, x.m.op4, x.m.op4 + 1]
  | .mmovSm x => [x.d, x.d + 1, x.a, x.a + 1, x.b, x.b + 1, x.m.op4, x.m.op4 + 1]
  | .mset x => [x.d, x.d + 1, x.a, x.a + 1, x.b, x.b + 1, x.m.op4, x.m.op4 + 1]
  | .vmovW32 x => [x.d, x.d + 1, x.a, x.a + 1, x.b, x.b + 1, x.m.op4, x.m.op4 + 1]
  | .vmovW64 x => [x.d, x.d + 1, x.a, x.a + 1, x.b, x.b + 1, x.m.op4, x.m.op4 + 1]
  | .vbcstW32 x => [x.d, x.d + 1, x.a, x.a + 1, x.b, x.b + 1, x.m.op4, x.m.op4 + 1]
  | .vbcstW64 x => [x.d, x.d + 1, x.a, x.a + 1, x.b, x.b + 1, x.m.op4, x.m.op4 + 1]
  | .vselW32 x => [x.d, x.d + 1, x.a, x.a + 1, x.b, x.b + 1, x.m.op4, x.m.op4 + 1]
  | .vselW64 x => [x.d, x.d + 1, x.a, x.a + 1, x.b, x.b + 1, x.m.op4, x.m.op4 + 1]
  | .vlane x => [x.d, x.d + 1, x.a, x.a + 1, x.b, x.b + 1, x.m.op4, x.m.op4 + 1]
  | .vgetW32 x => [x.d, x.d + 1, x.a, x.a + 1, x.b, x.b + 1, x.m.op4, x.m.op4 + 1]
  | .vgetW64 x => [x.d, x.d + 1, x.a, x.a + 1, x.b, x.b + 1, x.m.op4, x.m.op4 + 1]
  | .vputW32 x => [x.d, x.d + 1, x.a, x.a + 1, x.b, x.b + 1, x.m.op4, x.m.op4 + 1]
  | .vputW64 x => [x.d, x.d + 1, x.a, x.a + 1, x.b, x.b + 1, x.m.op4, x.m.op4 + 1]
  | .vfadd x => [x.d, x.d + 1, x.a, x.a + 1, x.b, x.b + 1, x.m.op4, x.m.op4 + 1]
  | .vfsub x => [x.d, x.d + 1, x.a, x.a + 1, x.b, x.b + 1, x.m.op4, x.m.op4 + 1]
  | .vfmul x => [x.d, x.d + 1, x.a, x.a + 1, x.b, x.b + 1, x.m.op4, x.m.op4 + 1]
  | .vffma x => [x.d, x.d + 1, x.a, x.a + 1, x.b, x.b + 1, x.m.op4, x.m.op4 + 1]
  | .vffms x => [x.d, x.d + 1, x.a, x.a + 1, x.b, x.b + 1, x.m.op4, x.m.op4 + 1]
  | .vfnfma x => [x.d, x.d + 1, x.a, x.a + 1, x.b, x.b + 1, x.m.op4, x.m.op4 + 1]
  | .vfmin x => [x.d, x.d + 1, x.a, x.a + 1, x.b, x.b + 1, x.m.op4, x.m.op4 + 1]
  | .vfmax x => [x.d, x.d + 1, x.a, x.a + 1, x.b, x.b + 1, x.m.op4, x.m.op4 + 1]
  | .vfabs x => [x.d, x.d + 1, x.a, x.a + 1, x.b, x.b + 1, x.m.op4, x.m.op4 + 1]
  | .vfneg x => [x.d, x.d + 1, x.a, x.a + 1, x.b, x.b + 1, x.m.op4, x.m.op4 + 1]
  | .vfdiv x => [x.d, x.d + 1, x.a, x.a + 1, x.b, x.b + 1, x.m.op4, x.m.op4 + 1]
  | .vfsqrt x => [x.d, x.d + 1, x.a, x.a + 1, x.b, x.b + 1, x.m.op4, x.m.op4 + 1]
  | .vfclass x => [x.d, x.d + 1, x.a, x.a + 1, x.b, x.b + 1, x.m.op4, x.m.op4 + 1]
  | .vfsgn x => [x.d, x.d + 1, x.a, x.a + 1, x.b, x.b + 1, x.m.op4, x.m.op4 + 1]
  | .vfldx x => [x.d, x.d + 1, x.a, x.a + 1, x.b, x.b + 1, x.m.op4, x.m.op4 + 1]
  | .sfadd x => [x.d, x.d + 1, x.a, x.a + 1, x.b, x.b + 1, x.m.op4, x.m.op4 + 1]
  | .sfmul x => [x.d, x.d + 1, x.a, x.a + 1, x.b, x.b + 1, x.m.op4, x.m.op4 + 1]
  | .sffma x => [x.d, x.d + 1, x.a, x.a + 1, x.b, x.b + 1, x.m.op4, x.m.op4 + 1]
  | .sfcmp x => [x.d, x.d + 1, x.a, x.a + 1, x.b, x.b + 1]
  | .sfcvt x => [x.d, x.d + 1, x.a, x.a + 1, x.b, x.b + 1, x.m.op4]
  | .vcmp x => [x.d, x.d + 1, x.a, x.a + 1, x.b, x.b + 1]
  | .vfcmp x => [x.d, x.d + 1, x.a, x.a + 1, x.b, x.b + 1]
  | .vex2s x => [x.d, x.d + 1, x.a, x.a + 1, x.b, x.b + 1, x.m.op4, x.m.op4 + 1]
  | .vlg2 x => [x.d, x.d + 1, x.a, x.a + 1, x.b, x.b + 1, x.m.op4, x.m.op4 + 1]
  | .vrcp x => [x.d, x.d + 1, x.a, x.a + 1, x.b, x.b + 1, x.m.op4, x.m.op4 + 1]
  | .vrsq x => [x.d, x.d + 1, x.a, x.a + 1, x.b, x.b + 1, x.m.op4, x.m.op4 + 1]
  | .vsin x => [x.d, x.d + 1, x.a, x.a + 1, x.b, x.b + 1, x.m.op4, x.m.op4 + 1]
  | .vcos x => [x.d, x.d + 1, x.a, x.a + 1, x.b, x.b + 1, x.m.op4, x.m.op4 + 1]
  | .vcvt x => [x.d, x.d + 1, x.a, x.a + 1, x.b, x.b + 1, x.m.op4]
  | .vpack x => [x.d, x.d + 1, x.a, x.a + 1, x.b, x.b + 1, x.m.op4]
  | .vunpk x => [x.d, x.d + 1, x.a, x.a + 1, x.b, x.b + 1, x.m.op4]
  | .vdeq x => [x.d, x.d + 1, x.a, x.a + 1, x.b, x.b + 1, x.m.op4]
  | .vshf x => [x.d, x.d + 1, x.a, x.a + 1, x.b, x.b + 1, x.m.op4, x.m.op4 + 1]
  | .vshfu x => [x.d, x.d + 1, x.a, x.a + 1, x.b, x.b + 1, x.m.op4, x.m.op4 + 1]
  | .vshfd x => [x.d, x.d + 1, x.a, x.a + 1, x.b, x.b + 1, x.m.op4, x.m.op4 + 1]
  | .vshfx x => [x.d, x.d + 1, x.a, x.a + 1, x.b, x.b + 1, x.m.op4, x.m.op4 + 1]
  | .vvoteAny x => [x.d, x.d + 1, x.a, x.a + 1, x.b, x.b + 1, x.m.op4, x.m.op4 + 1]
  | .vvoteAll x => [x.d, x.d + 1, x.a, x.a + 1, x.b, x.b + 1, x.m.op4, x.m.op4 + 1]
  | .vvoteUni x => [x.d, x.d + 1, x.a, x.a + 1, x.b, x.b + 1, x.m.op4, x.m.op4 + 1]
  | .vvoteBal x => [x.d, x.d + 1, x.a, x.a + 1, x.b, x.b + 1, x.m.op4, x.m.op4 + 1]
  | .vvoteCnt x => [x.d, x.d + 1, x.a, x.a + 1, x.b, x.b + 1, x.m.op4, x.m.op4 + 1]
  | .vrsum x => [x.d, x.d + 1, x.a, x.a + 1, x.b, x.b + 1, x.m.op4, x.m.op4 + 1]
  | .vrmin x => [x.d, x.d + 1, x.a, x.a + 1, x.b, x.b + 1, x.m.op4, x.m.op4 + 1]
  | .vrmax x => [x.d, x.d + 1, x.a, x.a + 1, x.b, x.b + 1, x.m.op4, x.m.op4 + 1]
  | .vscanAdd x => [x.d, x.d + 1, x.a, x.a + 1, x.b, x.b + 1, x.m.op4, x.m.op4 + 1]
  | .vscanMin x => [x.d, x.d + 1, x.a, x.a + 1, x.b, x.b + 1, x.m.op4, x.m.op4 + 1]
  | .vscanMax x => [x.d, x.d + 1, x.a, x.a + 1, x.b, x.b + 1, x.m.op4, x.m.op4 + 1]
  | .vld x => slots4 x.d ++ [x.a, x.a + 1, x.b, x.b + 1]
  | .vst x => slots4 x.d ++ [x.a, x.a + 1, x.b, x.b + 1]
  | .vprf x => slots4 x.d ++ [x.a, x.a + 1, x.b, x.b + 1]
  | .sld x => slots4 x.d ++ [x.a, x.a + 1, x.b, x.b + 1]
  | .sst x => slots4 x.d ++ [x.a, x.a + 1, x.b, x.b + 1]
  | .slda x => slots4 x.d ++ [x.a, x.a + 1, x.b, x.b + 1]
  | .sstr x => slots4 x.d ++ [x.a, x.a + 1, x.b, x.b + 1]
  | .vatmSwap x => [x.d, x.d + 1, x.a, x.a + 1, x.b, x.b + 1, x.m.op4, x.m.op4 + 1]
  | .vatmAdd x => [x.d, x.d + 1, x.a, x.a + 1, x.b, x.b + 1, x.m.op4, x.m.op4 + 1]
  | .vatmAnd x => [x.d, x.d + 1, x.a, x.a + 1, x.b, x.b + 1, x.m.op4, x.m.op4 + 1]
  | .vatmOr x => [x.d, x.d + 1, x.a, x.a + 1, x.b, x.b + 1, x.m.op4, x.m.op4 + 1]
  | .vatmXor x => [x.d, x.d + 1, x.a, x.a + 1, x.b, x.b + 1, x.m.op4, x.m.op4 + 1]
  | .vatmMins x => [x.d, x.d + 1, x.a, x.a + 1, x.b, x.b + 1, x.m.op4, x.m.op4 + 1]
  | .vatmMaxs x => [x.d, x.d + 1, x.a, x.a + 1, x.b, x.b + 1, x.m.op4, x.m.op4 + 1]
  | .vatmMinn x => [x.d, x.d + 1, x.a, x.a + 1, x.b, x.b + 1, x.m.op4, x.m.op4 + 1]
  | .vatmMaxn x => [x.d, x.d + 1, x.a, x.a + 1, x.b, x.b + 1, x.m.op4, x.m.op4 + 1]
  | .vatmFadd x => [x.d, x.d + 1, x.a, x.a + 1, x.b, x.b + 1, x.m.op4, x.m.op4 + 1]
  | .vcas x => [x.d, x.d + 1, x.a, x.a + 1, x.b, x.b + 1, x.m.op4, x.m.op4 + 1]
  | .satmSwap x => [x.d, x.d + 1, x.a, x.a + 1, x.b, x.b + 1, x.m.op4, x.m.op4 + 1]
  | .satmAdd x => [x.d, x.d + 1, x.a, x.a + 1, x.b, x.b + 1, x.m.op4, x.m.op4 + 1]
  | .satmAnd x => [x.d, x.d + 1, x.a, x.a + 1, x.b, x.b + 1, x.m.op4, x.m.op4 + 1]
  | .satmOr x => [x.d, x.d + 1, x.a, x.a + 1, x.b, x.b + 1, x.m.op4, x.m.op4 + 1]
  | .satmXor x => [x.d, x.d + 1, x.a, x.a + 1, x.b, x.b + 1, x.m.op4, x.m.op4 + 1]
  | .satmMins x => [x.d, x.d + 1, x.a, x.a + 1, x.b, x.b + 1, x.m.op4, x.m.op4 + 1]
  | .satmMaxs x => [x.d, x.d + 1, x.a, x.a + 1, x.b, x.b + 1, x.m.op4, x.m.op4 + 1]
  | .satmMinn x => [x.d, x.d + 1, x.a, x.a + 1, x.b, x.b + 1, x.m.op4, x.m.op4 + 1]
  | .satmMaxn x => [x.d, x.d + 1, x.a, x.a + 1, x.b, x.b + 1, x.m.op4, x.m.op4 + 1]
  | .satmFadd x => [x.d, x.d + 1, x.a, x.a + 1, x.b, x.b + 1, x.m.op4, x.m.op4 + 1]
  | .scas x => [x.d, x.d + 1, x.a, x.a + 1, x.b, x.b + 1, x.m.op4, x.m.op4 + 1]
  | .swini a b => [a, b]
  | .swexp a b c => [a, b, c]
  | .swwt a b => [a, b]
  | .bara a _ => [a, a + 1]
  | .barw a _ => [a, a + 1]
  | .grpq a _ => [a, a + 1]
  | .nap a _ _ => slots4 a
  | .bruZ r _ => [r, r + 1]
  | .bruNz r _ => [r, r + 1]
  | .bruLt r _ => [r, r + 1]
  | .bruGe r _ => [r, r + 1]
  | .call r _ => [r, r + 1]
  | .jmpr a => [a, a + 1]
  | .tbeg a _ => a :: List.range 32
  | .tbegIdem a _ => a :: List.range 32
  | .tclr a => [a, a + 1]
  | .csrr a _ => [a, a + 1]
  | .csrw a _ => [a, a + 1]
  | .csrs a _ => [a, a + 1]
  | .csrc a _ => [a, a + 1]
  | .cpy x => slotsCmd x
  | .cpy2 x => slotsCmd x
  | .cpyg x => slotsCmd x
  | .cpyp x => slotsCmd x
  | .cpyq x => slotsCmd x
  | .cprel a => [a, a + 1]
  | .bincl a b => [a, a + 1, a + 2, a + 3, b, b + 1]
  | .binad a b => [a, a + 1, a + 2, a + 3, b, b + 1]
  | .binrd a b => [a, a + 1, a + 2, a + 3, b, b + 1]
  | .twld x => slotsCmd x
  | .tmul x => slotsCmd x
  | .tmulX4 x => slotsCmd x
  | .tmuls x => slotsCmd x
  | .tzero x => slotsCmd x
  | .trd x => slotsCmd x
  | .aplnk x => slotsCmd x
  | .apref x => slotsCmd x
  | .attn x => slotsCmd x
  | .amrg x => slotsCmd x
  | .arcp x => slotsCmd x
  | .ssopn x => slotsCmd x
  | .ssld x => slotsCmd x
  | .sssv x => slotsCmd x
  | .ssrbk x => slotsCmd x
  | .ssfrk x => slotsCmd x
  | .ssqry x => slotsCmd x
  | .oalc x => slotsCmd x
  | .ofre x => slotsCmd x
  | .oloc x => slotsCmd x
  | .opin x => slotsCmd x
  | .ounp x => slotsCmd x
  | .ocol x => slotsCmd x
  | .omig x => slotsCmd x
  | .ocln x => slotsCmd x
  | .ored x => slotsCmd x
  | .obar x => slotsCmd x
  | .rcomm x => slotsCmd x
  | .rcqry x => slotsCmd x
  | .rcver x => slotsCmd x
  | _ => []

end Sys2Proof.Machine
end

