-- ==== Sys2Proof/Machine/Pick.lean ====
section
/-! DEFINITION. What a step does around an instruction: time, messages, the choice of a fragment (R226, R431), the fetch
and decoding of its bundle (R254, R255, R430), and the checks before its meaning (R210, R276). -/

namespace Sys2Proof.Machine

/-- One cycle passes: due timers join the messages, in the order set (R471); level events are sampled every 64 cycles
(R457). -/
def State.tick (s : State) : State :=
  let c := s.cycle + 1
  let due := (s.timers.filter (fun t => decide (t.1 ≤ c))).map (·.2)
    ++ (if c % 64 = 0 then (s.cores.filter (fun kc => kc.2.recs.any (fun r => r.en && decide (15 ≤ r.evt)))).map
          (fun kc => Msg.levelSample kc.1) else [])
  { s with cycle := c, timers := s.timers.filter (fun t => !decide (t.1 ≤ c)), pending := s.pending ++ due
           issue := none, msg := none }

/-! ### Choice of a fragment -/

/-- What a fragment waits for has come (R226): a fragment that is ready may issue. -/
def State.waitOver (s : State) (g : Gang) (f : Frag) : Bool :=
  match f.wait with
  | .ready => true
  | .room => true
  | .bar k p => (match s.groupOf g k with | some x => phasePassed x.phase p | none => true)
  | .arrive k c => (match s.groupOf g k with | some x => x.phase != c | none => true)
  | .sync core a gen => (s.swRead core a).2.2.2 != gen || (s.onRead core 0 a 16).2
  | .waitc x => g.waitcOk x
  | .regang m _ => g.regangMet m || g.regangDead
  | .fetch _ => false
  | .walk _ => false
  | .nap _ => false
  | .blocked _ => false

/-- The gang's fragments may issue: resident, started, not halted, not stopping for a trap, a save or a flush. -/
def State.gangRuns (s : State) (g : Gang) : Bool :=
  !g.retired && !g.halted && !g.entryDue && !(g.trapWanted)
    && (match s.block g.blk with | some b => !b.clearing && !((b.mode == 2 || b.mode == 3) && b.asked != 0) | none => false)

/-- Fragments resident on the partition of a gang key. -/
def State.partFrags (s : State) (k : Nat) : Nat :=
  s.gangs.foldl (fun a kg => if kg.1 / 16 = k / 16 ∧ !kg.2.retired then a + kg.2.frags.length else a) 0

/-- A candidate's rank: the partition whose last issue lies furthest back goes first, as one bundle a step stands for the two
of every partition a cycle (log entry 7); within a partition the keys of R431, greater first. -/
structure Rank where
  part : Nat
  issued : Nat
  starved : Bool
  prio : Nat
  fresh : Bool
  wait : Nat
  turn : Nat
  deriving DecidableEq, Repr

/-- Cycle at which a partition last issued. -/
def State.partIssued (s : State) (p : Nat) : Nat :=
  s.gangs.foldl (fun a kg => if kg.1 / 16 = p then kg.2.frags.foldl (fun a kf => max a kf.2.last) a else a) 0

/-- The rank of a fragment while n partitions have candidates: a wait of key 1 is counted in its partition's turns. -/
def State.rank (s : State) (n k fr : Nat) (g : Gang) (f : Frag) : Rank :=
  ⟨k / 16, s.partIssued (k / 16), decide (32 * s.partFrags k * n ≤ s.cycle - f.last), (match s.launch g.launch with | some l => l.prio | none => 0),
    decide (f.demoted ≤ s.cycle), s.cycle - f.last, ((slotOf k % 16 + 16 - s.cycle % 16) % 16) * 8 + fr⟩

/-- Rank a comes before rank b. -/
def Rank.before (a b : Rank) : Bool :=
  if a.part ≠ b.part then decide (a.issued < b.issued ∨ (a.issued = b.issued ∧ a.part < b.part))
  else if a.starved != b.starved then a.starved
  else if a.prio != b.prio then decide (b.prio < a.prio)
  else if a.fresh != b.fresh then a.fresh
  else if a.wait != b.wait then decide (b.wait < a.wait)
  else decide (a.turn < b.turn)

/-- The fragments that may issue. -/
def State.candidates (s : State) : List (Nat × Nat × Gang × Frag) :=
  s.gangs.flatMap (fun kg => if s.gangRuns kg.2 then
    (kg.2.frags.filter (fun kf => decide (kf.2.notBefore ≤ s.cycle) && s.waitOver kg.2 kf.2)).map
      (fun kf => (kg.1, kf.1, kg.2, kf.2)) else [])

/-- The best of a list by an order. -/
def bestBy {α : Type} (before : α → α → Bool) (l : List α) : Option α :=
  l.foldl (fun b c => match b with | none => some c | some x => if before c x then some c else some x) none

/-- The fragment that issues next.  One whose operands or whose room are not there is no candidate (R431, R433): such fragments
are tried again in turn, each fourth cycle while others are ready (log entry 7). -/
def State.pick (s : State) : Option (Nat × Nat) :=
  if s.cycle < s.coh.calm then none else
  let cs := s.candidates
  let held := cs.filter (fun c => c.2.2.2.wait == .room)
  let ready := cs.filter (fun c => c.2.2.2.wait != .room)
  let n := ((ready.map (fun c => c.1 / 16)).dedup).length
  if ready.isEmpty || (s.cycle % 4 == 0 && !held.isEmpty) then
    (bestBy (fun a b => decide (a.2.2.2.since < b.2.2.2.since)) held).map (fun c => (c.1, c.2.1))
  else
    (bestBy (fun (a b : Nat × Nat × Rank) => a.2.2.before b.2.2)
      (ready.map (fun c => (c.1, c.2.1, s.rank n c.1 c.2.1 c.2.2.1 c.2.2.2)))).map (fun c => (c.1, c.2.1))

/-! ### Fetch -/

/-- The words of the bundle at a virtual address, from the instruction buffer: as many as the decoder asks for, or the
address of a word whose line is missing. -/
def State.fetchWords (s : State) (core asid : Nat) : Nat → Nat → List Nat → Except Nat (List Nat)
  | 0, _, ws => .ok ws
  | n + 1, va, ws =>
    match (s.core core).ibuf.find? (fun x => x.asid == asid && x.va == va / 128 * 128) with
    | none => .error va
    | some x =>
      let ws' := ws ++ [lineGet x.data (va % 128) 4]
      match decode ws' with
      | .error .truncated => fetchWords s core asid n ((va + 4) % 2 ^ 64) ws'
      | _ => .ok ws'

/-- A line of a bundle has been used: it is the last of the buffer to be replaced (R430). -/
def State.ibufUse (s : State) (core asid pc : Nat) : State :=
  let c := s.core core
  match c.ibuf.find? (fun x => x.asid == asid && x.va == pc / 128 * 128) with
  | none => s
  | some x => if c.ibuf.getLast? = some x then s
    else s.putCore core { c with ibuf := c.ibuf.filter (fun y => !(y.asid == x.asid && y.va == x.va)) ++ [x] }

/-- A word of the bundle is not in the buffer: a fault its fetch met is raised (R255), else the line is asked for. -/
def State.fetchMiss (s : State) (i : Issue) (g : Gang) (f : Frag) (va : Nat) : State :=
  match f.walkFails.find? (fun w => w.page == va / 4096 && w.kind == 2) with
  | some w => s.trap i (2 ^ causeOfSub w.sub)
      (some (mkRec i.pc i.frag 0 false false true (g.active f) [(va, 0, w.sub, 3, 1)]))
  | none => (s.push (.ibufFill i.key i.frag va)).hold i g (.fetch va)

/-! ### Checks before a bundle -/

/-- The slice's top entry names the bundle (R210). -/
def Slice.atRc (x : Slice) (pc : Nat) : Bool := match x.stk with | e :: _ => e.rc == pc | [] => false

/-- A register slot of the instruction awaits a load's value (R276). -/
def Gang.interlocked (g : Gang) (f : Frag) (i : Instr) : Bool :=
  g.ops.any (fun ko => ko.2.cls == 0 &&
    (regsOf ko.2.n ko.2.dst).any (fun r => (slotsOf i).any (fun n => (if ko.2.scalar then f.xs else f.xv) + n == r)))

/-- What a step has to do once time has passed. -/
inductive Todo where
  | idle (s : State)
  | run (i : Instr) (s : State)
  deriving DecidableEq, Repr

/-- The bundle of a chosen fragment: held, faulted, or decoded and handed to its meaning. -/
def State.bundle (s : State) (k fr : Nat) (g : Gang) (f : Frag) : Todo :=
  let pc := g.pcOf f
  let i0 : Issue := ⟨k, fr, pc, pc, none⟩
  match s.fetchWords (coreOf k) (s.space g).1 5 pc [] with
  | .error va => .idle (s.fetchMiss i0 g f va)
  | .ok ws =>
    match decode ws with
    | .error _ => .idle (s.trap i0 (2 ^ cILLEGAL) none)
    | .ok b =>
      let i : Issue := ⟨k, fr, pc, (pc + 4 * (b.words - 1)) % 2 ^ 64, if b.hnt = 0 then none else some b.hnt⟩
      if b.instr ≠ .join ∧ (List.range 8).any (fun n => bit f.slices n && (g.slice n).atRc pc) then
        .idle (s.trap i0 (2 ^ cILLEGAL) none)
      else if g.interlocked f b.instr then .idle (s.hold i0 g .room)
      else .run b.instr { (s.ibufUse (coreOf k) (s.space g).1 i.base).ibufUse (coreOf k) (s.space g).1 pc with issue := some i }

/-- The wait between a fragment's consecutive issues is sampled when its bundle has issued (EVT 13 of R457). -/
def State.gapSample (s t : State) : State :=
  match s.issue with
  | none => t
  | some i => match (s.gang i.key).bind (fun g => g.frags.get i.frag), t.gang i.key with
    | some f, some g =>
      if (match g.frags.get i.frag with | some f' => f'.last != f.last | none => true) then t.sample i.key 13 (s.cycle - f.last)
      else t
    | _, _ => t

/-- The outcome of an instruction with what its issue is recorded as. -/
def ranOut (s : State) (o : Out) : Out :=
  match o with
  | .next t => .next (s.gapSample t)
  | .fault e => .fault e
  | .refused r => .refused r

/-- Nothing is left to do: an idle device may enter an idle level (R470). -/
def State.rest (s : State) : State :=
  if s.host.idle = 0 ∧ idleLevel s.dcb.lattol ≠ 0 ∧ s.isIdle then s.push .idleEntry else s

/-- The next message, else the next bundle, else nothing.  Without module power only its return is acted on (R471, R472),
without verified firmware CXL.io and the mailbox only (R473); a message that wakes the device is served after the wake (R470). -/
def State.todo (s : State) : Todo :=
  match s.pending with
  | m :: rest =>
    if s.host.off ∧ m ≠ .modulePowerOn then .idle { s with pending := rest }
    else if !s.host.booted && !m.mailbox then .idle { s with pending := rest }
    else if s.host.idle ≠ 0 ∧ m.wakes then .run .wake { s with msg := some .wake }
    else .run m.kind { s with pending := rest, msg := some m
                              host := { s.host with lastReq := if m.wakes then s.cycle else s.host.lastReq } }
  | [] =>
    if s.host.off then .idle s else
    match s.pick with
    | none => .idle s.rest
    | some (k, fr) =>
      match s.gang k with
      | none => .idle s
      | some g => match g.frags.get fr with
        | none => .idle s
        | some f => s.bundle k fr g f

/-! ### One instruction placed -/

/-- A launch record of one block of one gang, with the largest register allotment (R422). -/
def placedImage : List Nat :=
  List.replicate 52 0 ++ [1, 0, 0, 0, 0, 0, 1, 0, 0, 0, 0, 0] ++ [0, 1, 0, 4] ++ List.replicate 188 0

def placedLaunch : Launch where
  queue := 0
  addr := 0
  image := placedImage
  index := 0
  placed := 1
  done := 0
  nkill := 0
  code := 0
  tries := 0
  backoff := false
  waiting := none
  saved := []
  const := []
  constAt := []
  groups := []
  regen := none

def placedBlock (cyc : Nat) : Block where
  launch := 0
  b := 0
  cores := [0]
  shBase := [0]
  aBase := [0]
  cBase := [0]
  wBase := [0]
  binBase := [0]
  lpBase := [0]
  gangs := [0]
  clearing := false
  since := cyc
  asked := 0
  mode := 0
  noneAt := 0
  drains := []

/-- The state in which the next step fetches the given words as the first bundle of a kernel: no message or timer is
waiting, one gang stands at virtual address 0x1000 in slot 0 of core 0, and its core's instruction buffer holds the line. -/
def State.place (s : State) (ws : List Nat) : State :=
  let data := packBytes (ws.zipIdx.map (fun wi => (4 * wi.2, wi.1)))
  ({ s with
      pending := []
      timers := []
      gangs := [(0, Gang.fresh 0 0 0 0 256 1024 0x1000 0 false [] s.cycle)]
      sched := { s.sched with launches := [(0, placedLaunch)], blocks := [(0, placedBlock s.cycle)] }
      host := { s.host with off := false, booted := true, idle := 0 } }).putCore 0 { s.core 0 with ibuf := [⟨0, 0x1000, data⟩] }

end Sys2Proof.Machine
end

