-- ==== Sys2Proof/Machine/Step.lean ====
section
/-! DEFINITION. The step of the machine, and the placing of one instruction where the next step fetches. -/

namespace Sys2Proof.Machine

/-- One step: a cycle passes; the oldest message, or else the next bundle, is performed. -/
def step (s : State) : Out :=
  match s.tick.todo with
  | .idle s' => .next s'
  | .run i s' => ranOut s' (exec i s')

/-- The state with an instruction of the opcode table stored where the next step fetches. -/
def State.withFetchWord (s : State) (nbits w : Nat) : State := s.place (tableWords nbits w)

end Sys2Proof.Machine
end

