-- ==== Sys2Proof/Safety.lean ====
section
/-! DEFINITION. What counts as a safe run, and the terms claims are stated in: the canonical form of memory, the bundle
being performed, the conditions under which a register instruction is performed, and what it leaves as it was. -/

namespace Sys2Proof.Machine

/-- The canonical form of physical memory. -/
def State.MemOk (s : State) : Prop := Memory.wf s.mem = true

/-- A run of n steps that never stops. -/
def State.runs : Nat → State → Bool
  | 0, _ => true
  | n + 1, s => match step s with | .next s' => State.runs n s' | .fault _ => false | .refused _ => false

/-- The bundle i of fragment f of gang g is being performed. -/
structure Issuing (s : State) (i : Issue) (g : Gang) (f : Frag) : Prop where
  issue : s.issue = some i
  gang : s.gang i.key = some g
  frag : g.frags.get i.frag = some f

/-- No register element of the gang, nor its window state, is uncorrectable (R451), and a gang under checked issue stands
on a core whose two executions agree, its lanes' and its scalar unit's, with no passing disagreement due (R228). -/
structure Healthy (s : State) (i : Issue) (g : Gang) : Prop where
  badV : g.badV = []
  badU : g.badU = []
  badM : g.badM = []
  badW : g.badW = false
  alu : g.chk = true → (s.core (coreOf i.key)).aluBad = []
  scalar : g.chk = true → (s.core (coreOf i.key)).slBad = false
  once : g.chk = true → (s.core (coreOf i.key)).aluOnce = 0

/-- The absolute registers named lie within the allotment (R214). -/
def Gang.Fits (g : Gang) (vs us : List Nat) : Prop := (∀ n ∈ vs, n < g.vLim) ∧ (∀ n ∈ us, n < g.uLim)

/-- No engine command outstanding is to write one of these uniform registers (R276, R366). -/
def Gang.Unawaited (g : Gang) (us : List Nat) : Prop :=
  ∀ ko ∈ g.ops, 2 ≤ ko.2.cls → ko.2.cls ≤ 5 → ∀ r ∈ ko.2.stReg :: ko.2.res, r ∉ us

/-- A register instruction that names the vector registers vs and uniform registers us may be performed. -/
structure Clear (s : State) (i : Issue) (g : Gang) (vs us : List Nat) : Prop where
  healthy : Healthy s i g
  fits : g.Fits vs us
  unawaited : g.Unawaited us

/-- The bundle has been performed and its fragment has moved past it: nothing but gang `i.key` and the messages a hint adds
(R266) has changed; the fragment's slices stand at the next bundle with their masks and stacks; the other slices and
fragments are as they were. -/
structure Passed (s t : State) (i : Issue) (g : Gang) (f : Frag) (h : Gang) : Prop where
  rest : { t with gangs := s.gangs, pending := s.pending } = s
  others : ∀ k, k ≠ i.key → t.gang k = s.gang k
  gang : t.gang i.key = some h
  slices : ∀ n x, g.slices[n]? = some x →
    h.slices[n]? = some (if bit f.slices n then { x with pc := (i.base + 4) % 2 ^ 64 } else x)
  frag : ∃ f', h.frags.get i.frag = some f' ∧ f'.slices = f.slices ∧ f'.xv = f.xv ∧ f'.xs = f.xs ∧ f'.wait = .ready
  frags : ∀ n, n ≠ i.frag → h.frags.get n = g.frags.get n

/-- The gang h is g but for where its fragments stand. -/
def Gang.SameButFlow (g h : Gang) : Prop :=
  { h with slices := g.slices, frags := g.frags, skipBrk := g.skipBrk, replay := g.replay } = g

/-- The results of a vector destination: the value of each lane of act, zero in the lanes MZ zeroes (R264), and every other
element as it was. -/
structure LaneOut (g h : Gang) (f : Frag) (m : Modx) (wide : Bool) (d : Nat) (r : Nat → Nat) : Prop where
  act : ∀ l, l < 32 → bit (g.act f m) l = true → h.vw wide d l = r l % 2 ^ (if wide then 64 else 32)
  zeroed : ∀ l, l < 32 → bit (g.zeroed f m) l = true → h.vw wide d l = 0
  other : ∀ n l, l < 32 → (n ∉ regs wide d ∨ (bit (g.act f m) l = false ∧ bit (g.zeroed f m) l = false)) → h.v n l = g.v n l

/-- The result of a uniform destination: its value, and every other uniform register as it was. -/
structure UniOut (g h : Gang) (wide : Bool) (d v : Nat) : Prop where
  result : h.uw wide d = v % 2 ^ (if wide then 64 else 32)
  other : ∀ n, n ∉ regs wide d → h.u n = g.u n

/-- The result of a mask destination (R292): each lane of act from b, zero in the lanes MZ zeroes, the others and every
other mask register as they were; m0 takes no write (R259). -/
structure MaskOut (g h : Gang) (f : Frag) (m : Modx) (md : Nat) (b : Nat → Bool) : Prop where
  lane : md ≠ 0 → ∀ l, l < 32 → bit (h.mreg.get md).toNat l
    = if bit (g.act f m) l then b l else (!bit (g.zeroed f m) l && bit (g.mreg.get md).toNat l)
  other : ∀ n, n ≠ md ∨ md = 0 → h.mreg.get n = g.mreg.get n

/-- Writes of vector elements (register, lane, value) and of uniform registers, in order. -/
def Gang.writeV (g : Gang) (ws : List (Nat × Nat × Nat)) : Gang := ws.foldl (fun g w => g.setV w.1 w.2.1 w.2.2) g
def Gang.writeU (g : Gang) (ws : List (Nat × Nat)) : Gang := ws.foldl (fun g w => g.setU w.1 w.2) g

/-- A vector instruction was performed: lane results, floating-point flags (R238) and whether a dead lane was read (R318),
all else as it was. -/
def VecDone (s t : State) (i : Issue) (g : Gang) (f : Frag) (m : Modx) (wide : Bool) (d : Nat) (r : Nat → Nat)
    (flags : Nat) (dead : Bool := false) : Prop :=
  ∃ h, Passed s t i g f h ∧ LaneOut g h f m wide d r
    ∧ g.SameButFlow { h with vreg := g.vreg, fpstat := g.fpstat, deadsrc := g.deadsrc }
    ∧ h.fpstat = g.fpstat ||| flags ∧ h.deadsrc = (g.deadsrc || dead)

/-- A scalar instruction, or one with a uniform result, was performed: result, floating-point flags and whether a dead lane
was read, all else as it was. -/
def UniDone (s t : State) (i : Issue) (g : Gang) (f : Frag) (wide : Bool) (d v flags : Nat) (dead : Bool := false) : Prop :=
  ∃ h, Passed s t i g f h ∧ UniOut g h wide d v
    ∧ g.SameButFlow { h with sreg := g.sreg, fpstat := g.fpstat, deadsrc := g.deadsrc }
    ∧ h.fpstat = g.fpstat ||| flags ∧ h.deadsrc = (g.deadsrc || dead)

/-- An instruction with a mask result was performed. -/
def MaskDone (s t : State) (i : Issue) (g : Gang) (f : Frag) (m : Modx) (md : Nat) (b : Nat → Bool) (flags : Nat) : Prop :=
  ∃ h, Passed s t i g f h ∧ MaskOut g h f m md b
    ∧ g.SameButFlow { h with mreg := g.mreg, fpstat := g.fpstat } ∧ h.fpstat = g.fpstat ||| flags

/-- The fragment has moved on by a transfer of control (R212): each live slice of the fragment is as `go` makes it, every other
live slice as it was, and nothing of the gang but its flow has changed; physical memory and the other gangs are as they were. -/
structure Steered (s t : State) (i : Issue) (g : Gang) (f : Frag) (h : Gang) (go : Nat → Slice → Slice) : Prop where
  gang : t.gang i.key = some h
  others : ∀ k, k ≠ i.key → t.gang k = s.gang k
  mem : t.mem = s.mem
  slices : ∀ n x, g.slices[n]? = some x → n < 8 → g.sliceAlive n = true →
    h.slices[n]? = some (if bit f.slices n then go n x else x)
  same : g.SameButFlow { h with shadow := g.shadow }

/-- A memory request passes its checks (R322): no task refuses it, every lane's address is well formed, translated and
placed, its line is free of the gang's own accesses, a release below POD and a fusion wait for nothing, and its counter and the core's
request table have room. -/
structure MemReady (s : State) (i : Issue) (g : Gang) (f : Frag) (r : MemReq) : Prop where
  task : g.taskRefuses r = none
  checks : ∀ c ∈ s.checkAll i g f r, ∃ l o, c.2 = Chk.ok l o
  line : r.sp < 2 → g.lineOwed (decide (r.kind = 0 ∧ r.acq = 0)) ((accsOf (s.checkAll i g f r)).map (·.line)) = false
  count : g.count (if r.kind = 1 then 1 else 0) ≠ 255
  order : r.rel ≠ 0 → r.rel < 4 → g.memOwed true = false
  fuse : g.fuseOwed = false
  table : r.sp < 2 → s.requests (coreOf i.key) + ((accsOf (s.checkAll i g f r)).map (·.line)).dedup.length ≤ 768

/-- The bundle has raised a cause and done nothing else (R11, R440): its bit is set, the slices stay at it, no register is written,
and where the cause is enabled the entry is asked for. -/
structure Trapped (s t : State) (i : Issue) (g h : Gang) (c : Nat) : Prop where
  gang : t.gang i.key = some h
  cause : bit h.tcause c = true
  slices : h.slices = g.slices
  regs : h.vreg = g.vreg ∧ h.sreg = g.sreg ∧ h.mreg = g.mreg
  others : ∀ k, k ≠ i.key → t.gang k = s.gang k
  mem : t.mem = s.mem
  entry : bit g.tmask c = true → g.halted = false → g.entryDue = false → .trapEntry i.key ∈ t.pending

/-- What holds of the state between steps: a gang is in its handler exactly while it holds the state it left (R441, R444), its vector is
a bundle address (R360), a slot holds one gang, a die one copy of a line, and the directory one entry of it. -/
structure StateOk (s : State) : Prop where
  handler : ∀ kg ∈ s.gangs, kg.2.hm = kg.2.shadow.isSome
  vector : ∀ kg ∈ s.gangs, kg.2.tvec % 4 = 0
  slots : (s.gangs.map (·.1)).Nodup
  copies : (s.coh.lines.map (fun x => (x.die, x.line))).Nodup
  entries : (s.coh.dir.map (·.line)).Nodup

/-- A memory operation has been issued (R331): its counter has risen, the operation with its accesses is outstanding, its
slices have moved past the bundle, and nothing else of its gang has changed. -/
structure Issued (s t : State) (i : Issue) (g : Gang) (f : Frag) (r : MemReq) (h : Gang) (x : Op) : Prop where
  gang : t.gang i.key = some h
  others : ∀ k, k ≠ i.key → t.gang k = s.gang k
  op : h.ops.get g.newOp = some x
  older : ∀ o, o ≠ g.newOp → h.ops.get o = g.ops.get o
  what : x.what = r.what ∧ x.dst = r.dst ∧ x.n = r.n ∧ x.ext = r.ext ∧ x.act = r.act ∧ x.zero = r.zero ∧ x.atom = r.atom
  accs : x.accs.map (fun a => (a.lane, a.addr)) = (accsOf (s.checkAll i g f r)).map (fun a => (a.lane, a.addr))
  counter : h.ctr = g.ctr.set (if r.kind = 1 then 1 else 0) (g.count (if r.kind = 1 then 1 else 0) + 1)
  slices : ∀ n y, g.slices[n]? = some y →
    h.slices[n]? = some (if bit f.slices n then { y with pc := (i.base + 4) % 2 ^ 64 } else y)
  same : g.SameButFlow { h with ctr := g.ctr, ops := g.ops, nextOp := g.nextOp }

/-- A store of n bytes by this access, to store `want`, names byte a of store st of core c. -/
def Acc.Covers (y : Acc) (n want c st a : Nat) : Prop := y.line.name = c ∧ st = want ∧ y.off ≤ a ∧ a < y.off + n

/-- Every byte of every core's stores that is not among those named is as it was. -/
def StoresKept (s t : State) (named : Nat → Nat → Nat → Prop) : Prop :=
  ∀ c st a, ¬ named c st a → st < 5 → SMap.get ((t.core c).store st) a = SMap.get ((s.core c).store st) a

/-- A sync word (RELOAD, TARGET, COUNT, GEN) is due to advance, and its advance (R334). -/
def swDue (w : Nat × Nat × Nat × Nat) : Prop := 0 < w.2.1 ∧ w.2.1 ≤ w.2.2.1
def swNext (w : Nat × Nat × Nat × Nat) : Nat × Nat × Nat × Nat := (w.1, w.1, w.2.2.1 - w.2.1, (w.2.2.2 + 1) % 2 ^ 32)
/-- A sync word advances while it is due (R334): w' is w after j advances. -/
def SwSettled (w w' : Nat × Nat × Nat × Nat) : Prop :=
  ∃ j, w' = swNext^[j] w ∧ ¬ swDue w' ∧ ∀ m, m < j → swDue (swNext^[m] w)

/-- The fragment has moved past its bundle: its slices stand at the next one, the other gangs and physical memory are as they
were. -/
structure Moved (s t : State) (i : Issue) (g : Gang) (f : Frag) (h : Gang) : Prop where
  gang : t.gang i.key = some h
  others : ∀ k, k ≠ i.key → t.gang k = s.gang k
  mem : t.mem = s.mem
  slices : ∀ n x, g.slices[n]? = some x →
    h.slices[n]? = some (if bit f.slices n then { x with pc := (i.base + 4) % 2 ^ 64 } else x)

/-- The n descriptor registers of a command. -/
def Gang.descOf (g : Gang) (f : Frag) (n : Nat) (x : Cmd) : List Nat := (List.range n).map (fun j => g.u (f.ur x.a + j))

/-- An engine command has an active lane, its descriptor passes its checks, and there is room for it (R363 to R367). -/
structure CmdReady (s : State) (i : Issue) (g : Gang) (f : Frag) (cls n : Nat) (x : Cmd)
    (check : State → Issue → Gang → List Nat → EngChecks) : Prop where
  active : g.active f ≠ 0
  first : ∀ c ∈ (check s i g (g.descOf f n x)).1, c = none
  second : ∀ c ∈ (check s i g (g.descOf f n x)).2, c = none
  sync : x.sync = true → ∃ p, s.swPlace g (coreOf i.key) (g.u (f.ur x.c)) = .ok p
  count : g.count cls ≠ 255
  held : x.hold = true → g.heldOps.length < 16
  queue : cls = 3 → s.tileCount (coreOf i.key) < 32
  owed : g.memOwed true = false

/-- An engine command has been issued (R363, R366): it is outstanding with its descriptor and status register, its counter has
risen, and nothing else of its gang has changed. -/
structure Commanded (s t : State) (i : Issue) (g : Gang) (f : Frag) (what : Instr) (cls n : Nat) (x : Cmd) (h : Gang) (y : Op) :
    Prop where
  moved : Moved s t i g f h
  op : h.ops.get g.newOp = some y
  older : ∀ o, o ≠ g.newOp → h.ops.get o = g.ops.get o
  what : y.what = what ∧ y.cls = cls ∧ y.desc = g.descOf f n x ∧ y.stReg = f.ur x.b ∧ y.held = x.hold ∧ y.act = g.active f
  counter : h.ctr = g.ctr.set cls (g.count cls + 1)
  same : g.SameButFlow { h with ctr := g.ctr, ops := g.ops, nextOp := g.nextOp }

/-- A blocking instruction has been issued (R394, R122): its fragment waits past the bundle for operation `g.newOp`, which
waits for a drain of the core (phase 1). -/
structure BlockedOn (s t : State) (i : Issue) (g : Gang) (f : Frag) (h : Gang) (y : Op) : Prop where
  moved : Moved s t i g f h
  frag : ∃ f', h.frags.get i.frag = some f' ∧ f'.wait = .blocked g.newOp ∧ f'.slices = f.slices
  op : h.ops.get g.newOp = some y
  older : ∀ o, o ≠ g.newOp → h.ops.get o = g.ops.get o
  drain : y.phase = 1 → ∃ id d, t.coh.drains.get id = some d ∧ d.core = coreOf i.key ∧ d.serves = [(i.key, g.newOp)]
  same : g.SameButFlow { h with ops := g.ops, nextOp := g.nextOp }

/-- Every fabric port is up (R467), and every plane noted for an answer is one of the 18. -/
def State.PortsUp (s : State) : Prop :=
  (∀ p, p < 18 → s.portUp p = true) ∧ ∀ q ∈ s.fab.peersIn, ∀ n ∈ q.2.planes, n.2 < 18
/-- A message has left for a device. -/
def State.Sent (s : State) (tgt : Nat) (kind : Instr) (args : List Nat) : Prop :=
  ∃ o ∈ s.fab.outbox, o.tgt = tgt ∧ o.kind = kind ∧ o.args = args
/-- A message is on its way to a device: this one, where it waits to be taken, or another. -/
def State.Given (s : State) (tgt : Nat) (m : Msg) (args : List Nat) : Prop :=
  (tgt = s.devNum → m ∈ s.pending) ∧ (tgt ≠ s.devNum → s.Sent tgt m.kind args)
/-- A packet for a device has left, or waits because too many of its pair are unacknowledged (R141). -/
def State.Posted (s : State) (tgt : Nat) (kind : Instr) (args : List Nat) : Prop :=
  s.Sent tgt kind args ∨ ∃ h ∈ (s.peerOut tgt).hold, h.1.kind = kind ∧ h.1.args = args

/-- What a pass of R379 leaves in accumulator j of its row i, with its flags: the products of the activation row with column j of
the weight set, those that a mask of TMULS leaves out missing, added to the word that stood there. -/
def Pass.cell (p : Pass) (s : State) (i j : Nat) : Nat × Nat :=
  let a := (s.onRead p.actCore 1 (p.actBase + i * p.stride) (groupBytes p.fmt)).1
  let on (k : Nat) : Bool := match p.mask with | some b => bit (s.onRead p.core 1 (b + 32 * i) 32).1 k | none => true
  tileAcc p.fmt (((List.range 256).zip (weightCol (s.wset p.core p.set) j)).map (fun kw =>
    if on kw.1 then some ((planeVal p.fmt a kw.1).mul kw.2) else none)) (s.onRead p.core 2 (p.cBase + 1024 * i + 4 * j) 4).1
/-- Accumulators of a row that a pass writes: those of its weight set's columns. -/
def Pass.width (p : Pass) (s : State) : Nat := if (s.wset p.core p.set).fmt = 6 then 128 else 256

/-- Word j of row i that a TRD reads, the maximum of the scaled row, and the element that it writes for it (R382). -/
def Op.trdWord (x : Op) (s : State) (b : Block) (core i j : Nat) : Nat :=
  (s.onRead core 2 (b.cBase.getD (b.rankOf core) 0 + 1024 * (x.desc.getD 2 0 + i) + 4 * j) 4).1
def Op.trdMax (x : Op) (s : State) (b : Block) (core i : Nat) : Nat :=
  let r := x.desc.getD 4 0
  let sv := (List.range (rcwNcol r)).map (fun j => f32mul (x.trdWord s b core i j) (if rcwScl r then x.desc.getD 5 0 else f32one))
  sv.tail.foldl f32max (sv.headD 0)
def Op.trdOut (x : Op) (s : State) (b : Block) (core i j : Nat) : Nat :=
  let r := x.desc.getD 4 0
  (trdElem r x.ext (if rcwScl r then x.desc.getD 5 0 else f32one) (if rcwMaxb r then x.trdMax s b core i else x.desc.getD 7 0)
    (x.trdWord s b core i j)).1

/-- The 256 bytes of a slot's record (R392). -/
def State.slotBytes (s : State) (n : Nat) : Nat × Bool := s.physRead 0 (s.slotAddr n) 256
/-- The record lies outside every region, so a write of it is performed at once (R181, R187). -/
def State.slotPlain (s : State) (n : Nat) : Prop := s.regionOf (s.slotAddr n) = none ∧ s.regionOf (s.slotAddr n + 128) = none
/-- A part of a command has gone on without failure, retry, or another device. -/
def EngX.Local (x : EngX) : Prop := x.ok = true ∧ x.needs = [] ∧ x.outs = []

/-- The moves of a party stand in the table of moves under their objects, each once. -/
structure PartyOk (s : State) (m : Mig) : Prop where
  self : s.mig m.ident = some m
  members : ∀ y ∈ s.party m, s.mig y.ident = some y
  once : (s.party m).Nodup

end Sys2Proof.Machine
end

