-- ==== Sys2Proof/Certificates/Slice0/Obligations.lean ====
section
/-! DEFINITION. The statements for the provers, one Prop each.  A docstring names the rules a statement follows; where a
statement rests on a choice of the model it names the log entry. -/

open Sys2Proof Sys2Proof.Machine


/-! ### Scalar and vector integer instructions (R278 to R290) -/

/-- R278: each operation of the SINT family writes exact(op, x, y), clamped under SAT or modulo 2^n, to d; nothing else but
the fragment's place changes.  A zero divisor raises DIVZ instead and writes
nothing.
R282: each immediate form performs its operation on a fixed type with the immediate as second operand; the compares
write 1 or 0 (R279). -/
def Obligations.ScalarIntegerResult : Prop :=
  (∀ p ∈ [(Instr.sadd, IntOp.add), (Instr.ssub, IntOp.sub), (Instr.smul, IntOp.mul), (Instr.smulh, IntOp.mulh),
      (Instr.sdiv, IntOp.div), (Instr.srem, IntOp.rem), (Instr.sand, IntOp.and), (Instr.sor, IntOp.or),
      (Instr.sxor, IntOp.xor), (Instr.sshl, IntOp.shl), (Instr.sshr, IntOp.shr), (Instr.ssra, IntOp.sra),
      (Instr.smin, IntOp.min), (Instr.smax, IntOp.max), (Instr.sclz, IntOp.clz), (Instr.spopc, IntOp.popc)],
  ∀ (x : RegOp) (s : State) (i : Issue) (g : Gang) (f : Frag),
    let w := isWide x.t
    let bs := if p.2.unary then [] else regs (w && !p.2.isShift) (f.ur x.b)
    let y : Int := if p.2.unary then 0 else if p.2.isShift then ((g.u (f.ur x.b) % tWidth x.t : Nat) : Int)
      else tVal x.t (g.uw w (f.ur x.b))
    Issuing s i g f → Clear s i g [] (regs w (f.ur x.d) ++ regs w (f.ur x.a) ++ bs) →
    (¬ (p.2.divides = true ∧ y = 0) → ∃ t, exec (p.1 x) s = .next t
      ∧ UniDone s t i g f w (f.ur x.d) (tOut x.t x.m.sat (p.2.exact x.t (tVal x.t (g.uw w (f.ur x.a))) y)) 0)
    ∧ (p.2.divides = true → y = 0 → exec (p.1 x) s = .next (s.trap i (2 ^ cDIVZ) none)))
  ∧ ((∀ p ∈ [(Instr.saddS32Imm, IntOp.add, 0), (Instr.smulS32Imm, IntOp.mul, 0), (Instr.sandS32Imm, IntOp.and, 0),
      (Instr.sorS32Imm, IntOp.or, 0), (Instr.sxorS32Imm, IntOp.xor, 0), (Instr.sshlS32Imm, IntOp.shl, 0),
      (Instr.sshrS32Imm, IntOp.shr, 0), (Instr.ssraS32Imm, IntOp.sra, 0), (Instr.sminS32Imm, IntOp.min, 0),
      (Instr.smaxS32Imm, IntOp.max, 0), (Instr.sminN32Imm, IntOp.min, 1), (Instr.smaxN32Imm, IntOp.max, 1),
      (Instr.saddS64Imm, IntOp.add, 2)],
  ∀ (x : ImmOp) (s : State) (i : Issue) (g : Gang) (f : Frag),
    let w := isWide p.2.2
    Issuing s i g f → Clear s i g [] (regs w (f.ur x.d) ++ regs w (f.ur x.a)) →
    ∃ t, exec (p.1 x) s = .next t ∧ UniDone s t i g f w (f.ur x.d)
      (tOut p.2.2 x.m.sat (p.2.1.exact p.2.2 (tVal p.2.2 (g.uw w (f.ur x.a))) x.imm)) 0)
  ∧ (∀ p ∈ [(Instr.scmpEqS32Imm, fun (a : Nat) (imm : Int) => a == wrapN 32 imm),
      (Instr.scmpLtS32Imm, fun a imm => decide (tVal 0 a < imm)), (Instr.scmpLtN32Imm, fun a imm => decide (tVal 1 a < imm))],
  ∀ (x : ImmOp) (s : State) (i : Issue) (g : Gang) (f : Frag),
    Issuing s i g f → Clear s i g [] [f.ur x.d, f.ur x.a] →
    ∃ t, exec (p.1 x) s = .next t ∧ UniDone s t i g f false (f.ur x.d) (if p.2 (g.u (f.ur x.a)) x.imm then 1 else 0) 0))

/-- R279 to R281, R283, R284: compare, select, move, scaled address, constant and the reads of RDX. -/
def Obligations.ScalarMoveAndCompareResult : Prop :=
  ∀ (s : State) (i : Issue) (g : Gang) (f : Frag), Issuing s i g f →
  (∀ x : CcOp, Clear s i g [] (f.ur x.d :: (regs (isWide x.t) (f.ur x.a) ++ regs (isWide x.t) (f.ur x.b))) →
    ∃ t, exec (.scmp x) s = .next t ∧ UniDone s t i g f false (f.ur x.d)
      (if intCond x.cc (tVal x.t (g.uw (isWide x.t) (f.ur x.a))) (tVal x.t (g.uw (isWide x.t) (f.ur x.b))) then 1 else 0) 0)
  ∧ (∀ x : RegOp, let w := isWide x.t; let c := f.ur (op4Slot x.m x.d)
    Clear s i g [] (regs w (f.ur x.d) ++ regs w (f.ur x.a) ++ regs w (f.ur x.b) ++ [c]) →
    ∃ t, exec (.ssel x) s = .next t ∧ UniDone s t i g f w (f.ur x.d)
      (if g.u c ≠ 0 then g.uw w (f.ur x.a) else g.uw w (f.ur x.b)) 0)
  ∧ (∀ x : RegOp, let w := isWide x.t; Clear s i g [] (regs w (f.ur x.d) ++ regs w (f.ur x.a)) →
    ∃ t, exec (.smov x) s = .next t ∧ UniDone s t i g f w (f.ur x.d) (g.uw w (f.ur x.a)) 0)
  ∧ (∀ x : CcOp, let bw := isLong x.t
    Clear s i g [] (regs true (f.ur x.d) ++ regs true (f.ur x.a) ++ regs bw (f.ur x.b)) →
    ∃ t, exec (.slea x) s = .next t ∧ UniDone s t i g f true (f.ur x.d)
      (wrapN 64 ((g.up (f.ur x.a) : Int) + extIndex x.t (g.uw bw (f.ur x.b)) * (2 ^ x.cc : Nat))) 0)
  ∧ (∀ x : SliOp, Clear s i g [] (regs x.w64 (f.ur x.d)) →
    ∃ t, exec (.sli x) s = .next t ∧ UniDone s t i g f x.w64 (f.ur x.d) (wrapN (if x.w64 then 64 else 32) x.imm) 0)
  ∧ (∀ d k, Clear s i g [] [f.ur d] →
    ∃ t, exec (.rdx d k) s = .next t ∧ UniDone s t i g f false (f.ur d)
      (match k with | 0 => f.xv | 1 => f.xs | 2 => i.frag | 3 => g.av | _ => g.asz) 0)

/-- R286, R287: each VINT operation on each lane of act, the forms of saturating add and subtract always clamped; MZ zeroes
the other active lanes.
R290: each VINTI form on each lane of act with the immediate as second operand. -/
def Obligations.VectorIntegerResult : Prop :=
  ((∀ p ∈ [(Instr.vadd, IntOp.add, false), (Instr.vsub, IntOp.sub, false), (Instr.vmul, IntOp.mul, false),
      (Instr.vmulh, IntOp.mulh, false), (Instr.vdiv, IntOp.div, false), (Instr.vrem, IntOp.rem, false),
      (Instr.vadds, IntOp.add, true), (Instr.vsubs, IntOp.sub, true), (Instr.vmin, IntOp.min, false),
      (Instr.vmax, IntOp.max, false), (Instr.vabs, IntOp.abs, false), (Instr.vand, IntOp.and, false),
      (Instr.vor, IntOp.or, false), (Instr.vxor, IntOp.xor, false), (Instr.vshl, IntOp.shl, false),
      (Instr.vshr, IntOp.shr, false), (Instr.vsra, IntOp.sra, false), (Instr.vclz, IntOp.clz, false),
      (Instr.vpopc, IntOp.popc, false)],
  ∀ (x : RegOp) (s : State) (i : Issue) (g : Gang) (f : Frag),
    let w := isWide x.t
    let bs := if p.2.1.unary then [] else regs (w && !p.2.1.isShift) (f.vr x.b)
    let y (l : Nat) : Int := if p.2.1.unary then 0 else if p.2.1.isShift then ((g.v (f.vr x.b) l % tWidth x.t : Nat) : Int)
      else tVal x.t (g.vw w (f.vr x.b) l)
    Issuing s i g f → Clear s i g (regs w (f.vr x.d) ++ regs w (f.vr x.a) ++ bs) [] →
    ¬ (p.2.1.divides = true ∧ ∃ l, l < 32 ∧ bit (g.act f x.m) l = true ∧ y l = 0) →
    ∃ t, exec (p.1 x) s = .next t ∧ VecDone s t i g f x.m w (f.vr x.d)
      (fun l => tOut x.t (p.2.2 || x.m.sat) (p.2.1.exact x.t (tVal x.t (g.vw w (f.vr x.a) l)) (y l))) 0)
  ∧ ∀ (x : RegOp) (s : State) (i : Issue) (g : Gang) (f : Frag),
    let w := isWide x.t
    let c := f.vr (op4Slot x.m x.d)
    Issuing s i g f → Clear s i g (regs w (f.vr x.d) ++ regs w (f.vr x.a) ++ regs w (f.vr x.b) ++ regs w c) [] →
    ∃ t, exec (.vmad x) s = .next t ∧ VecDone s t i g f x.m w (f.vr x.d)
      (fun l => tOut x.t x.m.sat
        (tVal x.t (g.vw w (f.vr x.a) l) * tVal x.t (g.vw w (f.vr x.b) l) + tVal x.t (g.vw w c l))) 0)
  ∧ (∀ p ∈ [(Instr.vaddS32Imm, IntOp.add, 0, false), (Instr.vmulS32Imm, IntOp.mul, 0, false),
      (Instr.vandS32Imm, IntOp.and, 0, false), (Instr.vorS32Imm, IntOp.or, 0, false), (Instr.vxorS32Imm, IntOp.xor, 0, false),
      (Instr.vshlS32Imm, IntOp.shl, 0, false), (Instr.vshrS32Imm, IntOp.shr, 0, false), (Instr.vsraS32Imm, IntOp.sra, 0, false),
      (Instr.vminS32Imm, IntOp.min, 0, false), (Instr.vmaxS32Imm, IntOp.max, 0, false), (Instr.vminN32Imm, IntOp.min, 1, false),
      (Instr.vmaxN32Imm, IntOp.max, 1, false), (Instr.vaddsS32Imm, IntOp.add, 0, true), (Instr.vaddsN32Imm, IntOp.add, 1, true),
      (Instr.vaddS64Imm, IntOp.add, 2, false)],
  ∀ (x : ImmOp) (s : State) (i : Issue) (g : Gang) (f : Frag),
    let w := isWide p.2.2.1
    Issuing s i g f → Clear s i g (regs w (f.vr x.d) ++ regs w (f.vr x.a)) [] →
    ∃ t, exec (p.1 x) s = .next t ∧ VecDone s t i g f x.m w (f.vr x.d)
      (fun l => tOut p.2.2.1 (p.2.2.2 || x.m.sat) (p.2.1.exact p.2.2.1 (tVal p.2.2.1 (g.vw w (f.vr x.a) l)) x.imm)) 0)

/-- R288, R289: VLEA forms base + index × 2^j; VOFF moves the offset of each lane's object pointer when it stays within
[0, 2^36) and the pointer is well formed. -/
def Obligations.VectorAddressResult : Prop :=
  ∀ (s : State) (i : Issue) (g : Gang) (f : Frag), Issuing s i g f →
  (∀ (x : CcOp), let bw := isLong x.t
    Clear s i g (regs true (f.vr x.d) ++ regs true (f.vr x.a) ++ regs bw (f.vr x.b)) [] →
    ∃ t, exec (.vlea x) s = .next t ∧ VecDone s t i g f x.m true (f.vr x.d)
      (fun l => wrapN 64 ((g.vp (f.vr x.a) l : Int) + extIndex x.t (g.vw bw (f.vr x.b) l) * (2 ^ x.cc : Nat))) 0)
  ∧ (∀ (x : RegOp), let bw := isLong x.t
    Clear s i g (regs true (f.vr x.d) ++ regs true (f.vr x.a) ++ regs bw (f.vr x.b)) [] →
    ∃ t, exec (.vleaX16 x) s = .next t ∧ VecDone s t i g f x.m true (f.vr x.d)
      (fun l => wrapN 64 ((g.vp (f.vr x.a) l : Int) + extIndex x.t (g.vw bw (f.vr x.b) l) * 16)) 0)
  ∧ (∀ (x : RegOp), let bw := isLong x.t
    let moved (l : Nat) : Int := (fld (g.vp (f.vr x.a) l) 0 36 : Int) + extIndex x.t (g.vw bw (f.vr x.b) l)
    Clear s i g (regs true (f.vr x.d) ++ regs true (f.vr x.a) ++ regs bw (f.vr x.b)) [] →
    (∀ l, l < 32 → bit (g.act f x.m) l = true →
      fld (g.vp (f.vr x.a) l) 56 8 < 128 ∧ fld (g.vp (f.vr x.a) l) 36 20 ≠ 0 ∧ 0 ≤ moved l ∧ moved l < 2 ^ 36) →
    ∃ t, exec (.voff x) s = .next t ∧ VecDone s t i g f x.m true (f.vr x.d)
      (fun l => fld (g.vp (f.vr x.a) l) 36 28 * 2 ^ 36 + (moved l).toNat) 0)
  ∧ (∀ (x : ImmOp), let moved (l : Nat) : Int := (fld (g.vp (f.vr x.a) l) 0 36 : Int) + x.imm
    Clear s i g (regs true (f.vr x.d) ++ regs true (f.vr x.a)) [] →
    (∀ l, l < 32 → bit (g.act f x.m) l = true →
      fld (g.vp (f.vr x.a) l) 56 8 < 128 ∧ fld (g.vp (f.vr x.a) l) 36 20 ≠ 0 ∧ 0 ≤ moved l ∧ moved l < 2 ^ 36) →
    ∃ t, exec (.voffS64Imm x) s = .next t ∧ VecDone s t i g f x.m true (f.vr x.d)
      (fun l => fld (g.vp (f.vr x.a) l) 36 28 * 2 ^ 36 + (moved l).toNat) 0)

/-! ### Masks, moves and cross-lane instructions (R291 to R295, R305, R306, R315 to R319) -/

/-- R292, R306: the mask-writing forms set each lane of act from their condition, zero the lanes MZ zeroes, keep the others;
a write to m0 is discarded (R259).  VFCMP also raises its flags.
R293, R317: the uniform results of masks (the mask itself, its count, its lowest lane or 32) and of votes over the lanes of
act. -/
def Obligations.MaskResult : Prop :=
  ((∀ p ∈ [(Instr.mand, fun a b => a && b), (Instr.mor, fun a b => a || b), (Instr.mxor, fun a b => a != b),
      (Instr.mnot, fun a _ => !a), (Instr.mmovMm, fun a _ => a)],
  ∀ (x : MskOp) (s : State) (i : Issue) (g : Gang) (f : Frag), Issuing s i g f → Clear s i g [] [] →
    ∃ t, exec (p.1 x) s = .next t
      ∧ MaskDone s t i g f x.m x.d (fun l => p.2 (bit (g.mask f x.a) l) (bit (g.mask f x.b) l)) 0)
  ∧ (∀ (x : MskOp) (s : State) (i : Issue) (g : Gang) (f : Frag), Issuing s i g f → Clear s i g [] [f.ur x.a] →
    ∃ t, exec (.mmovMs x) s = .next t ∧ MaskDone s t i g f x.m x.d (fun l => bit (g.u (f.ur x.a)) l) 0)
  ∧ (∀ (x : MskOp) (s : State) (i : Issue) (g : Gang) (f : Frag), Issuing s i g f → Clear s i g [f.vr x.a] [] →
    ∃ t, exec (.mset x) s = .next t ∧ MaskDone s t i g f x.m x.d (fun l => g.v (f.vr x.a) l != 0) 0)
  ∧ (∀ (x : CcOp) (s : State) (i : Issue) (g : Gang) (f : Frag), let w := isWide x.t
    Issuing s i g f → Clear s i g (regs w (f.vr x.a) ++ regs w (f.vr x.b)) [] →
    ∃ t, exec (.vcmp x) s = .next t ∧ MaskDone s t i g f x.m x.d
      (fun l => intCond x.cc (tVal x.t (g.vw w (f.vr x.a) l)) (tVal x.t (g.vw w (f.vr x.b) l))) 0)
  ∧ (∀ (x : CcOp) (s : State) (i : Issue) (g : Gang) (f : Frag), let w := isF64 x.t
    let r (l : Nat) := fcmp (if w then f64 else f32) x.cc (g.vw w (f.vr x.a) l) (g.vw w (f.vr x.b) l)
    let flags := orAll ((laneList (g.act f x.m)).map (fun l => (r l).2))
    Issuing s i g f → Clear s i g (regs w (f.vr x.a) ++ regs w (f.vr x.b)) [] → fpxRaised g.fpctl flags = false →
    ∃ t, exec (.vfcmp x) s = .next t ∧ MaskDone s t i g f x.m x.d (fun l => (r l).1) flags))
  ∧ (∀ (s : State) (i : Issue) (g : Gang) (f : Frag), Issuing s i g f →
  (∀ x : MskOp, Clear s i g [] [f.ur x.d] →
    (∃ t, exec (.mmovSm x) s = .next t ∧ UniDone s t i g f false (f.ur x.d) (g.mask f x.a &&& g.act f x.m) 0)
    ∧ (∃ t, exec (.mcnt x) s = .next t ∧ UniDone s t i g f false (f.ur x.d)
        (laneCount (g.mask f x.a &&& g.mask f x.b &&& g.act f x.m)) 0)
    ∧ (∃ t, exec (.mffs x) s = .next t ∧ UniDone s t i g f false (f.ur x.d)
        ((laneList (g.mask f x.a &&& g.mask f x.b &&& g.act f x.m)).headD 32) 0))
  ∧ (∀ p ∈ [(Instr.vvoteAny, fun (_ q : Nat) => if q ≠ 0 then 1 else 0), (Instr.vvoteAll, fun a q => if q = a then 1 else 0),
      (Instr.vvoteUni, fun a q => if q = a ∨ q = 0 then 1 else 0), (Instr.vvoteBal, fun _ q => q),
      (Instr.vvoteCnt, fun _ q => laneCount q)],
    ∀ x : MskOp, let q := maskOfList ((laneList (g.act f x.m)).filter (fun l => g.v (f.vr x.a) l != 0))
    Clear s i g [f.vr x.a] [f.ur x.d] →
    ∃ t, exec (p.1 x) s = .next t ∧ UniDone s t i g f false (f.ur x.d) (p.2 (g.act f x.m) q) 0))

/-- R294: moves, broadcasts, selects and lane numbers into the lanes of act.
R295: VGET reads lane S(b) mod 32 of any live lane, and 0 with DEADSRC for a dead one; VPUT writes lane S(b) mod 32 when it
is in act, and MZ zeroes the other active lanes. -/
def Obligations.VectorMoveResult : Prop :=
  ((∀ p ∈ [(Instr.vmovW32, false), (Instr.vmovW64, true)],
  ∀ (x : MskOp) (s : State) (i : Issue) (g : Gang) (f : Frag), Issuing s i g f →
    Clear s i g (regs p.2 (f.vr x.d) ++ regs p.2 (f.vr x.a)) [] →
    ∃ t, exec (p.1 x) s = .next t ∧ VecDone s t i g f x.m p.2 (f.vr x.d) (fun l => g.vw p.2 (f.vr x.a) l) 0)
  ∧ (∀ p ∈ [(Instr.vbcstW32, false), (Instr.vbcstW64, true)],
  ∀ (x : MskOp) (s : State) (i : Issue) (g : Gang) (f : Frag), Issuing s i g f →
    Clear s i g (regs p.2 (f.vr x.d)) (regs p.2 (f.ur x.a)) →
    ∃ t, exec (p.1 x) s = .next t ∧ VecDone s t i g f x.m p.2 (f.vr x.d) (fun _ => g.uw p.2 (f.ur x.a)) 0)
  ∧ (∀ p ∈ [(Instr.vselW32, false), (Instr.vselW64, true)],
  ∀ (x : MskOp) (s : State) (i : Issue) (g : Gang) (f : Frag), Issuing s i g f →
    let c := f.vr (op4Slot x.m x.d)
    Clear s i g (regs p.2 (f.vr x.d) ++ regs p.2 (f.vr x.a) ++ regs p.2 (f.vr x.b) ++ regs p.2 c) [] →
    ∃ t, exec (p.1 x) s = .next t ∧ VecDone s t i g f x.m p.2 (f.vr x.d)
      (fun l => if g.vw p.2 c l ≠ 0 then g.vw p.2 (f.vr x.a) l else g.vw p.2 (f.vr x.b) l) 0)
  ∧ (∀ (x : MskOp) (s : State) (i : Issue) (g : Gang) (f : Frag), Issuing s i g f → Clear s i g [f.vr x.d] [] →
    ∃ t, exec (.vlane x) s = .next t ∧ VecDone s t i g f x.m false (f.vr x.d) (fun l => l) 0))
  ∧ ((∀ p ∈ [(Instr.vgetW32, false), (Instr.vgetW64, true)],
  ∀ (x : MskOp) (s : State) (i : Issue) (g : Gang) (f : Frag), Issuing s i g f →
    let l := g.u (f.ur x.b) % 32
    Clear s i g (regs p.2 (f.vr x.a)) (regs p.2 (f.ur x.d) ++ [f.ur x.b]) →
    ∃ t, exec (p.1 x) s = .next t ∧ UniDone s t i g f p.2 (f.ur x.d)
      (if bit g.live l then g.vw p.2 (f.vr x.a) l else 0) 0 (!bit g.live l))
  ∧ (∀ p ∈ [(Instr.vputW32, false), (Instr.vputW64, true)],
  ∀ (x : MskOp) (s : State) (i : Issue) (g : Gang) (f : Frag), Issuing s i g f →
    let l := g.u (f.ur x.b) % 32
    let d := f.vr x.d
    let zero (j : Nat) := x.m.mz && bit (g.active f) j && !(bit (g.act f x.m) l && j == l)
    Clear s i g (regs p.2 d) (regs p.2 (f.ur x.a) ++ [f.ur x.b]) →
    ∃ t h, exec (p.1 x) s = .next t ∧ Passed s t i g f h
      ∧ (bit (g.act f x.m) l = true → h.vw p.2 d l = g.uw p.2 (f.ur x.a))
      ∧ (∀ j, j < 32 → zero j = true → h.vw p.2 d j = 0)
      ∧ (∀ n j, j < 32 → (n ∉ regs p.2 d ∨ (zero j = false ∧ ¬ (bit (g.act f x.m) l = true ∧ j = l))) → h.v n j = g.v n j)
      ∧ g.SameButFlow { h with vreg := g.vreg }))

/-- R316: the four shuffles read their source lane of any live lane; a dead one gives 0 and sets DEADSRC. -/
def Obligations.ShuffleResult : Prop :=
  (∀ (x : RegOp) (s : State) (i : Issue) (g : Gang) (f : Frag), Issuing s i g f →
    let w := isF64 x.t
    let src (l : Nat) := g.v (f.vr x.b) l % 32
    Clear s i g (regs w (f.vr x.d) ++ regs w (f.vr x.a) ++ [f.vr x.b]) [] →
    ∃ t, exec (.vshf x) s = .next t ∧ VecDone s t i g f x.m w (f.vr x.d)
      (fun l => if bit g.live (src l) then g.vw w (f.vr x.a) (src l) else 0) 0
      ((laneList (g.act f x.m)).any (fun l => !bit g.live (src l))))
  ∧ (∀ p ∈ [(Instr.vshfu, fun (k l : Nat) => if l < k then l else l - k), (Instr.vshfd, fun k l => if 31 < l + k then l else l + k),
      (Instr.vshfx, fun k l => (l ^^^ k) % 32)],
  ∀ (x : RegOp) (s : State) (i : Issue) (g : Gang) (f : Frag), Issuing s i g f →
    let w := isF64 x.t
    let src (l : Nat) := p.2 (g.u (f.ur x.b) % 32) l
    Clear s i g (regs w (f.vr x.d) ++ regs w (f.vr x.a)) [f.ur x.b] →
    ∃ t, exec (p.1 x) s = .next t ∧ VecDone s t i g f x.m w (f.vr x.d)
      (fun l => if bit g.live (src l) then g.vw w (f.vr x.a) (src l) else 0) 0
      ((laneList (g.act f x.m)).any (fun l => !bit g.live (src l))))

/-- R318, R249: reductions combine the lanes of act along the fixed tree, giving the identity when act is empty; scans give
each lane of act the combination of its predecessors in the tree's order. -/
def Obligations.ReductionAndScanResult : Prop :=
  (∀ p ∈ [(Instr.vrsum, RedOp.sum), (Instr.vrmin, RedOp.min), (Instr.vrmax, RedOp.max)],
  ∀ (x : RegOp) (s : State) (i : Issue) (g : Gang) (f : Frag), Issuing s i g f →
    let w := isWideXl x.t
    let r := (tree (p.2.combine x.t (g.rm x.m)) (redInputs x g f)).getD (p.2.ident x.t, 0)
    Clear s i g (regs w (f.vr x.a)) (regs w (f.ur x.d)) → fpxRaised g.fpctl r.2 = false →
    ∃ t, exec (p.1 x) s = .next t ∧ UniDone s t i g f w (f.ur x.d) r.1 r.2)
  ∧ (∀ p ∈ [(Instr.vscanAdd, RedOp.sum), (Instr.vscanMin, RedOp.min), (Instr.vscanMax, RedOp.max)],
  ∀ (x : RegOp) (s : State) (i : Issue) (g : Gang) (f : Frag), Issuing s i g f →
    let w := isWideXl x.t
    let r := scan (p.2.combine x.t (g.rm x.m)) (redInputs x g f)
    let flags := orAll (r.map (fun o => match o with | some v => v.2 | none => 0))
    Clear s i g (regs w (f.vr x.d) ++ regs w (f.vr x.a)) [] → fpxRaised g.fpctl flags = false →
    ∃ t, exec (p.1 x) s = .next t ∧ VecDone s t i g f x.m w (f.vr x.d)
      (fun l => match (r[l]?).join with | some v => v.1 | none => 0) flags)

/-! ### Floating point (R296 to R314) -/

/-- R298 to R302: each VFLT form on each value position of each lane of act, with the rounding mode of R234 and the flags of
every lane; FPX is not enabled for them. -/
def Obligations.VectorFloatResult : Prop :=
  (∀ p ∈ [(Instr.vfadd, fun fm rm sat => fadd fm rm sat false), (Instr.vfsub, fun fm rm sat => fadd fm rm sat true),
      (Instr.vfmul, fmul), (Instr.vfmin, fun fm _ _ => fminmax fm false), (Instr.vfmax, fun fm _ _ => fminmax fm true),
      (Instr.vfdiv, fdiv), (Instr.vfsgn, fun fm _ _ a b => (a % 2 ^ (fm.width - 1) + signOf fm b, 0))],
  ∀ (x : RegOp) (s : State) (i : Issue) (g : Gang) (f : Frag), Issuing s i g f →
    let w := isF64 x.t
    let r (l : Nat) := vfLane x.t (fun fm a b _ => p.2 fm (g.rm x.m) x.m.sat a b) (g.vw w (f.vr x.a) l) (g.vw w (f.vr x.b) l) 0
    let flags := orAll ((laneList (g.act f x.m)).map (fun l => (r l).2))
    Clear s i g (regs w (f.vr x.d) ++ regs w (f.vr x.a) ++ regs w (f.vr x.b)) [] → fpxRaised g.fpctl flags = false →
    ∃ t, exec (p.1 x) s = .next t ∧ VecDone s t i g f x.m w (f.vr x.d) (fun l => (r l).1) flags)
  ∧ (∀ p ∈ [(Instr.vffma, false, false), (Instr.vffms, false, true), (Instr.vfnfma, true, false)],
  ∀ (x : RegOp) (s : State) (i : Issue) (g : Gang) (f : Frag), Issuing s i g f →
    let w := isF64 x.t
    let c := f.vr (op4Slot x.m x.d)
    let r (l : Nat) := vfLane x.t (fun fm a b z => fma fm (g.rm x.m) x.m.sat p.2.1 p.2.2 a b z)
      (g.vw w (f.vr x.a) l) (g.vw w (f.vr x.b) l) (g.vw w c l)
    let flags := orAll ((laneList (g.act f x.m)).map (fun l => (r l).2))
    Clear s i g (regs w (f.vr x.d) ++ regs w (f.vr x.a) ++ regs w (f.vr x.b) ++ regs w c) [] →
    fpxRaised g.fpctl flags = false →
    ∃ t, exec (p.1 x) s = .next t ∧ VecDone s t i g f x.m w (f.vr x.d) (fun l => (r l).1) flags)
  ∧ (∀ p ∈ [(Instr.vfsqrt, fun fm rm sat a => fsqrt fm rm sat a), (Instr.vfabs, fun fm _ _ a => (a % 2 ^ (fm.width - 1), 0)),
      (Instr.vfneg, fun fm _ _ a => (a ^^^ 2 ^ (fm.width - 1), 0))],
  ∀ (x : RegOp) (s : State) (i : Issue) (g : Gang) (f : Frag), Issuing s i g f →
    let w := isF64 x.t
    let r (l : Nat) := vfLane x.t (fun fm a _ _ => p.2 fm (g.rm x.m) x.m.sat a) (g.vw w (f.vr x.a) l) 0 0
    let flags := orAll ((laneList (g.act f x.m)).map (fun l => (r l).2))
    Clear s i g (regs w (f.vr x.d) ++ regs w (f.vr x.a)) [] → fpxRaised g.fpctl flags = false →
    ∃ t, exec (p.1 x) s = .next t ∧ VecDone s t i g f x.m w (f.vr x.d) (fun l => (r l).1) flags)
  ∧ (∀ (x : RegOp) (s : State) (i : Issue) (g : Gang) (f : Frag), Issuing s i g f →
    let w := isF64 x.t
    Clear s i g (regs false (f.vr x.d) ++ regs w (f.vr x.a)) [] →
    ∃ t, exec (.vfclass x) s = .next t ∧ VecDone s t i g f x.m false (f.vr x.d)
      (fun l => fclass (if w then f64 else f32) (g.vw w (f.vr x.a) l)) 0)
  ∧ (∀ (x : RegOp) (s : State) (i : Issue) (g : Gang) (f : Frag), Issuing s i g f →
    let w := isF64 x.t
    let r (l : Nat) := fldx (if w then f64 else f32) (g.rm x.m) x.m.sat (g.vw w (f.vr x.a) l) (sextN 32 (g.v (f.vr x.b) l))
    let flags := orAll ((laneList (g.act f x.m)).map (fun l => (r l).2))
    Clear s i g (regs w (f.vr x.d) ++ regs w (f.vr x.a) ++ [f.vr x.b]) [] → fpxRaised g.fpctl flags = false →
    ∃ t, exec (.vfldx x) s = .next t ∧ VecDone s t i g f x.m w (f.vr x.d) (fun l => (r l).1) flags)

/-- R303 to R305: the scalar floating-point forms on uniform registers. -/
def Obligations.ScalarFloatResult : Prop :=
  (∀ p ∈ [(Instr.sfadd, fun fm rm sat => fadd fm rm sat false), (Instr.sfmul, fmul)],
  ∀ (x : RegOp) (s : State) (i : Issue) (g : Gang) (f : Frag), Issuing s i g f →
    let w := isF64 x.t
    let r := p.2 (if w then f64 else f32) (g.rm x.m) x.m.sat (g.uw w (f.ur x.a)) (g.uw w (f.ur x.b))
    Clear s i g [] (regs w (f.ur x.d) ++ regs w (f.ur x.a) ++ regs w (f.ur x.b)) → fpxRaised g.fpctl r.2 = false →
    ∃ t, exec (p.1 x) s = .next t ∧ UniDone s t i g f w (f.ur x.d) r.1 r.2)
  ∧ (∀ (x : RegOp) (s : State) (i : Issue) (g : Gang) (f : Frag), Issuing s i g f →
    let w := isF64 x.t
    let c := f.ur (op4Slot x.m x.d)
    let r := fma (if w then f64 else f32) (g.rm x.m) x.m.sat false false (g.uw w (f.ur x.a)) (g.uw w (f.ur x.b)) (g.uw w c)
    Clear s i g [] (regs w (f.ur x.d) ++ regs w (f.ur x.a) ++ regs w (f.ur x.b) ++ regs w c) → fpxRaised g.fpctl r.2 = false →
    ∃ t, exec (.sffma x) s = .next t ∧ UniDone s t i g f w (f.ur x.d) r.1 r.2)
  ∧ (∀ (x : CcOp) (s : State) (i : Issue) (g : Gang) (f : Frag), Issuing s i g f →
    let w := isF64 x.t
    let r := fcmp (if w then f64 else f32) x.cc (g.uw w (f.ur x.a)) (g.uw w (f.ur x.b))
    Clear s i g [] (f.ur x.d :: (regs w (f.ur x.a) ++ regs w (f.ur x.b))) → fpxRaised g.fpctl r.2 = false →
    ∃ t, exec (.sfcmp x) s = .next t ∧ UniDone s t i g f false (f.ur x.d) (if r.1 then 1 else 0) r.2)
  ∧ (∀ (x : CvtOp) (s : State) (i : Issue) (g : Gang) (f : Frag), Issuing s i g f →
    let dw := isWideCode x.x
    let aw := isWideCode x.y
    let r := cvt (regTy x.y) (regTy x.x) (g.rm x.m) x.m.sat (f8ov g.fpctl) (lowBits (regTy x.y) (g.uw aw (f.ur x.a)))
    Clear s i g [] (regs dw (f.ur x.d) ++ regs aw (f.ur x.a)) → fpxRaised g.fpctl r.2 = false →
    ∃ t, exec (.sfcvt x) s = .next t ∧ UniDone s t i g f dw (f.ur x.d) r.1 r.2)

/-- R307 to R314: special functions and conversions on each lane of act. -/
def Obligations.SpecialFunctionAndConversionResult : Prop :=
  ∀ (s : State) (i : Issue) (g : Gang) (f : Frag), Issuing s i g f →
  (∀ p ∈ [(Instr.vlg2, flg2), (Instr.vsin, fsincos false), (Instr.vcos, fsincos true)], ∀ x : MskOp,
    let r (l : Nat) := p.2 (g.v (f.vr x.a) l)
    let flags := orAll ((laneList (g.act f x.m)).map (fun l => (r l).2))
    Clear s i g [f.vr x.d, f.vr x.a] [] → fpxRaised g.fpctl flags = false →
    ∃ t, exec (p.1 x) s = .next t ∧ VecDone s t i g f x.m false (f.vr x.d) (fun l => (r l).1) flags)
  ∧ (∀ p ∈ [(Instr.vrcp, frcp), (Instr.vrsq, frsq)], ∀ x : RegOp,
    let w := isF64 x.t
    let r (l : Nat) := p.2 (if w then f64 else f32) (g.vw w (f.vr x.a) l)
    let flags := orAll ((laneList (g.act f x.m)).map (fun l => (r l).2))
    Clear s i g (regs w (f.vr x.d) ++ regs w (f.vr x.a)) [] → fpxRaised g.fpctl flags = false →
    ∃ t, exec (p.1 x) s = .next t ∧ VecDone s t i g f x.m w (f.vr x.d) (fun l => (r l).1) flags)
  ∧ (∀ x : MskOp, let c := f.vr (op4Slot x.m x.d)
    let sc := g.u (f.ur x.b)
    let flags := orAll ((laneList (g.act f x.m)).map (fun l =>
      if isSnan f32 (g.v (f.vr x.a) l) || isSnan f32 sc || isSnan f32 (g.v c l) then fNV else 0))
    Clear s i g [f.vr x.d, f.vr x.a, c] [f.ur x.b] → fpxRaised g.fpctl flags = false →
    ∃ t, exec (.vex2s x) s = .next t
      ∧ VecDone s t i g f x.m false (f.vr x.d) (fun l => exp2s (g.v (f.vr x.a) l) sc (g.v c l)) flags)
  ∧ (∀ x : CvtOp, let aw := isWideCode x.y
    let r (l : Nat) := cvt (regTy x.y) (regTy x.x) (g.rm x.m) x.m.sat (f8ov g.fpctl)
      (lowBits (regTy x.y) (g.vw aw (f.vr x.a) l))
    let flags := orAll ((laneList (g.act f x.m)).map (fun l => (r l).2))
    Clear s i g (regs (isWideCode x.x) (f.vr x.d) ++ regs aw (f.vr x.a)) [] → fpxRaised g.fpctl flags = false →
    ∃ t, exec (.vcvt x) s = .next t ∧ VecDone s t i g f x.m (isWideCode x.x) (f.vr x.d) (fun l => (r l).1) flags)
  ∧ (∀ x : CvtOp, let ty := narrowTy x.x
    let src : NumTy := if ty.isInt then .int true 32 else .flt f32
    let one (v : Nat) := cvt src ty (g.rm x.m) x.m.sat (f8ov g.fpctl) v
    let r (l : Nat) : Flagged :=
      let p := one (g.v (f.vr x.a) l)
      let q := one (g.v (f.vr x.b) l)
      if ty.width = 8 then
        (linePut (linePut (g.v (f.vr x.d) l) (2 * x.y) 1 p.1) (2 * x.y + 1) 1 q.1, p.2 ||| q.2)
      else (p.1 + 2 ^ 16 * q.1, p.2 ||| q.2)
    let flags := orAll ((laneList (g.act f x.m)).map (fun l => (r l).2))
    Clear s i g [f.vr x.d, f.vr x.a, f.vr x.b] [] → fpxRaised g.fpctl flags = false →
    ∃ t, exec (.vpack x) s = .next t ∧ VecDone s t i g f x.m false (f.vr x.d) (fun l => (r l).1) flags)
  ∧ (∀ x : CvtOp, let ty := narrowTy x.x
    let dst : NumTy := if ty.isInt then .int true 32 else .flt f32
    let r (l : Nat) := cvt ty dst .rne false false (fld (g.v (f.vr x.a) l) (ty.width * x.y) ty.width)
    let flags := orAll ((laneList (g.act f x.m)).map (fun l => (r l).2))
    Clear s i g [f.vr x.d, f.vr x.a] [] → fpxRaised g.fpctl flags = false →
    ∃ t, exec (.vunpk x) s = .next t ∧ VecDone s t i g f x.m false (f.vr x.d) (fun l => (r l).1) flags)
  ∧ (∀ x : CvtOp, let c := f.vr (op4Slot x.m x.d)
    let r (l : Nat) := gq4Deq (g.rm x.m) (fld (g.v (f.vr x.a) l) (4 * x.y) 4) (g.v (f.vr x.b) l % 256) (g.v c l)
    let flags := orAll ((laneList (g.act f x.m)).map (fun l => (r l).2))
    Clear s i g [f.vr x.d, f.vr x.a, f.vr x.b, c] [] → fpxRaised g.fpctl flags = false →
    ∃ t, exec (.vdeq x) s = .next t ∧ VecDone s t i g f x.m false (f.vr x.d) (fun l => (r l).1) flags)

/-! ### Memory (R320 to R331) -/

/-- R322, R327, R331: a load, an atomic or a release store whose checks pass becomes an outstanding operation of its class;
registers stay until it returns. -/
def Obligations.MemoryOperationIssues : Prop :=
  ∀ (s : State) (i : Issue) (g : Gang) (f : Frag), Issuing s i g f →
  (∀ x : MemOp,
    Clear s i g (vmemPlan false x g f).useV (vmemPlan false x g f).useU → MemReady s i g f (vmemReq (.vld x) 0 x g f) →
    ∃ t h y, exec (.vld x) s = .next t ∧ Issued s t i g f (vmemReq (.vld x) 0 x g f) h y ∧ t.mem = s.mem)
  ∧ (∀ p ∈ [(Instr.sld, none), (Instr.slda, some 1)], ∀ x : MemOp, let r := smemReq (p.1 x) 0 (p.2.getD x.m.ord) x g f
    Clear s i g [] (smemPlan false x g f).useU → MemReady s i g f r →
    ∃ t h y, exec (p.1 x) s = .next t ∧ Issued s t i g f r h y ∧ t.mem = s.mem)
  ∧ (∀ p ∈ [(Instr.sstr, fun x => smemReq (.sstr x) 1 2 x g f), (Instr.sst, fun x => smemReq (.sst x) 1 x.m.ord x g f),
      (Instr.vst, fun x => vmemReq (.vst x) 1 x g f)],
    ∀ x : MemOp, let r := p.2 x
    Clear s i g (if r.scalar then [] else (vmemPlan true x g f).useV)
      (if r.scalar then (smemPlan true x g f).useU else (vmemPlan true x g f).useU) → MemReady s i g f r →
    r.rel ≠ 0 → (g.task = false ∨ 2 ≤ r.sp) → ∃ t h y, exec (p.1 x) s = .next t ∧ Issued s t i g f r h y)
  ∧ (∀ p ∈ [(Instr.vatmSwap, 0), (Instr.vatmAdd, 1), (Instr.vatmAnd, 2), (Instr.vatmOr, 3), (Instr.vatmXor, 4),
      (Instr.vatmMins, 5), (Instr.vatmMaxs, 6), (Instr.vatmMinn, 7), (Instr.vatmMaxn, 8), (Instr.vatmFadd, 9), (Instr.vcas, 15)],
    ∀ x : AtomOp, let r := vatomReq (p.1 x) p.2 x g f
    Clear s i g (vatomPlan (p.2 == 15) x g f).useV [] → MemReady s i g f r →
    ∃ t h y, exec (p.1 x) s = .next t ∧ Issued s t i g f r h y)
  ∧ (∀ p ∈ [(Instr.satmSwap, 0), (Instr.satmAdd, 1), (Instr.satmAnd, 2), (Instr.satmOr, 3), (Instr.satmXor, 4),
      (Instr.satmMins, 5), (Instr.satmMaxs, 6), (Instr.satmMinn, 7), (Instr.satmMaxn, 8), (Instr.satmFadd, 9), (Instr.scas, 15)],
    ∀ x : AtomOp, let r := satomReq (p.1 x) p.2 x g f
    Clear s i g [] (satomPlan (p.2 == 15) x g f).useU → MemReady s i g f r →
    ∃ t h y, exec (p.1 x) s = .next t ∧ Issued s t i g f r h y)

/-- R91, R158, R322: a plain store to an on-core store completes with its registers and masks as they were: each byte of a
store holds the data of the highest lane that names it, every other byte of every store, physical memory and the other gangs are as
they were.
R102, R331, R175: a plain store to .O or .D completes at once.  Outside a task its bytes stand in the core's L1: the line of
the highest lane holds that lane's bytes, valid and dirty, and a store of one lane adds them to what its line held.  Inside a
versioned task a store to lines of the version changes the version alone, for one lane by the stored bytes: no cache of a core
changes; that a store with GANG release is held in the version like any other is the model's reading (log entry 23).  Registers,
masks, the other gangs and physical memory are as they were. -/
def Obligations.StoresWrite : Prop :=
  (∀ (s : State) (i : Issue) (g : Gang) (f : Frag), Issuing s i g f → g.retired = false →
  (∀ p ∈ [(Instr.sst, fun x => smemReq (.sst x) 1 x.m.ord x g f), (Instr.vst, fun x => vmemReq (.vst x) 1 x g f)],
    ∀ x : MemOp, let r := p.2 x
    Clear s i g (if r.scalar then [] else (vmemPlan true x g f).useV)
      (if r.scalar then (smemPlan true x g f).useU else (vmemPlan true x g f).useU) →
    MemReady s i g f r → 2 ≤ r.sp → r.rel = 0 → g.headOf 1 = none →
    ∃ t h, exec (p.1 x) s = .next t ∧ Moved s t i g f h ∧ h.vreg = g.vreg ∧ h.sreg = g.sreg ∧ h.mreg = g.mreg
      ∧ StoresKept s t (fun c st a => ∃ y ∈ accsOf (s.checkAll i g f r), y.Covers r.n (spaceStore r.sp) c st a)
      ∧ (∀ pre y post, accsOf (s.checkAll i g f r) = pre ++ y :: post → ∀ b, b < r.n →
          (∀ z ∈ post, ¬ z.Covers r.n (spaceStore r.sp) y.line.name (spaceStore r.sp) (y.off + b)) →
          SMap.get ((t.core y.line.name).store (spaceStore r.sp)) (y.off + b) = BitVec.ofNat 8 (y.b / 256 ^ b))))
  ∧ (∀ (s : State) (i : Issue) (g : Gang) (f : Frag), Issuing s i g f → g.retired = false →
  (∀ p ∈ [(Instr.sst, fun x => smemReq (.sst x) 1 x.m.ord x g f), (Instr.vst, fun x => vmemReq (.vst x) 1 x g f)],
    ∀ (x : MemOp), let r := p.2 x
    Clear s i g (if r.scalar then [] else (vmemPlan true x g f).useV)
      (if r.scalar then (smemPlan true x g f).useU else (vmemPlan true x g f).useU) →
    MemReady s i g f r → r.sp < 2 → r.rel = 0 → g.headOf 1 = none → g.task = false →
    ∃ t h, exec (p.1 x) s = .next t ∧ Moved s t i g f h ∧ h.vreg = g.vreg ∧ h.sreg = g.sreg ∧ h.mreg = g.mreg ∧ h.spec = g.spec
      ∧ (∀ y ∈ (accsOf (s.checkAll i g f r)).getLast?, ∃ z, (t.core (coreOf i.key)).l1Find y.line = some z
          ∧ lineGet z.data y.off r.n = y.b % 256 ^ r.n ∧ andNot (maskOf y.off r.n) z.valid = 0 ∧ andNot (maskOf y.off r.n) z.dirty = 0)
      ∧ (∀ y, accsOf (s.checkAll i g f r) = [y] → ∃ z, (t.core (coreOf i.key)).l1Find y.line = some z
          ∧ (let old := ((s.core (coreOf i.key)).l1Find y.line).getD ⟨y.line, 0, 0, 0, false, false⟩
             z.data = linePut old.data y.off r.n y.b ∧ z.valid = old.valid ||| maskOf y.off r.n
               ∧ z.dirty = old.dirty ||| maskOf y.off r.n)))
  ∧ (∀ p ∈ [(Instr.sst, fun x => smemReq (.sst x) 1 x.m.ord x g f), (Instr.sstr, fun x => smemReq (.sstr x) 1 2 x g f),
      (Instr.vst, fun x => vmemReq (.vst x) 1 x g f)],
    ∀ (x : MemOp), let r := p.2 x
    Clear s i g (if r.scalar then [] else (vmemPlan true x g f).useV)
      (if r.scalar then (smemPlan true x g f).useU else (vmemPlan true x g f).useU) →
    MemReady s i g f r → r.sp < 2 → g.headOf 1 = none → g.task = true →
    (∀ y ∈ accsOf (s.checkAll i g f r), ∃ v ∈ g.spec, v.line.same y.line = true) →
    ∃ t h, exec (p.1 x) s = .next t ∧ Moved s t i g f h ∧ t.cores = s.cores ∧ h.vreg = g.vreg ∧ h.sreg = g.sreg ∧ h.mreg = g.mreg
      ∧ h.spec.map (·.line.obj) = g.spec.map (·.line.obj) ∧ h.spec.map (·.line.name) = g.spec.map (·.line.name)
      ∧ (∀ y v, accsOf (s.checkAll i g f r) = [y] → g.spec.find? (fun z => z.line.same y.line) = some v →
          h.spec = g.spec.map (fun z => if z.line.same y.line then
            { v with data := linePut v.data y.off r.n y.b, mask := v.mask ||| maskOf y.off r.n } else z))))

/-- R326: a prefetch raises nothing and waits for nothing: the fragment moves on with every register as it was; what it waits for
in memory is no outstanding load or store. -/
def Obligations.PrefetchMovesOn : Prop :=
  ∀ (s : State) (i : Issue) (g : Gang) (f : Frag) (x : MemOp), Issuing s i g f →
    Clear s i g (vmemPlan false x g f).rdV (vmemPlan false x g f).useU →
    ∃ t h, exec (.vprf x) s = .next t ∧ t.gang i.key = some h ∧ g.SameButFlow { h with ops := g.ops, nextOp := g.nextOp }
      ∧ (∀ o y, g.ops.get o = some y → h.ops.get o = some y)
      ∧ (∀ o y, h.ops.get o = some y → g.ops.get o = none → y.cls = 7)
      ∧ ∀ n y, g.slices[n]? = some y →
          h.slices[n]? = some (if bit f.slices n then { y with pc := (i.base + 4) % 2 ^ 64 } else y)

/-- R321, R322, R331: LOAD_RETURN of a completed load, the oldest of its class, writes each lane's register with the value read,
extended as the width says, lowers the counter LD and ends the operation. -/
def Obligations.LoadReturnWrites : Prop :=
  ∀ (s : State) (k o : Nat) (g : Gang) (x : Op), s.msg = some (.loadReturn k o) → s.gang k = some g →
    g.ops.get o = some x → g.headOf 0 = some (o, x) → x.cls = 0 → x.code = 0 → g.retired = false →
    (∀ a ∈ x.accs, a.err = 0 ∧ a.bad = false) → ({ g with ops := g.ops.erase o } : Gang).headOf 0 = none →
    ∃ t h, exec .loadReturn s = .next t ∧ t.gang k = some h ∧ t.mem = s.mem
      ∧ h.ops = g.ops.erase o ∧ h.ctr = g.ctr.set 0 (g.count 0 - 1) ∧ h.mreg = g.mreg
      ∧ (x.scalar = false → h.vreg = (g.writeV (x.writes g)).vreg ∧ h.sreg = g.sreg)
      ∧ (x.scalar = true → h.vreg = g.vreg ∧ ∀ a ∈ x.accs.head?, ∀ n, n < (x.n + 3) / 4 →
          h.u (x.dst + n) = extendW x.ext (a.val.getD 0) / 2 ^ (32 * n) % 2 ^ 32)

/-! ### Control flow, windows and system instructions (R208 to R219, R284, R340 to R362) -/

/-- R284: SETXV and SETXS set the fragment's window base when it lies below the limit, and nothing else.
R348, R355 to R357: NOP and YIELD only move on; TCLR clears the TCAUSE bits below 24 that its register names; BRK with its
cause masked sets the bit and moves on. -/
def Obligations.WindowsAndSystemInstructionsMoveOn : Prop :=
  (∀ (s : State) (i : Issue) (g : Gang) (f : Frag) (base : Nat), Issuing s i g f → g.badW = false →
  (base < g.vLim → ∃ t h f', exec (.setxv base) s = .next t ∧ t.gang i.key = some h ∧ h.frags.get i.frag = some f'
    ∧ f'.xv = base ∧ f'.xs = f.xs ∧ f'.slices = f.slices ∧ g.SameButFlow h ∧ t.mem = s.mem)
  ∧ (base < g.uLim → ∃ t h f', exec (.setxs base) s = .next t ∧ t.gang i.key = some h ∧ h.frags.get i.frag = some f'
    ∧ f'.xs = base ∧ f'.xv = f.xv ∧ f'.slices = f.slices ∧ g.SameButFlow h ∧ t.mem = s.mem)
  ∧ (g.vLim ≤ base → exec (.setxv base) s = .next (s.trap i (2 ^ cBOUNDS) none))
  ∧ (g.uLim ≤ base → exec (.setxs base) s = .next (s.trap i (2 ^ cBOUNDS) none)))
  ∧ (∀ (s : State) (i : Issue) (g : Gang) (f : Frag), Issuing s i g f →
  (Clear s i g [] [] → (∃ t h, exec .nop s = .next t ∧ Passed s t i g f h ∧ g.SameButFlow h)
    ∧ (∃ t h, exec .yield s = .next t ∧ Passed s t i g f h ∧ g.SameButFlow h))
  ∧ (∀ a, Clear s i g [] [f.ur a] → ∃ t h, exec (.tclr a) s = .next t ∧ Passed s t i g f h
      ∧ h.tcause = andNot g.tcause (g.u (f.ur a) % 2 ^ 24) ∧ g.SameButFlow { h with tcause := g.tcause, late := g.late })
  ∧ (∀ code, Clear s i g [] [] → bit g.skipBrk i.frag = false → bit g.tmask cBRKPT = false →
      ∃ t h, exec (.brk code) s = .next t ∧ Passed s t i g f h ∧ h.tcause = g.tcause ||| 2 ^ cBRKPT
        ∧ g.SameButFlow { h with tcause := g.tcause }))

/-- R341, R344: a branch whose condition holds sends every slice of its fragment to its target, one whose condition fails
moves on; CALL writes the address of the next bundle to its pair; JMPR goes to an aligned target.
R208, R342: BRV divides the live active lanes of each slice by its mask: taken lanes go to the target, the others wait on the
stack at the fall-through with the reconvergence point; a slice of one kind does not push. -/
def Obligations.BranchesGoToTheirTargets : Prop :=
  (∀ (s : State) (i : Issue) (g : Gang) (f : Frag), Issuing s i g f → g.liveUnf ≠ 0 →
  (∀ disp, Clear s i g [] [] → ∃ t h, exec (.bru disp) s = .next t
    ∧ Steered s t i g f h (fun _ x => { x with pc := wrapN 64 ((i.base : Int) + 4 * disp) }))
  ∧ (∀ p ∈ [(Instr.bruZ, fun v => decide (v = 0)), (Instr.bruNz, fun v => decide (v ≠ 0)),
      (Instr.bruLt, fun v => decide (2 ^ 31 ≤ v)), (Instr.bruGe, fun v => decide (v < 2 ^ 31))],
    ∀ r disp, Clear s i g [] [f.ur r] →
    (p.2 (g.u (f.ur r)) = true → ∃ t h, exec (p.1 r disp) s = .next t
      ∧ Steered s t i g f h (fun _ x => { x with pc := wrapN 64 ((i.base : Int) + 4 * disp) }))
    ∧ (p.2 (g.u (f.ur r)) = false → ∃ t h, exec (p.1 r disp) s = .next t ∧ Passed s t i g f h ∧ g.SameButFlow h))
  ∧ (∀ r disp, Clear s i g [] [f.ur r, f.ur r + 1] → ∃ t h, exec (.call r disp) s = .next t
      ∧ t.gang i.key = some h ∧ h.up (f.ur r) = (i.base + 4) % 2 ^ 64 ∧ (∀ n, n ∉ regs true (f.ur r) → h.u n = g.u n)
      ∧ Steered s t i { g with sreg := h.sreg } f h (fun _ x => { x with pc := wrapN 64 ((i.base : Int) + 4 * disp) }))
  ∧ (∀ a, Clear s i g [] [f.ur a, f.ur a + 1] → g.up (f.ur a) ≠ 0 → g.up (f.ur a) % 4 = 0 →
      ∃ t h, exec (.jmpr a) s = .next t ∧ Steered s t i g f h (fun _ x => { x with pc := g.up (f.ur a) }))
  ∧ (∀ a, Clear s i g [] [f.ur a, f.ur a + 1] → g.up (f.ur a) = 0 →
      ∃ t h, exec (.jmpr a) s = .next t ∧ t.gang i.key = some h ∧ h.fin = g.fin ||| g.active f))
  ∧ (∀ (s : State) (i : Issue) (g : Gang) (f : Frag) (x : BrvOp), Issuing s i g f → g.liveUnf ≠ 0 → Clear s i g [] [] →
    let sel := if x.neg then andNot allLanes (g.mask f x.m) else g.mask f x.m
    let tgt := wrapN 64 ((i.base : Int) + 4 * x.tgt)
    let ft := (i.base + 4) % 2 ^ 64
    let a (n : Nat) (y : Slice) := g.sliceActive n y
    let tk (n : Nat) (y : Slice) := a n y &&& fld sel (4 * n) 4
    (∀ n, n < 8 → bit f.slices n = true → tk n (g.slice n) = 0 ∨ andNot (a n (g.slice n)) (tk n (g.slice n)) = 0
      ∨ (g.slice n).stk.length < 16) →
    ∃ t h, exec (.brv x) s = .next t ∧ Steered s t i g f h (fun n y =>
      if tk n y = 0 then { y with pc := ft }
      else if andNot (a n y) (tk n y) = 0 then { y with pc := tgt }
      else ⟨tgt, tk n y, ⟨ft, andNot (a n y) (tk n y), (i.base + 4 * x.rc) % 2 ^ 64⟩ :: y.stk⟩))

/-- R209: JOIN at j on a slice whose top entry names j as its reconvergence point swaps to the lanes that wait elsewhere, or
merges and pops when they have arrived, and then every access issued so far comes before the later ones (R160); any other slice
moves on.
R217: a REGANG whose every awaited fragment waits at the same mask with the same next bundle and windows fuses them: their
slices continue together at that bundle, in one fragment that has the lowest of their numbers, and every access issued so far comes
before the later ones (R160). -/
def Obligations.JoinAndRegangReconverge : Prop :=
  (∀ (s : State) (i : Issue) (g : Gang) (f : Frag), Issuing s i g f → g.liveUnf ≠ 0 → Clear s i g [] [] →
    let nx := (i.base + 4) % 2 ^ 64
    ∃ t h go, exec .join s = .next t ∧ Steered s t i { g with fused := h.fused } f h go
      ∧ (∀ n y e rest, n < 8 → bit f.slices n = true → g.slices[n]? = some y → y.stk = e :: rest → e.rc = i.pc → e.pc = i.pc →
          h.fused = g.newOp)
      ∧ ((∀ n y, n < 8 → bit f.slices n = true → g.slices[n]? = some y → y.stk = []) → h.fused = g.fused)
      ∧ (∀ n y, y.stk = [] → go n y = { y with pc := nx })
      ∧ (∀ n y e rest, y.stk = e :: rest → e.rc ≠ i.pc → go n y = { y with pc := nx })
      ∧ (∀ n y e rest, y.stk = e :: rest → e.rc = i.pc → e.pc = i.pc →
          go n y = ⟨nx, (y.mask &&& fld g.liveUnf (4 * n) 4) ||| e.mask, rest⟩)
      ∧ (∀ n y e rest, y.stk = e :: rest → e.rc = i.pc → e.pc ≠ i.pc → e.mask &&& fld g.liveUnf (4 * n) 4 ≠ 0 →
          go n y = ⟨e.pc, e.mask, ⟨i.pc, y.mask &&& fld g.liveUnf (4 * n) 4, e.rc⟩ :: rest⟩))
  ∧ (∀ (s : State) (i : Issue) (g : Gang) (f : Frag) (m : Nat), Issuing s i g f → Clear s i g [] [] →
    let nx := (i.base + 4) % 2 ^ 64
    let mine := g.regangFrags m
    andNot (g.fragSlices f) m = 0 → f.slices &&& m &&& g.aliveSlices ≠ 0 →
    (∀ kf ∈ mine, kf.1 ≠ i.frag → kf.2.wait = .regang m nx ∧ kf.2.xv = f.xv ∧ kf.2.xs = f.xs) →
    (g.frags.map (·.1)).Nodup →
    ∃ t h ff, exec (.regang m) s = .next t ∧ t.gang i.key = some h
      ∧ h.frags.get (mine.foldl (fun a kf => min a kf.1) i.frag) = some ff
      ∧ ff.slices = mine.foldl (fun a kf => a ||| kf.2.slices) f.slices ∧ ff.xv = f.xv ∧ ff.xs = f.xs
      ∧ (∀ n y, g.slices[n]? = some y → bit ff.slices n = true → h.slices[n]? = some { y with pc := nx })
      ∧ h.fused = g.newOp ∧ g.SameButFlow { h with fused := g.fused } ∧ t.mem = s.mem)

/-- R356, R440, R447, R450: TRAP completes and raises TRAPI; BRK with its cause enabled raises BRKPT with its fragment still at
the bundle; either asks for the gang's entry.
R358, R444: TRET with no enabled cause pending leaves handler mode and restores the program's slices at the addresses its
fragments resume at, unless TFPC was rewritten, with every register and the causes as they are.  With one pending, the gang is
entered again before any fragment resumes: the entry is asked for, and no bundle of the gang issues before it. -/
def Obligations.TrapBreakAndTret : Prop :=
  (∀ (s : State) (i : Issue) (g : Gang) (f : Frag) (code : Nat), Issuing s i g f → Clear s i g [] [] →
    g.hm = false → g.retired = false → g.halted = false → g.entryDue = false →
  (bit g.tmask cTRAPI = true → ∃ t h, exec (.trap code) s = .next t ∧ t.gang i.key = some h ∧ .trapEntry i.key ∈ t.pending
    ∧ h.entryDue = true ∧ h.tcause = g.tcause ||| 2 ^ cTRAPI ∧ h.vreg = g.vreg ∧ h.sreg = g.sreg ∧ h.mreg = g.mreg
    ∧ (∀ n y, g.slices[n]? = some y → bit f.slices n = true → h.slices[n]? = some { y with pc := (i.base + 4) % 2 ^ 64 }))
  ∧ (bit g.tmask cBRKPT = true → bit g.skipBrk i.frag = false → ∃ t, exec (.brk code) s = .next t
    ∧ t.gang i.key = some { g with tcause := g.tcause ||| 2 ^ cBRKPT, entryDue := true } ∧ .trapEntry i.key ∈ t.pending))
  ∧ (∀ (s : State) (i : Issue) (g : Gang) (f : Frag) (x : Shadow), Issuing s i g f → Clear s i g [] [] → g.hm = true →
    g.taskable = true → g.shadow = some x → g.liveUnf ≠ 0 → g.retired = false →
    (g.tcause &&& g.tmask ≠ 0 → g.halted = false → g.entryDue = false →
      ∃ t h, exec .tret s = .next t ∧ t.gang i.key = some h ∧ .trapEntry i.key ∈ t.pending ∧ h.entryDue = true
        ∧ t.gangRuns h = false ∧ h.tcause = g.tcause ∧ h.vreg = g.vreg ∧ h.sreg = g.sreg ∧ h.mreg = g.mreg
        ∧ h.dl = g.dl ∧ t.mem = s.mem)
    ∧ (g.tcause &&& g.tmask = 0 → ∃ t h, exec .tret s = .next t ∧ t.gang i.key = some h ∧ h.hm = false ∧ h.shadow = none
      ∧ h.tcause = g.tcause ∧ h.vreg = g.vreg ∧ h.sreg = g.sreg ∧ h.mreg = g.mreg ∧ h.dl = g.dl ∧ t.mem = s.mem
      ∧ ∀ n y kf p, n < 8 → x.slices[n]? = some y → g.sliceAlive n = true →
          x.frags.find? (fun kf => bit kf.2.slices n) = some kf → x.tfpc.get kf.1 = some p →
          h.slices[n]? = some { y with pc := p }))

/-- R206, R359 to R362, R456: CSRR reads each control and status register of the gang, and each register of the recorders of its
core, into a uniform register or pair. -/
def Obligations.CsrReadValue : Prop :=
  ∀ (s : State) (i : Issue) (g : Gang) (f : Frag) (a : Nat), Issuing s i g f →
  (∀ p ∈ [(0x001, g.tcause), (0x003, g.tmask), (0x018, g.dl), (0x020, g.fpctl), (0x021, g.fpstat), (0x030, g.g),
      (0x032, i.key / 128), (0x033, fld s.dcb.devnum 0 7), (0x034, g.taskid), (0x050, g.prog), (0x002, 0)],
    Clear s i g [] [f.ur a] → ∃ t, exec (.csrr a p.1) s = .next t ∧ UniDone s t i g f false (f.ur a) p.2 0)
  ∧ (Clear s i g [] [f.ur a] → ∃ t, exec (.csrr a 0x000) s = .next t ∧ UniDone s t i g f false (f.ur a)
      (maskOfList (match g.shadow with | some x => x.frags.map (·.1) | none => g.frags.map (·.1)) * 256
        + (if g.deadsrc then 64 else 0) + (if g.peerlost then 32 else 0) + (if g.chk then 16 else 0) + (if g.task then 8 else 0)
        + (if g.hm then 2 else 0)) 0)
  ∧ (∀ b, s.block g.blk = some b → Clear s i g [] [f.ur a] →
      ∃ t, exec (.csrr a 0x031) s = .next t ∧ UniDone s t i g f false (f.ur a) b.b 0)
  ∧ (Clear s i g [] [f.ur a] → ∃ t, exec (.csrr a 0x040) s = .next t ∧ UniDone s t i g f false (f.ur a)
      (2 ^ 16 + 2 ^ 11 * Config.nport + (if Config.isA1 then 2 ^ 10 + 2 ^ 9 else 0) + 2 ^ 8 + (if Config.isA1 then 1 else 2)) 0)
  ∧ (Clear s i g [] [f.ur a] → ∃ t, exec (.csrr a 0x041) s = .next t ∧ UniDone s t i g f false (f.ur a) 0 0)
  ∧ (∀ r, r < 16 → Clear s i g [] [f.ur a] → let q := s.recorder i.key r
      ∀ p ∈ [(0, (if q.en then 2 ^ 31 else 0) + (if q.en ∧ q.owner = g.launch then 2 ^ 29 else 0) + 2 ^ 16 * q.evt + 2 ^ 8 * q.flt),
        (1, q.mn), (2, q.mx), (3, q.cnt), (4, (q.bins.get (g.lrbsel.get r).toNat).toNat), (5, (g.lrbsel.get r).toNat), (6, 0), (7, 0)],
      ∃ t, exec (.csrr a (0x100 + 8 * r + p.1)) s = .next t ∧ UniDone s t i g f false (f.ur a) p.2 0)
  ∧ (Clear s i g [] (regs true (f.ur a)) → ∃ t, exec (.csrr a 0x004) s = .next t ∧ UniDone s t i g f true (f.ur a) g.tvec 0)
  ∧ (∀ n, n < 8 → Clear s i g [] (regs true (f.ur a)) →
      ∃ t, exec (.csrr a (0x010 + n)) s = .next t ∧ UniDone s t i g f true (f.ur a) (g.tfpc n) 0)

/-- R237, R357, R360 to R362, R456, R457, R460: what CSRW, CSRS and CSRC leave in the writable registers: the new value, the old
one with the operand's bits set, or with them cleared, within the bits each register has.  TFPC is written in a handler, for a
fragment that exists; a write to TCAUSEH is ignored; a recorder's LRCFG is written by its owner or when it is off.
R206, R207, R357, R359, R360, R456, R460: a write that a register refuses raises PROT: read-only registers, CSRW or CSRC of
DLMASK, CSRW or CSRS of TCAUSE, a write of GSTAT that would change a read-only field, TFPC outside a handler, a recorder of another
launch that is on; CSRS of DLMASK adds dead lanes, CSRC of TCAUSE clears causes, CSRC of GSTAT the two fields that can be cleared. -/
def Obligations.CsrWriteValue : Prop :=
  (∀ p ∈ [(Instr.csrw, fun (_ v : Nat) => v), (Instr.csrs, fun o v => o ||| v), (Instr.csrc, fun o v => andNot o v)],
  ∀ (s : State) (i : Issue) (g : Gang) (f : Frag) (a : Nat), Issuing s i g f →
  (Clear s i g [] [f.ur a] → let v := g.u (f.ur a)
    (∃ t h, exec (p.1 a 0x003) s = .next t ∧ t.gang i.key = some h ∧ h.tmask = 0x1CCE7FF ||| (p.2 g.tmask v &&& 0x331800)
      ∧ h.sreg = g.sreg ∧ t.mem = s.mem)
    ∧ (∃ t h, exec (p.1 a 0x020) s = .next t ∧ t.gang i.key = some h ∧ h.fpctl = fpctlWrite g.fpctl (p.2 g.fpctl v)
      ∧ h.sreg = g.sreg ∧ t.mem = s.mem)
    ∧ (∃ t h, exec (p.1 a 0x021) s = .next t ∧ t.gang i.key = some h ∧ h.fpstat = p.2 g.fpstat v % 32
      ∧ h.sreg = g.sreg ∧ t.mem = s.mem)
    ∧ (∃ t h, exec (p.1 a 0x050) s = .next t ∧ t.gang i.key = some h ∧ h.prog = p.2 g.prog v
      ∧ h.sreg = g.sreg ∧ t.mem = s.mem))
  ∧ (Clear s i g [] (regs true (f.ur a)) →
    ∃ t h, exec (p.1 a 0x004) s = .next t ∧ t.gang i.key = some h ∧ h.tvec = p.2 g.tvec (g.up (f.ur a)) / 4 * 4
      ∧ h.sreg = g.sreg ∧ t.mem = s.mem)
  ∧ (∀ n x, n < 8 → Clear s i g [] (regs true (f.ur a)) → g.shadow = some x →
    ∃ t h, exec (p.1 a (0x010 + n)) s = .next t ∧ t.gang i.key = some h ∧ h.sreg = g.sreg ∧ t.mem = s.mem
      ∧ h.shadow = some (if x.tfpc.has n then { x with tfpc := x.tfpc.set n (p.2 (g.tfpc n) (g.up (f.ur a)) / 4 * 4) } else x))
  ∧ (Clear s i g [] [f.ur a] → let v := g.u (f.ur a)
    (∃ t h, exec (p.1 a 0x002) s = .next t ∧ t.gang i.key = some h ∧ h.tcause = g.tcause ∧ h.sreg = g.sreg ∧ t.mem = s.mem)
    ∧ (∀ r, r < 16 →
      (∃ t h, exec (p.1 a (0x105 + 8 * r)) s = .next t ∧ t.gang i.key = some h
        ∧ (h.lrbsel.get r).toNat = p.2 (g.lrbsel.get r).toNat v % 32 ∧ t.cores = s.cores ∧ h.sreg = g.sreg)
      ∧ (∀ n ∈ [6, 7], ∃ t h, exec (p.1 a (0x100 + 8 * r + n)) s = .next t ∧ t.gang i.key = some h ∧ t.cores = s.cores
        ∧ h.lrbsel = g.lrbsel ∧ h.sreg = g.sreg)
      ∧ (let q := s.recorder i.key r
        let w := p.2 (s.csrRead i.key g (0x100 + 8 * r)) v
        (s.core (coreOf i.key)).recs.length = 16 → fld w 16 8 ≤ 16 → fld w 8 8 ≤ 2 → (q.en = true → q.owner = g.launch) →
        ∃ t h, exec (p.1 a (0x100 + 8 * r)) s = .next t ∧ t.gang i.key = some h ∧ h.sreg = g.sreg
          ∧ (let q' := t.recorder i.key r
            q'.en = bit w 31 ∧ q'.evt = fld w 16 8 ∧ q'.flt = fld w 8 8
            ∧ (bit w 30 = true → q'.mn = 0xFFFFFFFF ∧ q'.mx = 0 ∧ q'.cnt = 0 ∧ q'.bins = [])
            ∧ (bit w 30 = false → q'.mn = q.mn ∧ q'.mx = q.mx ∧ q'.cnt = q.cnt ∧ q'.bins = q.bins)
            ∧ (q.en = false → bit w 31 = true → q'.owner = g.launch ∧ q'.gang = g.g))))))
  ∧ (∀ (s : State) (i : Issue) (g : Gang) (f : Frag) (a : Nat), Issuing s i g f → Clear s i g [] [f.ur a] →
  (∀ p ∈ [(Instr.csrw, 0x001), (Instr.csrs, 0x001), (Instr.csrw, 0x018), (Instr.csrc, 0x018), (Instr.csrw, 0x030), (Instr.csrs, 0x030),
      (Instr.csrc, 0x030), (Instr.csrw, 0x032), (Instr.csrw, 0x033), (Instr.csrw, 0x034), (Instr.csrw, 0x040),
      (Instr.csrw, 0x031), (Instr.csrs, 0x041), (Instr.csrc, 0x040)],
    exec (p.1 a p.2) s = .next (s.trap i (2 ^ cPROT) none))
  ∧ (∀ p ∈ [(Instr.csrw, fun (_ v : Nat) => v), (Instr.csrs, fun o v => o ||| v), (Instr.csrc, fun o v => andNot o v)],
    let v := g.u (f.ur a)
    ((p.2 g.gstat v ^^^ g.gstat) &&& 0xFF1A ≠ 0 → exec (p.1 a 0x000) s = .next (s.trap i (2 ^ cPROT) none))
    ∧ (∀ n, n < 8 → g.shadow = none → Clear s i g [] (regs true (f.ur a)) →
        exec (p.1 a (0x010 + n)) s = .next (s.trap i (2 ^ cPROT) none))
    ∧ (∀ r, r < 16 → (∀ n ∈ [1, 2, 3, 4], exec (p.1 a (0x100 + 8 * r + n)) s = .next (s.trap i (2 ^ cPROT) none))
      ∧ (let w := p.2 (s.csrRead i.key g (0x100 + 8 * r)) v
        16 < fld w 16 8 ∨ 2 < fld w 8 8 ∨ ((s.recorder i.key r).en = true ∧ (s.recorder i.key r).owner ≠ g.launch) →
        exec (p.1 a (0x100 + 8 * r)) s = .next (s.trap i (2 ^ cPROT) none))))
  ∧ (∀ p ∈ [(Instr.csrw, fun (_ v : Nat) => v), (Instr.csrs, fun o v => o ||| v)], (p.2 g.gstat (g.u (f.ur a)) ^^^ g.gstat) &&& 0xFF1A = 0 →
    ∃ t h, exec (p.1 a 0x000) s = .next t ∧ t.gang i.key = some h ∧ h.deadsrc = g.deadsrc ∧ h.peerlost = g.peerlost)
  ∧ (let v := g.u (f.ur a)
    (andNot g.gstat v ^^^ g.gstat) &&& 0xFF1A = 0 → ∃ t h, exec (.csrc a 0x000) s = .next t ∧ t.gang i.key = some h
      ∧ h.deadsrc = (g.deadsrc && !bit v 6) ∧ h.peerlost = (g.peerlost && !bit v 5) ∧ h.sreg = g.sreg ∧ t.mem = s.mem)
  ∧ (g.retired = false → ∃ t h, exec (.csrs a 0x018) s = .next t ∧ t.gang i.key = some h ∧ h.dl = g.dl ||| g.u (f.ur a))
  ∧ (∃ t h, exec (.csrc a 0x001) s = .next t ∧ t.gang i.key = some h ∧ h.tcause = andNot g.tcause (g.u (f.ur a) % 2 ^ 24)))

/-- R351, R353, R354: TBEG begins a task and records where to restart and abort, TBEG.IDEM also s0 to s31; TABT discards the
version: every slice of the program stands at the abort target, those saved at an entry when a handler runs it, and the status
register says so; TEND asks for the release action and leaves its fragment waiting.  That TABT in a handler acts on the program's
slices and TEND comes before a trap entry, and that TBEG.IDEM checks no bounds, are the model's readings (log entries 48 and 49). -/
def Obligations.TasksBeginAbortEnd : Prop :=
  ∀ (s : State) (i : Issue) (g : Gang) (f : Frag), Issuing s i g f →
  (∀ p ∈ [(Instr.tbeg, false), (Instr.tbegIdem, true)], ∀ a disp, Clear s i g [] [f.ur a] → g.task = false → g.taskable = true →
    (p.2 = true → g.Unawaited ((List.range 32).map f.ur)) →
    ∃ t h, exec (p.1 a disp) s = .next t ∧ Passed s t i g f h ∧ h.task = true ∧ h.taskid = g.u (f.ur a)
      ∧ h.trec.restart = i.pc ∧ h.trec.abort = wrapN 64 ((i.base : Int) + 4 * disp) ∧ h.trec.stat = f.ur a
      ∧ h.trec.xv = f.xv ∧ h.trec.xs = f.xs ∧ h.trec.fin = g.fin ∧ h.trec.idem = p.2
      ∧ (p.2 = true → ∀ n, n < 32 → h.trec.s[n]? = some (g.sreg.get (f.xs + n)))
      ∧ g.SameButFlow { h with task := g.task, taskid := g.taskid, trec := g.trec })
  ∧ (∀ code, Clear s i g [] [] → g.task = true → g.memOwed false = false → g.hm = false →
    ∃ t h, exec (.tabt code) s = .next t ∧ t.gang i.key = some h ∧ h.task = false ∧ h.taskid = 0 ∧ h.spec = []
      ∧ h.fin = g.trec.fin ∧ h.u g.trec.stat = (0x10000 + code) % 2 ^ 32 ∧ h.vreg = g.vreg ∧ h.mreg = g.mreg ∧ t.mem = s.mem
      ∧ (∀ (n : Nat) (y : Slice), h.slices[n]? = some y → y.pc = g.trec.abort ∧ y.stk = []))
  ∧ (∀ code, Clear s i g [] [] → g.task = true → g.memOwed false = false → g.hm = true →
    ∃ t h, exec (.tabt code) s = .next t ∧ t.gang i.key = some h ∧ h.task = false ∧ h.taskid = 0 ∧ h.spec = [] ∧ h.hm = true
      ∧ h.fin = g.trec.fin ∧ h.u g.trec.stat = (0x10000 + code) % 2 ^ 32 ∧ h.vreg = g.vreg ∧ h.mreg = g.mreg ∧ t.mem = s.mem
      ∧ ∃ x, h.shadow = some x ∧ (∀ y ∈ x.slices, y.pc = g.trec.abort ∧ y.stk = []) ∧ x.tfpc = [(0, g.trec.abort)])
  ∧ (Clear s i g [] [] → g.task = true → g.taskable = true → g.memOwed true = false →
    ∃ t h f' x, exec .tend s = .next t ∧ t.gang i.key = some h ∧ h.frags.get i.frag = some f' ∧ f'.wait = .blocked g.newOp
      ∧ h.ops.get g.newOp = some x ∧ x.what = .tend ∧ h.task = true ∧ h.spec = g.spec ∧ t.mem = s.mem
      ∧ ∃ id d, t.coh.drains.get id = some d ∧ d.serves = [(i.key, g.newOp)])

/-- R349: a NAP on a readable word of the shared store, of a .D line or of an object held here, where no other core is recorded
at the line and no fused path's access is outstanding (R123, R160): a word that differs from the
expected value ends it at once with status 0; the expected word leaves the fragment waiting at the bundle.  A word of an object
that another device holds is asked for, and the fragment waits. -/
def Obligations.NapReadsItsWord : Prop :=
  ∀ (s : State) (i : Issue) (g : Gang) (f : Frag) (a sel n : Nat) (l0 : LineId) (off : Nat), Issuing s i g f →
    Clear s i g [] [f.ur a, f.ur (a + 1), f.ur (a + 2), f.ur (a + 3)] → a ≤ 60 → g.fuseOwed = false →
    let sp := napSpace sel
    s.checkAcc i.key g f sp 4 0 0 (formAddr sp (g.up (f.ur a)) 0) = .ok l0 off →
    let l := if l0.obj then s.objLineOf l0.ident l0.off else l0
    let w := if sp = 2 then s.onRead l.name 0 off 4 else (lineGet (s.lineNow l).1 off 4, (s.lineNow l).2)
    ((sp = 2 ∨ (s.txn l = none ∧ s.coh.retiring ≠ some l.key
        ∧ (∀ y ∈ s.coh.lines, y.line = l → ∀ e ∈ y.slots, 64 * y.die + e.1 = coreOf i.key)
        ∧ (if off / 64 = 0 then (s.dirOf l).hlo else (s.dirOf l).hhi) ≠ 2
        ∧ (l0.obj = true → s.objHere l0.ident = true ∧ s.ownerChk l0.ident (l0.off + off) = none))) → w.2 = false →
      (w.1 ≠ g.u (f.ur (a + 2)) → ∃ t h, exec (.nap a sel n) s = .next t ∧ t.gang i.key = some h ∧ h.u (f.ur a + 3) = 0
        ∧ (∀ m, m ≠ f.ur a + 3 → h.u m = g.u m) ∧ h.vreg = g.vreg ∧ h.mreg = g.mreg ∧ t.mem = s.mem
        ∧ (∀ m y, g.slices[m]? = some y → bit f.slices m = true → h.slices[m]? = some { y with pc := (i.base + 4) % 2 ^ 64 }))
      ∧ (w.1 = g.u (f.ur (a + 2)) → ∃ t h f', exec (.nap a sel n) s = .next t ∧ t.gang i.key = some h
        ∧ h.frags.get i.frag = some f' ∧ f'.wait = .nap g.newOp ∧ h.slices = g.slices ∧ h.sreg = g.sreg ∧ h.vreg = g.vreg
        ∧ h.mreg = g.mreg ∧ t.mem = s.mem))
    ∧ (sp ≠ 2 → l0.obj = true → s.objHere l0.ident = false → ∃ t h f', exec (.nap a sel n) s = .next t ∧ t.gang i.key = some h
      ∧ h.frags.get i.frag = some f' ∧ f'.wait = .nap g.newOp ∧ (∃ r ∈ t.fab.reqs, r.2.cont = .nap i.key g.newOp)
      ∧ h.slices = g.slices ∧ h.sreg = g.sreg ∧ t.mem = s.mem)

/-! ### Fences, counters, sync words, barriers (R329 to R339) -/

/-- R329, R330: FENCE with a release that acts waits for a drain of its core; without one it passes at once, and one that
acquires self-invalidates the core's L1; in a task a release of a scope above GANG is illegal, and a fence at REC raises RECF; one
that only acquires there at another scope is performed (the model's reading, log entry 23; the drain by events, log entry 25).
R332: WAITC passes when every counter with a threshold below 15 is at most it, with the core's L1 self-invalidated if an
engine's counter was waited for; else its fragment waits at the bundle. -/
def Obligations.FenceAndWaitcOrder : Prop :=
  (∀ (s : State) (i : Issue) (g : Gang) (f : Frag) (x : FenceOp), Issuing s i g f → Clear s i g [] [] → x.ord ≠ 0 →
    let rel := x.ord = 2 ∨ x.ord = 3
    let acq := (x.ord = 1 ∨ x.ord = 3) ∧ (x.spc = 0 ∨ x.spc % 4 ≠ 0)
    ((g.task = false ∨ (x.scope ≠ 4 ∧ (¬ rel ∨ x.scope = 0))) → g.memOwed (decide rel) = false →
      (rel ∧ s.scopeActs g x.scope = true → ∃ t h y, exec (.fence x) s = .next t ∧ BlockedOn s t i g f h y
        ∧ y.what = .fence x ∧ y.phase = 1)
      ∧ (¬ (rel ∧ s.scopeActs g x.scope = true) → ∃ t h, exec (.fence x) s = .next t
        ∧ Passed (if acq ∧ s.scopeActs g x.scope = true then s.selfInvalidate (coreOf i.key) else s) t i g f h ∧ g.SameButFlow h))
    ∧ (g.task = true → rel → x.scope ≠ 0 → x.scope ≠ 4 → exec (.fence x) s = .next (s.trap i (2 ^ cILLEGAL) none))
    ∧ (g.task = true → x.scope = 4 → ∃ r, exec (.fence x) s = .next (s.trap i (2 ^ cRECF) (some r))))
  ∧ (∀ (s : State) (i : Issue) (g : Gang) (f : Frag) (x : WaitcOp), Issuing s i g f → Clear s i g [] [] →
    let ok := ∀ ct ∈ [(0, x.ld), (1, x.st), (2, x.cp), (3, x.tl), (4, x.att), (5, x.ss)], ct.2 = 15 ∨ g.count ct.1 ≤ ct.2
    (ok → ∃ t h, exec (.waitc x) s = .next t ∧ Moved s t i g f h ∧ g.SameButFlow h
      ∧ (t.core (coreOf i.key)).l1 = if x.cp < 15 ∨ x.tl < 15 ∨ x.att < 15 ∨ x.ss < 15
          then ((s.selfInvalidate (coreOf i.key)).core (coreOf i.key)).l1 else (s.core (coreOf i.key)).l1)
    ∧ (¬ ok → ∃ t h f', exec (.waitc x) s = .next t ∧ t.gang i.key = some h ∧ h.frags.get i.frag = some f'
      ∧ f'.wait = .waitc x ∧ g.SameButFlow h ∧ h.slices = g.slices ∧ t.mem = s.mem))

/-- R333 to R335: SWINI writes a word with RELOAD and TARGET from its register and COUNT and GEN 0; SWEXP adds its register to
TARGET, lets the word advance while it is due, and returns the generation before; SWWT passes when the generation differs from its
register and waits when it does not; the other bytes of the stores, the other registers and physical memory are as they were.  A
misaligned address raises the cause of its subcode, a TARGET that would reach 2^32 raises BOUNDS.  Accesses of a path fused before
come first (R160). -/
def Obligations.SyncWordsWork : Prop :=
  ∀ (s : State) (i : Issue) (g : Gang) (f : Frag) (a b : Nat), Issuing s i g f →
    let ad := g.u (f.ur a)
    let v := g.u (f.ur b)
    (∀ c o, s.swPlace g (coreOf i.key) ad = .ok (c, o) → s.clearing c o = false → g.fuseOwed = false →
      (Clear s i g [] [f.ur a, f.ur b] → ∃ t h, exec (.swini a b) s = .next t ∧ Moved s t i g f h ∧ g.SameButFlow h
        ∧ t.swRead c o = (v, v, 0, 0) ∧ StoresKept s t (fun d st n => d = c ∧ st = 0 ∧ o ≤ n ∧ n < o + 16))
      ∧ ((s.onRead c 0 o 16).2 = false → ∀ rl tg n gen, s.swRead c o = (rl, tg, n, gen) →
        (∀ dst, Clear s i g [] [f.ur a, f.ur b, f.ur dst] → tg + v < 2 ^ 32 →
          ∃ t h, exec (.swexp a b dst) s = .next t ∧ Moved s t i g f h ∧ UniOut g h false (f.ur dst) gen
            ∧ g.SameButFlow { h with sreg := g.sreg } ∧ SwSettled (rl, tg + v, n, gen) (t.swRead c o)
            ∧ StoresKept s t (fun d st n => d = c ∧ st = 0 ∧ o ≤ n ∧ n < o + 16))
        ∧ (∀ dst, Clear s i g [] [f.ur a, f.ur b, f.ur dst] → 2 ^ 32 ≤ tg + v → ∃ r,
            exec (.swexp a b dst) s = .next (s.trap i (2 ^ cBOUNDS) (some r)))
        ∧ (Clear s i g [] [f.ur a, f.ur b] → gen ≠ v → ∃ t h, exec (.swwt a b) s = .next t ∧ Moved s t i g f h ∧ g.SameButFlow h
            ∧ StoresKept s t (fun _ _ _ => False))
        ∧ (Clear s i g [] [f.ur a, f.ur b] → gen = v → ∃ t h f', exec (.swwt a b) s = .next t ∧ t.gang i.key = some h
            ∧ h.frags.get i.frag = some f' ∧ f'.wait = .sync c o gen ∧ g.SameButFlow h ∧ h.slices = g.slices ∧ t.mem = s.mem
            ∧ t.cores = s.cores)))
    ∧ (Clear s i g [] [f.ur a, f.ur b] → ad % 16 ≠ 0 → ∃ r r',
        exec (.swini a b) s = .next (s.trap i (2 ^ causeOfSub subALIGN) (some r))
        ∧ exec (.swwt a b) s = .next (s.trap i (2 ^ causeOfSub subALIGN) (some r'))
        ∧ ∀ dst, Clear s i g [] [f.ur a, f.ur b, f.ur dst] → ∃ r'',
          exec (.swexp a b dst) s = .next (s.trap i (2 ^ causeOfSub subALIGN) (some r'')))

/-- R222 to R224, R336 to R338: with the gang's earlier accesses performed, BARA writes its group's phase and its slices arrive, at
once or, where the scope acts on caches, after a drain of the core; BARW at a completed phase passes, and waits at another; BARS
arrives and waits, and passes when the phase it arrived at is complete; GRPQ reads the group; slices that have arrived already wait;
a gang that is no member is refused with ILLEGAL.  A phase word that is uncorrectable kills the gang that waits at it (R451).  A
fragment whose slices have arrived in part arrives with the rest (the model's choice, log entry 68). -/
def Obligations.BarriersArriveAndWait : Prop :=
  ∀ (s : State) (i : Issue) (g : Gang) (f : Frag) (a k : Nat), Issuing s i g f →
  (∀ x, s.groupOf g k = some x →
    let fresh := andNot (g.fragSlices f) (x.arrivedMask g.g) ≠ 0
    (Clear s i g [] [f.ur a] →
      (fresh → g.memOwed true = false → s.scopeActs g x.scope = false → ∃ t h, exec (.bara a k) s = .next t ∧ Moved s t i g f h
        ∧ UniOut g h false (f.ur a) x.phase ∧ g.SameButFlow { h with sreg := g.sreg }
        ∧ ∃ s', Passed s s' i { g with sreg := h.sreg } f h ∧ t = s'.arriveAt g.launch g.g k (g.fragSlices f))
      ∧ (fresh → g.memOwed true = false → s.scopeActs g x.scope = true → ∃ t h y, exec (.bara a k) s = .next t
        ∧ BlockedOn s t i { g with sreg := h.sreg } f h y ∧ UniOut g h false (f.ur a) x.phase ∧ y.what = .bara a k
        ∧ y.act = g.fragSlices f)
      ∧ (¬ fresh → ∃ t h f', exec (.bara a k) s = .next t ∧ t.gang i.key = some h ∧ h.frags.get i.frag = some f'
        ∧ f'.wait = .arrive k x.phase ∧ g.SameButFlow h ∧ h.slices = g.slices ∧ t.mem = s.mem))
    ∧ (x.bad = true → Clear s i g [] [f.ur a] → exec (.barw a k) s = .next (s.killGang i.key rUREG i.pc))
    ∧ (x.bad = false → Clear s i g [] [f.ur a] → phasePassed x.phase (g.u (f.ur a)) = true →
        ∃ t h, exec (.barw a k) s = .next t ∧ Moved s t i g f h ∧ g.SameButFlow h)
    ∧ (x.bad = false → Clear s i g [] [f.ur a] → phasePassed x.phase (g.u (f.ur a)) = false →
        ∃ t h f', exec (.barw a k) s = .next t ∧ t.gang i.key = some h ∧ h.frags.get i.frag = some f'
          ∧ f'.wait = .bar k (g.u (f.ur a)) ∧ g.SameButFlow h ∧ h.slices = g.slices ∧ t.mem = s.mem)
    ∧ (Clear s i g [] [] → (∀ p, x.bad = false → f.barsAt k i.pc = some p → phasePassed x.phase p = true →
        ∃ t h, exec (.bars k) s = .next t ∧ Moved s t i g f h ∧ g.SameButFlow h)
      ∧ (f.barsAt k i.pc = none → fresh → g.memOwed true = false → s.scopeActs g x.scope = false →
        ∃ (t : State) (h : Gang) (f' : Frag) (s' : State), exec (.bars k) s = .next t
          ∧ t = s'.arriveAt g.launch g.g k (g.fragSlices f) ∧ t.gang i.key = some h ∧ h.frags.get i.frag = some f'
          ∧ f'.wait = .bar k x.phase ∧ f'.bars = some (k, x.phase, i.pc) ∧ g.SameButFlow h ∧ h.slices = g.slices
          ∧ s'.launch g.launch = s.launch g.launch ∧ t.mem = s.mem)
      ∧ (f.barsAt k i.pc = none → fresh → g.memOwed true = false → s.scopeActs g x.scope = true →
        ∃ t h f' y, exec (.bars k) s = .next t ∧ t.gang i.key = some h ∧ h.frags.get i.frag = some f'
          ∧ f'.wait = .blocked g.newOp ∧ f'.bars = some (k, x.phase, i.pc) ∧ h.ops.get g.newOp = some y ∧ y.what = .bars k
          ∧ y.act = g.fragSlices f ∧ g.SameButFlow { h with ops := g.ops, nextOp := g.nextOp } ∧ h.slices = g.slices
          ∧ t.mem = s.mem))
    ∧ (Clear s i g [] [f.ur a, f.ur a + 1] → ∃ t h, exec (.grpq a k) s = .next t ∧ Passed s t i { g with sreg := h.sreg } f h
        ∧ h.u (f.ur a) = x.phase % 2 ^ 32
        ∧ h.u (f.ur a + 1) = s.groupWord g.launch x % 2 ^ 32 ∧ (∀ n, n ∉ regs true (f.ur a) → h.u n = g.u n)
        ∧ g.SameButFlow { h with sreg := g.sreg }))
  ∧ (s.groupOf g k = none → Clear s i g [] [f.ur a, f.ur a + 1] → ∀ y ∈ [Instr.bara a k, .barw a k, .bars k, .grpq a k],
      exec y s = .next (s.trap i (2 ^ cILLEGAL) none))

/-! ### Engine commands (R363 to R393) -/

/-- R363 to R366: an engine command whose descriptor passes its checks becomes outstanding: its counter rises, its status
register stays until it is presented; one that fails a check raises ENGF with the first failure of its order.
R383, R384: the attention and state-store commands, which neither hold nor count at a sync word, become outstanding with
their descriptor, status register and result registers. -/
def Obligations.EngineCommandsIssue : Prop :=
  (∀ (s : State) (i : Issue) (g : Gang) (f : Frag) (x : Cmd), Issuing s i g f →
  ∀ p ∈ [(Instr.cpy, 2, 6, copyCheck .flat x.hold), (.cpy2, 2, 9, copyCheck .rows x.hold), (.cpyg, 2, 10, copyCheck .gather x.hold),
      (.cpyp, 2, 9, copyCheck .planes x.hold), (.cpyq, 2, 9, copyCheck .quant x.hold), (.twld, 3, 2, twldCheck),
      (.tmul, 3, 5, tmulCheck x.hold false false), (.tmulX4, 3, 5, tmulCheck false true false),
      (.tmuls, 3, 6, tmulCheck x.hold false true), (.tzero, 3, 2, tzeroCheck), (.trd, 3, 9, trdCheck)],
    Clear s i g [] (cmdPlan p.2.2.1 x g f).useU →
    (CmdReady s i g f p.2.1 p.2.2.1 x p.2.2.2 →
      ∃ t h y, exec (p.1 x) s = .next t ∧ Commanded s t i g f (p.1 x) p.2.1 p.2.2.1 x h y)
    ∧ (∀ b, g.active f ≠ 0 → firstFail (let c := p.2.2.2 s i g (g.descOf f p.2.2.1 x)
        let sw := g.u (f.ur x.c)
        if x.sync then c.1 ++ [unlessBad (sw % 16 == 0) sw eALIGN 1 2] ++ c.2 ++ [s.swOutside g (coreOf i.key) sw] else c.1 ++ c.2)
          = some b →
      exec (p.1 x) s = .next (s.trap i (2 ^ cENGF) (some (engRec i.pc i.frag (g.active f) [b]))))
    ∧ (g.active f = 0 → exec (p.1 x) s = .next (s.finish i g)))
  ∧ (∀ (s : State) (i : Issue) (g : Gang) (f : Frag) (x : Cmd), Issuing s i g f →
  ∀ p ∈ [(Instr.aplnk, 4, 6, noCheck, 2), (.apref, 4, 3, aprefCheck, 0), (.attn, 4, 8, attnCheck, 0), (.amrg, 4, 4, mergeCheck 3, 0),
      (.arcp, 4, 3, mergeCheck 2, 0), (.ssopn, 5, 6, ssopnCheck, 0), (.ssld, 5, 4, ssdataCheck false, 2),
      (.sssv, 5, 4, ssdataCheck true, 0), (.ssrbk, 5, 2, ssslotCheck, 2), (.ssfrk, 5, 3, ssfrkCheck, 2), (.ssqry, 5, 2, ssslotCheck, 2)],
    let x' : Cmd := { x with sync := false, hold := false }
    let res := (List.range p.2.2.2.2).map (fun j => f.ur x.c + j)
    Clear s i g [] ((cmdPlan p.2.2.1 x' g f).useU ++ res) → CmdReady s i g f p.2.1 p.2.2.1 x' p.2.2.2.1 →
    ∃ t h y, exec (p.1 x) s = .next t ∧ Commanded s t i g f (p.1 x) p.2.1 p.2.2.1 x' h y ∧ y.res = res)

/-- R370, R371, R367: BINCL clears a run of bins; BINAD gives each active lane, in ascending order, the count of its bin and adds
one; BINRD reads a bin; a bin at or above NB raises ENGF.
R367: CPREL releases every held command of its bin: the patched register holds the bin's count shifted, at most the value it
held, and the command is held no more, with room in the tile queue for those that enter it (R433); a bin at or above NB raises ENGF. -/
def Obligations.BinsCountAndCprelReleases : Prop :=
  (∀ (s : State) (i : Issue) (g : Gang) (f : Frag) (a b : Nat), Issuing s i g f →
  (Clear s i g [] [f.ur a, f.ur b] → let first := g.u (f.ur a); let n := g.u (f.ur b)
    (first + n ≤ s.nbins g → ∃ t h, exec (.bincl a b) s = .next t ∧ Moved s t i g f h ∧ g.SameButFlow h
      ∧ ∀ j, t.binGet i.key g j = if first ≤ j ∧ j < first + n then 0 else s.binGet i.key g j)
    ∧ (s.nbins g < first + n → exec (.bincl a b) s = .next (s.binFault i g f first)))
  ∧ (Clear s i g [f.vr a, f.vr b] [] → let on (l : Nat) := bit (g.active f) l; let bin (l : Nat) := g.v (f.vr a) l
    let before (l k : Nat) := ((List.range l).filter (fun m => on m && bin m == k)).length
    ((∀ l, l < 32 → on l = true → bin l < s.nbins g) → ∃ t h, exec (.binad a b) s = .next t ∧ Moved s t i g f h
      ∧ g.SameButFlow { h with vreg := g.vreg }
      ∧ (∀ l, l < 32 → on l = true → h.v (f.vr b) l = min (s.binGet i.key g (bin l) + before l (bin l)) 0xFFFFFFFF)
      ∧ (∀ n l, l < 32 → n ≠ f.vr b ∨ on l = false → h.v n l = g.v n l)
      ∧ ∀ k, t.binGet i.key g k = min (s.binGet i.key g k + before 32 k) 0xFFFFFFFF))
  ∧ (Clear s i g [] [f.ur a, f.ur b] →
    (g.u (f.ur a) < s.nbins g → ∃ t, exec (.binrd a b) s = .next t ∧ UniDone s t i g f false (f.ur b) (s.binGet i.key g (g.u (f.ur a))) 0)
    ∧ (s.nbins g ≤ g.u (f.ur a) → exec (.binrd a b) s = .next (s.binFault i g f (g.u (f.ur a))))))
  ∧ (∀ (s : State) (i : Issue) (g : Gang) (f : Frag) (a : Nat), Issuing s i g f → Clear s i g [] [f.ur a] →
    (s.nbins g ≤ g.u (f.ur a) → exec (.cprel a) s = .next (s.binFault i g f (g.u (f.ur a))))
    ∧ (g.u (f.ur a) < s.nbins g → g.memOwed true = false ∨ (∀ ko ∈ g.ops, ko.2.held = true → ko.2.bin ≠ g.u (f.ur a)) →
      (g.ops.map (·.1)).Nodup →
      s.tileCount (coreOf i.key)
        + (g.ops.filter (fun ko => ko.2.held && ko.2.bin == g.u (f.ur a) && ko.2.cls == 3)).length ≤ 32 → ∃ t h, exec (.cprel a) s = .next t ∧ Moved s t i g f h ∧ g.SameButFlow { h with ops := g.ops }
      ∧ (∀ o x, g.ops.get o = some x → x.held = true → x.bin = g.u (f.ur a) → ∃ y, h.ops.get o = some y ∧ y.held = false
        ∧ y.desc = x.desc.set x.patchReg (min (s.binGet i.key g x.bin * 2 ^ x.patchShift) (x.desc.getD x.patchReg 0)))
      ∧ (∀ o x, g.ops.get o = some x → x.held = false ∨ x.bin ≠ g.u (f.ur a) → h.ops.get o = some x)))

/-! ### Blocking system instructions (R394 to R400) -/

/-- R394, R395, R400: a blocking system instruction whose checks pass waits for its operation: after a drain of the core where it
is a release, else at once; with no active lane it only moves on.
R394, R395, R400: a pointer that names no object raises OBJF, a region that is not enabled raises RECF, a commit in a task
raises RECF.  What the record of such a failure holds beyond its subcode is the model's choice (log entry 26). -/
def Obligations.SystemInstructionsCheckAndBlock : Prop :=
  (∀ (s : State) (i : Issue) (g : Gang) (f : Frag) (x : Cmd), Issuing s i g f →
  ∀ p ∈ [(Instr.oalc, [x.a, x.a + 1, x.a + 2], [x.c, x.c + 1], true), (.ofre, [x.a, x.a + 1], [], true),
      (.oloc, [x.a, x.a + 1], [x.c, x.c + 1], true), (.opin, [x.a, x.a + 1], [], true), (.ounp, [x.a, x.a + 1], [], true),
      (.ocol, [x.a, x.a + 1, x.c], [], true), (.omig, [x.a, x.a + 1, x.c], [], true), (.ocln, [x.a, x.a + 1], [], true),
      (.ored, [x.a, x.a + 1, x.a + 2, x.a + 3], [x.c, x.c + 1], true), (.obar, [x.a, x.a + 1], [], true),
      (.rcomm, [x.a, x.a + 2, x.a + 3], [x.c, x.c + 1], true), (.rcqry, [x.a], (List.range 16).map (x.c + ·), false),
      (.rcver, [x.a], [x.c, x.c + 1], false)],
    let d := p.2.1.map (fun n => g.u (f.ur n))
    let ok := match p.1 x with
      | .oalc _ => ¬ (fld (d.getD 2 0) 2 2 = 1 ∧ Config.ddrSize = 0)
      | .ored _ => True
      | .obar _ => True
      | .rcomm _ => g.task = false ∧ regionCheck s i g d = none
      | .rcqry _ => regionCheck s i g d = none
      | .rcver _ => regionCheck s i g d = none
      | _ => ptrCheck s i g d = none
    Clear s i g [] ((p.2.1 ++ [x.b] ++ p.2.2.1).map f.ur) →
    (g.active f ≠ 0 → ok → g.memOwed true = false → ∃ t h y, exec (p.1 x) s = .next t ∧ BlockedOn s t i g f h y
      ∧ y.what = p.1 x ∧ y.desc = d ∧ y.stReg = f.ur x.b ∧ y.res = p.2.2.1.map f.ur ∧ y.phase = (if p.2.2.2 then 1 else 2)
      ∧ (p.2.2.2 = false → .blockingAnswer i.key g.newOp ∈ t.pending))
    ∧ (g.active f = 0 → ∃ t h, exec (p.1 x) s = .next t ∧ Moved s t i g f h ∧ g.SameButFlow h))
  ∧ (∀ (s : State) (i : Issue) (g : Gang) (f : Frag) (x : Cmd), Issuing s i g f → g.active f ≠ 0 →
  (∀ p ∈ [(Instr.ofre, [x.a, x.a + 1], []), (.oloc, [x.a, x.a + 1], [x.c, x.c + 1]), (.opin, [x.a, x.a + 1], []),
      (.ounp, [x.a, x.a + 1], []), (.ocol, [x.a, x.a + 1, x.c], []), (.omig, [x.a, x.a + 1, x.c], []), (.ocln, [x.a, x.a + 1], [])],
    Clear s i g [] ((p.2.1 ++ [x.b] ++ p.2.2).map f.ur) →
    let q := g.u (f.ur x.a) + g.u (f.ur (x.a + 1)) * 2 ^ 32
    128 ≤ q / 2 ^ 56 % 256 ∨ q / 2 ^ 36 % 2 ^ 20 = 0 →
    exec (p.1 x) s = .next (s.trap i (2 ^ cOBJF) (some (sysRec i.pc i.frag (g.active f) subBADPTR q))))
  ∧ (∀ p ∈ [(Instr.rcqry, (List.range 16).map (x.c + ·)), (.rcver, [x.c, x.c + 1])],
    Clear s i g [] (([x.a] ++ [x.b] ++ p.2).map f.ur) → 64 ≤ g.u (f.ur x.a) →
    exec (p.1 x) s = .next (s.trap i (2 ^ cRECF) (some (sysRec i.pc i.frag (g.active f) subNOREG 0))))
  ∧ (Clear s i g [] (([x.a, x.a + 2, x.a + 3] ++ [x.b] ++ [x.c, x.c + 1]).map f.ur) → g.task = true →
    exec (.rcomm x) s = .next (s.trap i (2 ^ cRECF) (some (sysRec i.pc i.frag (g.active f) subTASK 0)))))

/-! ### Coherence between the dies (R125 to R131) and the host's requests (R148, R149) -/

/-- R127, R129, R131: a request for a line in a transaction, or behind another, queues at the home; one that needs the way of another
entry waits while that entry is evicted.  For an unshared line RDS gives E or S, RDO gives M and makes its die the owner, UPG of the only
holder grants, and is an RDO when its copy has gone; RDS of a line that another die owns sends it an SNPS, RDO and UPG send the
other holders an SNPI.  A read from memory is counted first (R66; its answer to an access of another device is the model's reading, log
entry 43). -/
def Obligations.CoherenceRequestsServed : Prop :=
  ∀ (s : State) (l : LineId) (d h : Nat), d < 4 →
  ∀ p ∈ [(Instr.rds, Msg.rds l d, 0), (.rdo, .rdo l d h, 1), (.upg, .upg l d h, 2)], s.msg = some p.2.1 →
    (p.2.2 = 2 ∨ s.counted l = false ∨ s.oteBusy l = false) →
    let s1 := if p.2.2 = 2 then s else s.countLocal l
    let hh := if p.2.2 = 0 then 0 else h
    let e := s1.dirOf l
    let gone := s1.slSt d l = .i ∨ s1.slSt d l = .wb ∨ bit e.pres d = false
    ((s1.txn l).isSome = true ∨ (∃ q ∈ s1.coh.queue, q.1 = l) →
      exec p.1 s = .next { s1 with coh := { s1.coh with queue := s1.coh.queue ++ [(l, p.2.2, d, hh)] } })
    ∧ (s1.txn l = none → (∀ q ∈ s1.coh.queue, q.1 ≠ l) →
      (s1.dirFull l d = true → ∃ t, exec p.1 s = .next t ∧ (l, p.2.2, d, hh) ∈ t.coh.queue ∧ t.txn l = none ∧ t.dirOf l = e)
      ∧ (s1.dirFull l d = false → e.hlo = 0 → e.hhi = 0 → e.ps = false →
        (p.2.2 = 0 → (∀ k, e.own = some k → k = d) → s1.slSt d l = .i → ∃ t v q st, exec p.1 s = .next t
          ∧ .data l d v q st ∈ t.pending ∧ (st = .e ∨ st = .s) ∧ bit (t.dirOf l).pres d = true ∧ (t.txn l).isSome = true)
        ∧ (p.2.2 = 0 → ∀ k, e.own = some k → k ≠ d → ∃ t, exec p.1 s = .next t ∧ .snps l k d ∈ t.pending
          ∧ (t.txn l).isSome = true ∧ t.dirOf l = e)
        ∧ (p.2.2 = 1 ∨ (p.2.2 = 2 ∧ gone) → e.others d = [] → ∃ t v q, exec p.1 s = .next t ∧ .data l d v q .m ∈ t.pending
          ∧ (t.dirOf l).pres = 2 ^ d ∧ (t.dirOf l).own = some d ∧ (t.txn l).isSome = true)
        ∧ (p.2.2 = 2 → ¬ gone → e.others d = [] → ∃ t, exec p.1 s = .next t ∧ .gnt l d ∈ t.pending
          ∧ (t.dirOf l).pres = 2 ^ d ∧ (t.dirOf l).own = some d ∧ (t.txn l).isSome = true)
        ∧ (p.2.2 ≠ 0 → ∀ k ∈ e.others d, ∃ t, exec p.1 s = .next t ∧ .snpi l k d ∈ t.pending ∧ (t.txn l).isSome = true
          ∧ t.dirOf l = e)))

/-- R123, R129 to R131: a snoop of a copy that no release record holds: SNPS leaves O or S and sends the data, to the requester or
into the host's transaction; SNPI and BINV take the copy away; a copy that is gone answers that it missed.  One of a copy with a
release record comes again after the drains it asks for.  EVC takes a die out of the directory.
R127, R129 to R131: DATA installs the line, unless a copy is held that it does not replace, and acknowledges; GNT turns the copy to M;
the last IACK of an RDO sends M data, that of an eviction frees the entry, and whoever waits looks again; CMP ends the transaction; WBD takes an evicting die's copy
away and, from another die than the home, leaves the data there; dirty data for an open transaction is kept for it. -/
def Obligations.SnoopsAndAnswersTaken : Prop :=
  (∀ (s : State) (l : LineId) (k : Nat),
  (∀ x, s.sl k l = some x → x.slots = [] → x.st ≠ .i → x.st ≠ .wb →
    (∀ req, s.msg = some (.snps l k req) → ∃ t, exec .snps s = .next t
      ∧ t.sl k l = some { x with st := if x.st = .m ∨ x.st = .o then .o else .s }
      ∧ .iack l k false ∈ t.pending ∧ (req < 8 → .data l req x.data x.poison .s ∈ t.pending)
      ∧ (8 ≤ req → ∀ y, s.txn l = some y → ∃ z, t.txn l = some z ∧ z.data = some (x.data, x.poison)))
    ∧ (∀ req, s.msg = some (.snpi l k req) → ∃ t, exec .snpi s = .next t ∧ t.sl k l = none ∧ .iack l k false ∈ t.pending
      ∧ (x.st = .m ∨ x.st = .o → ∀ y, s.txn l = some y → ∃ z, t.txn l = some z ∧ z.data = some (x.data, x.poison)))
    ∧ (s.msg = some (.binv l k) → ∃ t, exec .binv s = .next t ∧ t.sl k l = none
      ∧ (if x.st = .m ∨ x.st = .o then Msg.wbd l k x.data x.poison else .iack l k false) ∈ t.pending))
  ∧ (∀ x e, s.sl k l = some x → e ∈ x.slots → x.st ≠ .i → x.st ≠ .wb → ∀ req,
    ∀ p ∈ [(Instr.snps, Msg.snps l k req), (.snpi, .snpi l k req), (.binv, .binv l k)], s.msg = some p.2 → ∃ t, exec p.1 s = .next t
      ∧ .drn x.line x.die (64 * x.die + e.1) e.2 ∈ t.pending ∧ t.coh = s.coh ∧ (s.cycle + 16, p.2) ∈ t.timers)
  ∧ (s.slSt k l = .i → (∀ req, s.msg = some (.snps l k req) → exec .snps s = .next (s.push (.iack l k true)))
    ∧ (∀ req, s.msg = some (.snpi l k req) → exec .snpi s = .next (s.push (.iack l k true)))
    ∧ (s.msg = some (.binv l k) → exec .binv s = .next (s.push (.iack l k true)))
    ∧ (s.msg = some (.evc l k) → ∃ t, exec .evc s = .next t ∧ bit (t.dirOf l).pres k = false ∧ (t.dirOf l).own ≠ some k)))
  ∧ (∀ (s : State) (l : LineId) (d : Nat), d < 4 →
  (∀ v p st, s.msg = some (.data l d v p st) → ∃ (t s' : State), exec .data s = .next t ∧ t = (s'.flushWb d l).wakeLine d l
    ∧ .cmp l d ∈ s'.pending ∧ s'.mem = s.mem
    ∧ (s.slSt d l = .i ∨ st = .m → ∃ x, s'.sl d l = some x ∧ x.st = st ∧ x.data = v ∧ x.poison = (p || s.coh.chkBad.contains l))
    ∧ (¬ (s.slSt d l = .i ∨ st = .m) → s'.coh = s.coh))
  ∧ (∀ x, s.msg = some (.gnt l d) → s.sl d l = some x → x.st = .s ∨ x.st = .o → ∃ (t s' : State), exec .gnt s = .next t
    ∧ t = (s'.flushWb d l).wakeLine d l ∧ s'.sl d l = some { x with st := .m } ∧ .cmp l d ∈ s'.pending)
  ∧ (∀ k miss x, s.msg = some (.iack l k miss) → s.txn l = some x → x.die < 4 →
    (x.left ≠ 1 → 0 < x.left → ∃ t y, exec .iack s = .next t ∧ t.txn l = some y ∧ y.left = x.left - 1 ∧ y.kind = x.kind)
    ∧ (x.left = 1 → x.kind = 1 → ∃ t v p, exec .iack s = .next t ∧ .data l x.die v p .m ∈ t.pending
      ∧ (t.dirOf l).own = some x.die))
  ∧ (∀ k miss x, s.msg = some (.iack l k miss) → s.txn l = some x → x.die < 8 → x.left = 1 → x.kind = 3 → s.coh.queue = [] →
    ∃ s', exec .iack s = .next ((List.range 4).foldl (fun s d => s.wakeDie d) s') ∧ s'.txn l = none
      ∧ s'.dirOf l = ⟨l, 0, none, false, 0, 0⟩)
  ∧ (s.msg = some (.cmp l d) → s.coh.queue = [] → ∃ t, exec .cmp s = .next t ∧ t.txn l = none ∧ t.coh.lines = s.coh.lines
      ∧ ∀ l', l' ≠ l → t.txn l' = s.txn l')
  ∧ (∀ v p, s.msg = some (.wbd l d v p) →
    (s.slSt d l = .wb → s.txn l = none → s.homeDie l = d → ∃ t, exec .wbd s = .next t
      ∧ t.sl d l = none ∧ bit (t.dirOf l).pres d = false)
    ∧ (s.slSt d l = .wb → s.txn l = none → s.homeDie l ≠ d → ∃ t x, exec .wbd s = .next t
      ∧ (t.dirOf l).own = some (s.homeDie l) ∧ bit (t.dirOf l).pres d = false ∧ t.sl (s.homeDie l) l = some x
      ∧ (x.st = .m ∨ x.st = .o) ∧ x.data = v)
    ∧ (s.slSt d l ≠ .wb → ∀ y, s.txn l = some y → 2 ≤ y.left → ∃ t z, exec .wbd s = .next t ∧ t.txn l = some z
      ∧ z.left = y.left - 1 ∧ z.data = some (v, p || s.coh.chkBad.contains l))))

/-- R121 to R124, R102, R150, R499: DRN starts a drain of its core unless one covers it; DRAIN_DONE ends its drain, clears the core's
records and lets the releases it serves go on; RCLR removes the covered records of a core.  An L1 write-back to a line of this device
merges its bytes at a copy that may be written; one to an object that another device holds leaves as a request; one to an object whose
owner refuses it is dropped and counted; the core's accesses that waited for it look again.  (One behind an older write-back of the
core to its line waits, R159.) -/
def Obligations.DrainsComplete : Prop :=
  ∀ (s : State),
  (∀ l die core rsn, s.msg = some (.drn l die core rsn) →
    (s.drainCovers core rsn = true → exec .drn s = .next s)
    ∧ (s.drainCovers core rsn = false → ∃ t id d, exec .drn s = .next t ∧ t.coh.drains.get id = some d ∧ d.core = core
      ∧ d.serves = [] ∧ t.mem = s.mem ∧ ∀ x ∈ (t.core core).l1, x.dirty = 0))
  ∧ (∀ id d, s.msg = some (.drainDone id) → s.coh.drains.get id = some d → d.lost = false → ∃ t, exec .drainDone s = .next t
    ∧ t.coh.drains = s.coh.drains.erase id ∧ t.gangs = s.gangs ∧ t.mem = s.mem ∧ .rclr (dieOf d.core) (d.core % 64) d.d ∈ t.pending
    ∧ ∀ ko ∈ d.serves, .releaseAcksDone ko.1 ko.2 ∈ t.pending)
  ∧ (∀ die c d, s.msg = some (.rclr die c d) → ∃ (t s' : State), exec .rclr s = .next t ∧ t = s'.wakeDie die
    ∧ (∀ x ∈ s'.coh.lines, ∃ y ∈ s.coh.lines, y.die = x.die ∧ y.line = x.line ∧ y.data = x.data)
    ∧ ∀ x ∈ s'.coh.lines, x.die = die → ∀ e ∈ x.slots, ¬ (e.1 = c ∧ (d + 256 - e.2) % 256 < 128))
  ∧ (∀ core l0 data mask p drain, s.msg = some (.l1Writeback core l0 data mask p drain) →
    s.wbOlder core l0 drain = false →
    let s1 := if l0.obj then (s.lookHere l0.ident).1.otcFill l0.ident l0.off else s
    let l := if l0.obj then s1.objLineOf l0.ident l0.off else l0
    let here := l0.obj = false ∨ (s.lookHere l0.ident).2 = true
    let wd := s1.writeDie (dieOf core) l
    (mask = 0 → exec .l1Writeback s = .next (s.ackDrain drain))
    ∧ (mask ≠ 0 → here → (l0.obj = true → s1.lineAsked l = false ∧ s1.ownerChk l0.ident l0.off = none) →
      s1.splitAt l mask = false → s1.canWrite wd l mask = true → s1.coh.wbw = [] →
      ∀ x, s1.sl wd l = some x → ∃ (s' : State) (y : SLine), exec .l1Writeback s = .next (s'.wakeLine (dieOf core) l0) ∧ s'.sl wd l = some y
        ∧ y.data = lineMerge x.data data mask ∧ y.st = (if s1.recLine l then .e else .m)
        ∧ (s1.recLine l = false → s'.mem = s.mem))
    ∧ (mask ≠ 0 → ¬ here → ∃ s' : State, exec .l1Writeback s = .next (s'.wakeLine (dieOf core) l0)
      ∧ (∃ r ∈ s'.fab.reqs, r.2.cont = .drain drain) ∧ s'.mem = s.mem)
    ∧ (∀ e, mask ≠ 0 → l0.obj = true → here → s1.lineAsked l = false → s1.ownerChk l0.ident l0.off = some e → ∃ s' : State,
      exec .l1Writeback s = .next (s'.wakeLine (dieOf core) l0) ∧ s'.dcb.wbref = min (s.dcb.wbref + 1) (2 ^ 64 - 1)
      ∧ s'.coh.lines = s.coh.lines ∧ s'.mem = s.mem))

/-- R148, R149: the host's read and write are requests of an extra agent at the home; a half it holds exclusively is written
back by its write and given up; its answer to a BISnp makes the half shared or invalid and brings its data, and no answer in time
marks the link failed, which FPST shows, and the line poisoned.  POISON stays with its line at a host write (the model's reading,
log entry 55). -/
def Obligations.HostRequestsServed : Prop :=
  ∀ (s : State),
  (∀ a excl id, s.msg = some (.hostRead a excl id) → s.host.down = false → populated a = true →
    let l := hostLine a
    let k := if excl then 1 else 0
    let d := hostDie (hostHalf a) id
    ((s.txn l).isSome = true ∨ (∃ q ∈ s.coh.queue, q.1 = l) → ∃ t, exec .hostRead s = .next t
      ∧ t.coh.queue = s.coh.queue ++ [(l, k, d, 0)] ∧ t.mem = s.mem)
    ∧ (s.txn l = none → (∀ q ∈ s.coh.queue, q.1 ≠ l) → s.dirFull l d = false → (s.dirOf l).pres = 0 → (s.dirOf l).own = none →
        (s.dirOf l).ps = false → ∃ t v, exec .hostRead s = .next t ∧ (id, v) ∈ t.host.answers
        ∧ v = lineGet (s.lineNow l).1 (64 * hostHalf a) 64
        ∧ (if hostHalf a = 0 then (t.dirOf l).hlo else (t.dirOf l).hhi)
          = (if excl then 2 else if (if hostHalf a = 0 then (s.dirOf l).hlo else (s.dirOf l).hhi) = 0 then 1
              else if hostHalf a = 0 then (s.dirOf l).hlo else (s.dirOf l).hhi)
        ∧ t.mem = s.mem))
  ∧ (∀ a data mask, s.msg = some (.hostWrite a data mask) → s.host.down = false → populated a = true →
    let l := hostLine a
    let sh := 64 * hostHalf a
    let new := lineMerge (s.lineNow l).1 (data * 256 ^ sh) (mask % 2 ^ 64 * 2 ^ sh)
    let held := if hostHalf a = 0 then (s.dirOf l).hlo else (s.dirOf l).hhi
    (held ≠ 2 → s.isQuiet = true → ∃ t, exec .hostWrite s = .next t ∧ (t.dirOf l).pres = 0 ∧ (∀ x ∈ t.coh.lines, x.line ≠ l)
      ∧ t.host.lastReq = s.cycle ∧ t.gangs = s.gangs
      ∧ (s.regionOf (a / 128 * 128) = none → t.mem = Mem.store s.mem (a / 128 * 128) 128 new))
    ∧ (held = 2 → ∃ t, exec .hostWrite s = .next t ∧ (if hostHalf a = 0 then (t.dirOf l).hlo else (t.dirOf l).hhi) = 0
      ∧ t.coh.lines = s.coh.lines ∧ t.gangs = s.gangs
      ∧ (s.regionOf (a / 128 * 128) = none → t.mem = Mem.store s.mem (a / 128 * 128) 128 new)))
  ∧ (∀ l half b, s.host.bisnp.find? (fun b => b.line == l && b.half == half) = some b → half < 2 →
    (s.txn l = none ∨ ∃ y, s.txn l = some y ∧ 2 ≤ y.left) →
    (∀ data, s.msg = some (.bisnpAnswer l half data) → ∃ (t s' : State), exec .bisnpAnswer s = .next t
      ∧ t = ((List.range 4).foldl (fun s d => s.wakeLine d l) s').wakeNaps
      ∧ (if half = 0 then (s'.dirOf l).hlo else (s'.dirOf l).hhi) = (if b.inv then 0 else 1)
      ∧ (∀ c ∈ s'.host.bisnp, ¬ (c.line = l ∧ c.half = half)) ∧ s'.gangs = s.gangs
      ∧ (∀ y, s.txn l = some y → ∃ z, s'.txn l = some z ∧ z.left = y.left - 1)
      ∧ (∀ v, data = some v → l.obj = false → s.regionOf (l.name * 128) = none →
          s'.mem = Mem.store s.mem (l.name * 128) 128 (linePut (s.lineNow l).1 (64 * half) 64 v)))
    ∧ (s.msg = some (.hbtoExpiry l half b.sent) →
      s.host.bisnp.find? (fun c => c.line == l && c.half == half && c.sent == b.sent) = some b →
      ∃ (t s' : State), exec .hbtoExpiry s = .next t
      ∧ t = ((List.range 4).foldl (fun s d => s.wakeLine d l) s').wakeNaps ∧ s'.host.down = true ∧ bit s'.dcb.fpst 63 = true
      ∧ (if half = 0 then (s'.dirOf l).hlo else (s'.dirOf l).hhi) = 0
      ∧ (l.obj = false → s.regionOf (l.name * 128) = none → (s'.lm l.name).poison = true)))

/-! ### Events of a gang (R36 to R40, R334, R339, R349, R353, R430, R441 to R447) -/

/-- R36 to R40, R255, R430: PAGE_WALK_DONE puts its translation into the core's TLB, or leaves the failure with the fragment that
waits; IBUF_FILL puts the line of a fetched address into the instruction buffer; a fetch of a non-canonical address fails.
R144, R330, R353, R334: RELEASE_ACKS_DONE of a fence below POD ends its wait, one at POD or REC waits for the gang's remote
accesses; TEND_DONE ends the task; SYNC_WORD_COUNT adds bytes to COUNT, which saturates, and the word advances while it is due. -/
def Obligations.WaitsOfAGangEnd : Prop :=
  (∀ (s : State), s.isQuiet = true →
  (∀ r g f w, s.msg = some (.pageWalkDone r) → s.gang r.g = some g → g.frags.get r.frag = some f → f.wait = .walk w →
    (∀ s1 e, s.dieTranslate (dieOf r.core) r.asid r.root r.va r.kind = (s1, .ok e) → ∃ t h f', exec .pageWalkDone s = .next t
      ∧ t.gang r.g = some h ∧ h.frags.get r.frag = some f' ∧ f'.wait = .ready ∧ f'.walkFails = f.walkFails
      ∧ e ∈ (t.core r.core).tlb ∧ g.SameButFlow h)
    ∧ (∀ s1 e, s.dieTranslate (dieOf r.core) r.asid r.root r.va r.kind = (s1, .error e) → ∃ t h f', exec .pageWalkDone s = .next t
      ∧ t.gang r.g = some h ∧ h.frags.get r.frag = some f' ∧ f'.wait = .ready
      ∧ f'.walkFails = f.walkFails ++ [⟨r.va / 4096, r.kind, e⟩] ∧ g.SameButFlow h))
  ∧ (∀ k fr va g, s.msg = some (.ibufFill k fr va) → s.gang k = some g →
    (∀ tr l o, va < 2 ^ 57 → (s.core (coreOf k)).tlb.find? (fun t => t.serves (s.space g).1 va 2) = some tr →
      s.physChk tr va 0 = .ok l o → (s.lineNow l).2 = false → (s.core (coreOf k)).ibuf.length < 1024 →
      ∃ t, exec .ibufFill s = .next t ∧ ⟨(s.space g).1, va / 128 * 128, (s.lineNow l).1⟩ ∈ (t.core (coreOf k)).ibuf ∧ t.mem = s.mem)
    ∧ (∀ f, 2 ^ 57 ≤ va → fr ≠ 8 → g.frags.get fr = some f → ∃ t h f', exec .ibufFill s = .next t ∧ t.gang k = some h
      ∧ h.frags.get fr = some f' ∧ f'.walkFails = f.walkFails ++ [⟨va / 4096, 2, subNONCANON⟩] ∧ g.SameButFlow h)))
  ∧ (∀ (s : State),
  (∀ k o g x y, s.msg = some (.releaseAcksDone k o) → s.gang k = some g → g.ops.get o = some x → x.what = .fence y →
    (x.rel < 4 → x.flags = 0 → g.retired = false → ∃ t h, exec .releaseAcksDone s = .next t ∧ t.gang k = some h
      ∧ h.ops = g.ops.erase o ∧ (∀ n f, g.frags.get n = some f →
          h.frags.get n = some (if f.wait = .blocked o then { f with wait := .ready } else f))
      ∧ g.SameButFlow { h with ops := g.ops, shadow := g.shadow } ∧ t.mem = s.mem)
    ∧ (4 ≤ x.rel → s.remoteOwed k o = true → exec .releaseAcksDone s = .next (s.after 16 (.releaseAcksDone k o))))
  ∧ (∀ k o g, s.msg = some (.tendDone k o) → s.gang k = some g → g.ops.has o = true → g.retired = false →
    ∃ t h, exec .tendDone s = .next t ∧ t.gang k = some h ∧ h.task = false ∧ h.taskid = 0 ∧ h.spec = [] ∧ h.ops = g.ops.erase o
      ∧ h.vreg = g.vreg ∧ h.sreg = g.sreg ∧ h.mreg = g.mreg ∧ t.mem = s.mem)
  ∧ (∀ c a bytes k o rl tg n gen, s.msg = some (.syncWordCount c a bytes k o) → s.swRead c a = (rl, tg, n, gen) →
    s.clearing c a = false → ∃ t, exec .syncWordCount s = .next t
      ∧ SwSettled (rl, tg, min (n + bytes) (2 ^ 32 - 1), gen) (t.swRead c a) ∧ t.mem = s.mem
      ∧ StoresKept s t (fun d st m => d = c ∧ st = 0 ∧ a ≤ m ∧ m < a + 16) ∧ (n + bytes < 2 ^ 32 → t.gangs = s.gangs)))

/-- R339, R349, R368, R398, R447: NAP_WAKE ends the NAP of a shared-store word that has changed, with status 0, and leaves it at the
expected one; NAP_TIMEOUT ends it with status 1; SYNCTO raises its cause at a wait of BARW, BARS or SWWT, of a WAITC on a held command
or for a collective that began when it says, and is void at one that did not; HANDLER_PREEMPT saves the block of a handler that keeps a
pre-emption waiting, which is looked at every 64 cycles (the model's reading, log entry 50). -/
def Obligations.TimeoutsAndWakes : Prop :=
  ∀ (s : State) (k fr : Nat) (g : Gang), s.gang k = some g →
  (∀ o x a, s.napOp k fr o = some x →
    (s.msg = some (.napWake k fr o) → x.sp = 2 → x.accs.head? = some a → (s.onRead a.line.name 0 a.off 4).2 = false →
      ((s.onRead a.line.name 0 a.off 4).1 ≠ x.desc.getD 0 0 → ∃ t h, exec .napWake s = .next t ∧ t.gang k = some h
        ∧ h.u x.dst = 0 ∧ (∀ n, n ≠ x.dst → h.u n = g.u n) ∧ h.ops = g.ops.erase o ∧ h.vreg = g.vreg ∧ t.mem = s.mem)
      ∧ ((s.onRead a.line.name 0 a.off 4).1 = x.desc.getD 0 0 → exec .napWake s = .next s))
    ∧ (s.msg = some (.napTimeout k fr o) → ∃ t h, exec .napTimeout s = .next t ∧ t.gang k = some h ∧ h.u x.dst = 1
      ∧ (∀ n, n ≠ x.dst → h.u n = g.u n) ∧ h.ops = g.ops.erase o ∧ h.vreg = g.vreg ∧ t.mem = s.mem))
  ∧ (∀ since f, s.msg = some (.syncto k fr since) → g.frags.get fr = some f →
    (f.timed = some since → (∃ n p, f.wait = .bar n p) ∨ (∃ c o n, f.wait = .sync c o n)
        ∨ (∃ o y, f.wait = .blocked o ∧ g.ops.get o = some y ∧ ((∃ n, y.what = .bars n) ∨ (∃ c, y.what = .ored c) ∨ ∃ c, y.what = .obar c))
        ∨ (∃ x, f.wait = .waitc x ∧ g.waitsHeld x = true) → g.retired = false → ∃ t h,
      exec .syncto s = .next t ∧ t.gang k = some h
      ∧ h.tcause = g.tcause ||| 2 ^ cSYNCTO ∧ h.frags = g.frags ∧ h.sreg = g.sreg ∧ t.mem = s.mem)
    ∧ (f.timed ≠ some since → g.shadow = none → exec .syncto s = .next s))
  ∧ (∀ e l, s.msg = some (.handlerPreempt k e) → g.hm = true → g.hentry = e → g.retired = false →
    (bit g.tcause cPREEMPT = true ∨ bit g.tcause cSLICE = true → s.launch g.launch = some l → l.savb ≠ 0 →
      exec .handlerPreempt s = .next (s.push (.blockSave g.blk)))
    ∧ (bit g.tcause cPREEMPT = true ∨ bit g.tcause cSLICE = true → s.launch g.launch = some l → l.savb = 0 →
      exec .handlerPreempt s = .next s)
    ∧ (bit g.tcause cPREEMPT = false → bit g.tcause cSLICE = false →
      exec .handlerPreempt s = .next (s.after 64 (.handlerPreempt k e))))

/-- R441, R442: taking an exception.  With P = TCAUSE AND TMASK in a class other than 3 and a handler, every live slice goes to TVEC
with its live unfinished lanes, the program's slices and the addresses its fragments resume at are saved, HM is set, TCAUSE keeps
its bits, and the last three window registers receive P, the fragments that raised and the lanes newly dead; class 3 halts the gang;
without a handler it is killed.  A fault record is written first when one is kept for the entry. -/
def Obligations.TrapEntryTakesException : Prop :=
  ∀ (s : State) (k : Nat) (g : Gang), s.msg = some (.trapEntry k) → s.isQuiet = true → s.gang k = some g →
    (∀ ko ∈ g.ops, ko.2.what ≠ .tend) → (s.block g.blk).isSome = true → g.hm = false → g.halted = false → g.retired = false →
    g.tcause &&& g.tmask ≠ 0 →
    let c := lowestClass (g.tcause &&& g.tmask)
    let g0 : Gang := { g with entryDue := false }
    let w := match g.entryRec c with | some r => (s.putGang k g0).writeRec k g0 r | none => (s, true)
    (c ≠ 3 → g.tvec ≠ 0 → w.2 = true → 32 ≤ g.asz → ∃ t h, exec .trapEntry s = .next t ∧ t.gang k = some h
      ∧ h.hm = true ∧ h.tcause = g.tcause ∧ h.tmask = g.tmask ∧ h.entryDue = false ∧ h.raised = 0 ∧ h.dlPrev = g.dl
      ∧ (∃ x, h.shadow = some x ∧ x.slices = g.slices ∧ x.tfpc = g.frags.map (fun kf => (kf.1, g.pcOf kf.2)))
      ∧ (∀ n y, g.slices[n]? = some y → bit g.laneSlices n = true → h.slices[n]? = some ⟨g.tvec, fld g.liveUnf (4 * n) 4, []⟩)
      ∧ (h.frags.map (fun kf => (kf.1, kf.2.slices, kf.2.xv, kf.2.xs, kf.2.wait)) = [(0, g.laneSlices, g.av - 16, g.asz - 32, .ready)])
      ∧ h.u (g.asz - 32) = (g.tcause &&& g.tmask &&& classBits c) % 2 ^ 32 ∧ h.u (g.asz - 31) = g.raisedIn (g.tcause &&& g.tmask &&& classBits c) % 2 ^ 32
      ∧ (g.late = [] → h.u (g.asz - 31) = g.raised % 2 ^ 32)
      ∧ h.u (g.asz - 30) = andNot g.dl g.dlPrev % 2 ^ 32
      ∧ (∀ n, n < g.asz - 32 ∨ g.asz - 30 < n → h.u n = g.u n) ∧ h.vreg = g.vreg ∧ h.mreg = g.mreg ∧ h.dl = g.dl
      ∧ t.mem = w.1.mem)
    ∧ (c ≠ 3 → g.tvec ≠ 0 → w.2 = false → ∃ t h, exec .trapEntry s = .next t ∧ t.gang k = some h ∧ h.retired = true
      ∧ h.killed = true)
    ∧ (c = 3 → ∃ t h, exec .trapEntry s = .next t ∧ t.gang k = some h ∧ h.halted = true ∧ h.hm = false ∧ h.slices = g.slices
      ∧ h.vreg = g.vreg ∧ h.sreg = g.sreg)
    ∧ (c ≠ 3 → g.tvec = 0 → ∃ t h, exec .trapEntry s = .next t ∧ t.gang k = some h ∧ h.retired = true ∧ h.killed = true)

/-! ### Events of the engines and of blocking instructions (R366 to R420, R394 to R399) -/

/-- R366, R394: ENGINE_COMPLETION of a performed command that is the oldest of its class writes its status and result registers,
lowers its counter and raises the cause of its CODE; BLOCKING_ANSWER of an answered operation whose answer raises no cause writes
status and results and ends the wait. -/
def Obligations.CompletionsWriteStatus : Prop :=
  ∀ (s : State) (k o : Nat) (g : Gang) (x : Op), s.gang k = some g → g.ops.get o = some x → g.retired = false → x.stReg ∉ x.res →
    x.res.Nodup →
  (s.msg = some (.engineCompletion k o) → x.phase = 3 → 2 ≤ x.cls → x.cls ≤ 5 → s.cmdReqs k o = false →
    (g.hm = true → x.hm = true → x.code ∉ [1, 2, 3, 4, 10]) →
    g.ops.find? (fun ko => ko.2.cls == x.cls) = some (o, x) → ({ g with ops := g.ops.erase o } : Gang).headOf x.cls = none →
    ∃ t h, exec .engineCompletion s = .next t ∧ t.gang k = some h ∧ h.ops = g.ops.erase o
      ∧ h.ctr = g.ctr.set x.cls (g.count x.cls - 1) ∧ h.u x.stReg = x.status % 2 ^ 32
      ∧ (∀ p ∈ x.res.zip x.out, h.u p.1 = p.2 % 2 ^ 32) ∧ (∀ n, n ≠ x.stReg → n ∉ x.res → h.u n = g.u n)
      ∧ h.tcause = g.tcause ||| (match x.code with
          | 1 => if x.errSub = 256 then 2 ^ cUNITABS else 2 ^ cENGF
          | 2 => 2 ^ cPEERLOST
          | 3 => 2 ^ cENGF
          | 4 => 2 ^ cENGF
          | 10 => 2 ^ cUNITABS
          | _ => 0)
      ∧ h.vreg = g.vreg ∧ h.mreg = g.mreg ∧ h.slices = g.slices ∧ h.frags = g.frags ∧ h.fpstat = g.fpstat
      ∧ (∀ j, j ≠ k → t.gang j = s.gang j) ∧ t.mem = s.mem)
  ∧ (s.msg = some (.blockingAnswer k o) → x.phase = (match x.what with | .rcomm _ => 3 | _ => 4) → x.errSub = 0 → x.code ≠ 11 →
    x.code ≠ 13 → (g.hm = true → x.hm = true) → coreOf k < 256 →
    ∃ t h, exec .blockingAnswer s = .next t ∧ t.gang k = some h ∧ h.ops = g.ops.erase o
      ∧ h.u x.stReg = (x.code % 256 + x.pcnt % 2 ^ 16 * 2 ^ 16) % 2 ^ 32
      ∧ (∀ p ∈ x.res.zip x.out, h.u p.1 = p.2 % 2 ^ 32) ∧ (∀ n, n ≠ x.stReg → n ∉ x.res → h.u n = g.u n)
      ∧ (∀ n f, g.frags.get n = some f → h.frags.get n = some (if f.wait = .blocked o then { f with wait := .ready } else f))
      ∧ h.slices = g.slices ∧ g.SameButFlow { h with ops := g.ops, sreg := g.sreg, badU := g.badU, shadow := g.shadow }
      ∧ (∀ j, j ≠ k → t.gang j = s.gang j) ∧ t.mem = s.mem)

/-- R378, R381, R401 to R403: TILE_PASS_START performs a TZERO that is the first command of its queue that may start: its rows of
the C-store read zero; it turns to WEIGHT_LATCH for a TWLD, and leaves all as it is where none may start; WEIGHT_LATCH latches the
image of a TWLD into its weight set, and ends it with DATAERR where a word of it is uncorrectable.
R379, R380, R382: TILE_PASS_START of a TMUL, TMULS or TMUL.X4 whose sets its block has latched and that meets sound words adds,
to every accumulator of its rows, the products of the activation row with the set's column, and of a TRD writes each converted element,
and with RMAX each row's maximum, where the descriptor says.
R392, R393, R419, R420: STATE_STORE_OP on sound records and a pool whose counts are here.  SSOPN opens a closed slot with its
pool, handle, layer and number of frames, and with NFR 0 closes an open one, its frames released; SSSV writes the copied frame as the
newest entry; SSLD copies the newest entry at or below its tag, and SSRBK gives up the entries above it; SSFRK gives its destination
the entries at or below a tag; SSQRY reports the ring.  An entry that is not there ends in NOFRAME, a pool without a free frame in
NOSPACE.
R393, R419: STATE_STORE_OP of a load, save, rollback, fork or query of a closed slot completes with BADSLOT, its result pair, where
it has one, "none". -/
def Obligations.TileCommandsAndClosedSlots : Prop :=
  (∀ (s : State), s.isQuiet = true →
  (∀ core, s.msg = some (.tilePassStart core) → s.tileNext core = none → exec .tilePassStart s = .next s)
  ∧ (∀ (k o : Nat) (g : Gang) (x : Op) (b : Block) (y : Cmd), s.gang k = some g → g.ops.get o = some x → s.block g.blk = some b →
    (s.msg = some (.tilePassStart (coreOf k)) → s.tileNext (coreOf k) = some (coreOf k, k, o) →
      (x.what = .twld y → exec .tilePassStart s = .next (s.push (.weightLatch k o)))
      ∧ (∀ l, x.what = .tzero y → s.launch g.launch = some l →
        ∃ t h z, exec .tilePassStart s = .next t ∧ t.gang k = some h ∧ h.ops.get o = some z ∧ z.phase = 3 ∧ z.code = x.code
          ∧ (let a := b.cBase.getD (b.rankOf (coreOf k)) 0 + 1024 * x.desc.getD 0 0
             (∀ n, a ≤ n → n < a + 1024 * x.desc.getD 1 0 → SMap.get ((t.core (coreOf k)).store 2) n = 0)
             ∧ StoresKept s t (fun c st n => c = coreOf k ∧ st = 2 ∧ a ≤ n ∧ n < a + 1024 * x.desc.getD 1 0)) ∧ t.mem = s.mem))
    ∧ (s.msg = some (.weightLatch k o) → x.what = .twld y →
      s.tileReady (s.eng.tileQ.takeWhile (fun p => p != (coreOf k, k, o))) (coreOf k, k, o) = true →
      let f := tcwFmt (x.desc.getD 1 0)
      let base := b.wBase.getD (b.rankOf (coreOf k)) 0 + x.desc.getD 0 0
      ∃ t w h z, exec .weightLatch s = .next t ∧ (t.core (coreOf k)).sets[tcwSet (x.desc.getD 1 0)]? = some w
        ∧ w.blk = some g.blk ∧ w.fmt = f
        ∧ w.image = Mem.store [] 0 (imageBytes f) (s.onRead (coreOf k) 3 base (imageBytes f)).1
        ∧ t.gang k = some h ∧ h.ops.get o = some z ∧ z.phase = 3
        ∧ (x.code = 0 → z.code = if s.firstBad (coreOf k) 3 base (imageBytes f) = none then 0 else 3)
        ∧ StoresKept s t (fun _ _ _ => False) ∧ t.mem = s.mem)))
  ∧ (∀ (s : State) (k o : Nat) (g : Gang) (x : Op) (b : Block) (l : Launch) (y : Cmd), s.isQuiet = true → s.gang k = some g →
    g.ops.get o = some x → s.block g.blk = some b → s.launch g.launch = some l → s.msg = some (.tilePassStart (coreOf k)) →
    s.tileNext (coreOf k) = some (coreOf k, k, o) → let core := coreOf k
  (x.what ∈ [Instr.tmul y, .tmuls y, .tmulX4 y] → let ps := x.passes b l core
    (∀ p ∈ ps, p.setBad s g.blk = false ∧ (s.core p.core).badWord = [] ∧ (s.core p.actCore).badWord = []) →
    (ps.map (·.core)).Nodup → s.eng.residueBad = [] →
    ∃ t h z, exec .tilePassStart s = .next t ∧ t.gang k = some h ∧ h.ops.get o = some z ∧ z.phase = 3 ∧ z.code = x.code
      ∧ (∀ p ∈ ps, ∀ i j, i < p.rows → j < p.width s →
          Mem.load ((t.core p.core).store 2) (p.cBase + 1024 * i + 4 * j) 4 = (p.cell s i j).1 % 2 ^ 32
          ∧ (p.cell s i j).2 &&& z.flags = (p.cell s i j).2)
      ∧ StoresKept s t (fun c st n => st = 2 ∧ ∃ p ∈ ps, c = p.core ∧ ∃ i, i < p.rows
          ∧ p.cBase + 1024 * i ≤ n ∧ n < p.cBase + 1024 * i + 4 * p.width s) ∧ t.mem = s.mem)
  ∧ (x.what = .trd y → let d (n : Nat) := x.desc.getD n 0
    let r := d 4
    let w : Int := (rcwNcol r * ofmtSize (rcwOfmt r) : Nat)
    let at' (i : Nat) : Int := (d 0 + 2 ^ 32 * d 1 : Nat) + i * sextN 32 (d 6)
    let abase := b.aBase.getD (b.rankOf core) 0
    rcwDsp r = 4 → (s.core core).badWord = [] → (∀ i, i < d 3 → 0 ≤ at' i ∧ at' i + w ≤ l.aBytes ∧ at' i + w ≤ 2 ^ 32) →
    (d 3 ≤ 1 ∨ w ≤ sextN 32 (d 6) ∨ w ≤ - sextN 32 (d 6)) →
    ∀ c q, (rcwRmax r = true → d 8 + 4 * d 3 ≤ 2 ^ 32
      ∧ ∀ i, i < d 3 → s.hPlace g core (d 8 + 4 * i) = .ok (c, q + 4 * i) ∧ s.clearing c (q + 4 * i) = false) →
    ∃ t h z, exec .tilePassStart s = .next t ∧ t.gang k = some h ∧ h.ops.get o = some z ∧ z.phase = 3 ∧ z.code = x.code
      ∧ (∀ i j, i < d 3 → j < rcwNcol r →
          Mem.load ((t.core core).store 1) (abase + (at' i).toNat + ofmtSize (rcwOfmt r) * j) (ofmtSize (rcwOfmt r))
            = x.trdOut s b core i j % 256 ^ ofmtSize (rcwOfmt r))
      ∧ (rcwRmax r = true → ∀ i, i < d 3 → Mem.load ((t.core c).store 0) (q + 4 * i) 4 = x.trdMax s b core i % 2 ^ 32)
      ∧ StoresKept s t (fun c' st n => (c' = core ∧ st = 1 ∧ ∃ i, i < d 3 ∧ abase + (at' i).toNat ≤ n
            ∧ (n : Int) < abase + at' i + w)
          ∨ (rcwRmax r = true ∧ c' = c ∧ st = 0 ∧ q ≤ n ∧ n < q + 4 * d 3)) ∧ t.mem = s.mem))
  ∧ (∀ (s : State) (k o : Nat) (g : Gang) (x : Op) (y : Cmd), s.msg = some (.stateStoreOp k o) → s.isQuiet = true → s.gang k = some g →
    g.ops.get o = some x → x.phase = 2 → s.clsEarlier k o 5 = false → s.ssBusy k o = false → x.cls = 5 → x.bin = 0 → x.code = 0 →
    s.cmdReqs k o = false → let d (n : Nat) := x.desc.getD n 0
    let n := fld (d 0) 0 16
    let v := s.slotBytes n
    let sl := slotOfBytes v.1
    let X := s.engX k x.fetched
    v.2 = false →
    let ends (code : Nat) (f : State → Op → Prop) : Prop := ∃ t h z, exec .stateStoreOp s = .next t ∧ t.gang k = some h
      ∧ h.ops.get o = some z ∧ z.phase = 3 ∧ z.code = code ∧ .engineCompletion k o ∈ t.pending ∧ f t z
    let holds (m : Nat) (r : Slot) (t : State) : Prop := (t.physRead 0 (s.slotAddr m) 256).1 = r.bytes % 256 ^ 256
  (byteField v.1 14 1 = 0 → x.what = .ssopn y → s.slotPlain n →
    (d 1 = 0 → ends 0 fun t _ => holds n ⟨0, 0, 0, 0, 0, []⟩ t)
    ∧ (d 1 ≠ 0 → let ptr := d 2 + 2 ^ 32 * d 3
      (X.pool ptr).1.Local → (X.pool ptr).1.st.slotPlain n → (X.pool ptr).1.st.slotAddr n = s.slotAddr n →
      ends 0 fun t _ => holds n ⟨ptr / 2 ^ 36 * 2 ^ 36, d 4, d 5 % 2 ^ 16, d 1, 0, []⟩ t))
  ∧ (byteField v.1 14 1 ≠ 0 → slotBad v.1 = false →
    (x.what = .ssopn y → sl.ents = [] → (d 1 = 0 → s.slotPlain n → ends 0 fun t _ => holds n ⟨sl.pool, sl.handle, sl.layer, 0, 0, []⟩ t)
      ∧ (d 1 ≠ 0 → ends 9 fun _ _ => True))
    ∧ (let P := X.pool sl.pool
      let p := P.2
      let at' (t : Nat) := sl.ents.find? (fun e => decide (e.1 ≤ t))
      P.1.Local → (∀ e ∈ sl.ents, e.2 < p.nf) →
      (x.what = .ssopn y → sl.ents ≠ [] → d 1 = 0 → let U := P.1.unrefAll p sl.ents
        U.Local → U.st.slotPlain n → U.st.slotAddr n = s.slotAddr n → ends 0 fun t _ => holds n ⟨sl.pool, sl.handle, sl.layer, 0, 0, []⟩ t)
      ∧ (x.what = .ssqry y → x.res ≠ [] →
        (∀ e, at' (d 1) = some e → ends 0 fun _ z => z.out = [e.1, 0] ∧ z.pcnt = x.pcnt + sl.ents.length + 2 ^ 8 * sl.nfr)
        ∧ (at' (d 1) = none → ends 6 fun _ z => z.out = [0xFFFFFFFF, 0] ∧ z.pcnt = x.pcnt + sl.ents.length + 2 ^ 8 * sl.nfr))
      ∧ (x.what = .ssld y → x.res ≠ [] →
        (∀ e, at' (d 1) = some e → (P.1.st.lookHere (p.ptr / 2 ^ 36)).2 = true → let Y := ssldCopy d P.1 p e
          Y.Local → ends 0 fun t z => z.out = [e.1, d 1 - e.1] ∧ t.mem = Y.st.mem ∧ t.cores = Y.st.cores)
        ∧ (at' (d 1) = none → ends 6 fun _ z => z.out = [0xFFFFFFFF, 0]))
      ∧ (x.what = .ssrbk y → x.res ≠ [] →
        (∀ e, at' (d 1) = some e → let rel := sl.ents.takeWhile (fun q => decide (e.1 < q.1))
          let U := P.1.unrefAll p rel
          U.Local → U.st.slotPlain n → U.st.slotAddr n = s.slotAddr n →
          ends 0 fun t z => z.out = [e.1, d 1 - e.1] ∧ holds n { sl with ents := sl.ents.drop rel.length
                                                                         new := (sl.new + 256 * sl.nfr - rel.length) % sl.nfr } t)
        ∧ (at' (d 1) = none → ends 6 fun _ z => z.out = [0xFFFFFFFF, 0]))
      ∧ (x.what = .sssv y → let rel := sl.ents.takeWhile (fun e => decide (d 1 ≤ e.1))
        let F := P.1.findFrame p rel
        F.1.Local →
        (F.2 = none → ends 7 fun _ _ => True)
        ∧ (∀ i, F.2 = some i → let x1 := (F.1.unrefAll p rel).setRef p i 1
          let Y := x1.move (fld (d 0) 28 4) (d 2 + 2 ^ 32 * d 3) 0 0 p.ptr ((p.h + i * p.fsz : Nat) : Int) p.fsz
          let cut := sl.cut rel.length
          let Z := Y.unrefAll p (if cut.ents.length = cut.nfr then cut.ents.drop (cut.nfr - 1) else [])
          x1.ok = true → Y.Local → Y.st.objInflight (p.ptr / 2 ^ 36) = false → Z.Local → Z.st.slotPlain n →
          Z.st.slotAddr n = s.slotAddr n → ends 0 fun t _ =>
            holds n { cut with ents := (d 1, i) :: cut.ents.take (cut.nfr - 1)
                               new := if cut.ents = [] then cut.new else (cut.new + 1) % cut.nfr } t))
      ∧ (x.what = .ssfrk y → x.res ≠ [] → let m := fld (d 1) 0 16
        let R := P.1.slot m
        ∀ dl e rest, R.2 = some dl → R.1.Local → n ≠ m → dl.pool = sl.pool → (∀ e ∈ dl.ents, e.2 < p.nf) →
        let share := (sl.ents.dropWhile (fun e => decide (d 2 < e.1))).take dl.nfr
        let U := share.foldl (fun x e => x.upref p e.2) (R.1.unrefAll p dl.ents)
        share = e :: rest → U.Local → U.st.slotPlain m → U.st.slotAddr m = s.slotAddr m →
        ends 0 fun t z => z.out = [e.1, d 2 - e.1] ∧ holds m { dl with ents := share, new := share.length - 1 } t))))
  ∧ (∀ (s : State) (k o : Nat) (g : Gang) (x : Op) (y : Cmd), s.msg = some (.stateStoreOp k o) → s.isQuiet = true → s.gang k = some g →
    g.ops.get o = some x → x.phase = 2 → s.clsEarlier k o 5 = false → s.ssBusy k o = false → x.cls = 5 →
    x.bin = 0 → x.what ∈ [Instr.ssld y, .sssv y, .ssrbk y, .ssfrk y, .ssqry y] → x.code = 0 → s.cmdReqs k o = false →
    (let v := s.physRead 0 (s.slotAddr (x.desc.getD 0 0 % 2 ^ 16)) 256
     v.2 = false ∧ byteField v.1 14 1 = 0) →
    ∃ t h z, exec .stateStoreOp s = .next t ∧ t.gang k = some h ∧ h.ops.get o = some z ∧ z.phase = 3 ∧ z.code = 9
      ∧ z.out = (if x.res = [] then [] else [0xFFFFFFFF, 0]) ∧ .engineCompletion k o ∈ t.pending ∧ t.mem = s.mem)

/-- R408, R409, R412, R413, R113, R385, R387, R410: a walk is given to an ATTN or APREF with its first header asked for, or waits in
the die's queue; a malformed page ends the command with DATAERR; a sound present page of an ATTN goes to its slice once its lines
are held, and the walk pauses at it till then; a demoted page is checked, and goes on when its CRC is its TAG (for pages of objects here); a page's triples
return; merging goes on page by page, and after the last page the command is performed and its walk is over; holds lapse.  How often a paused walk looks again is the model's choice (log entry 39). -/
def Obligations.AttentionWalksGoOn : Prop :=
  ∀ (s : State),
  (∀ k o y, s.msg = some (.peaWalkStart k o) → s.op k o = some y → y.phase = 2 → s.clsEarlier k o 4 = false →
    s.eng.walks.find? (fun w => w.2.g == k && w.2.op == o) = none →
    ((s.eng.walks.filter (fun w => dieOf (coreOf w.2.g) == dieOf (coreOf k))).length < 256 →
      ∃ t x, exec .peaWalkStart s = .next t ∧ t.walkOf s.eng.nextWalk = some x ∧ x.g = k ∧ x.op = o ∧ x.merged = 0
        ∧ .headerReturn s.eng.nextWalk 0 ∈ t.pending ∧ t.gangs = s.gangs ∧ t.mem = s.mem)
    ∧ (256 ≤ (s.eng.walks.filter (fun w => dieOf (coreOf w.2.g) == dieOf (coreOf k))).length →
      ∃ t, exec .peaWalkStart s = .next t ∧ (k, o) ∈ t.eng.walkQ ∧ t.eng.walks = s.eng.walks ∧ t.gangs = s.gangs ∧ t.mem = s.mem))
  ∧ (∀ w p x q y, s.isQuiet = true → s.walkOf w = some x → x.page p = some q → s.op x.g x.op = some y → p < x.idx → x.apref = false →
    (s.msg = some (.headerReturn w p) → q.st = 0 →
      let r := (s.engX x.g y.fetched).readBytes 0 128 (q.ptr / 128 * 128) 0
      r.1.again = false → r.1.needs = [] → r.1.bad = none → r.2.2 = none →
      (pageBad q.ptr r.2.1 = true → y.code = 0 → ∃ t z, exec .headerReturn s = .next t ∧ t.walkOf w = none
        ∧ t.op x.g x.op = some z ∧ z.phase = 3 ∧ z.code = 3 ∧ .engineCompletion x.g x.op ∈ t.pending)
      ∧ (pageBad q.ptr r.2.1 = false → hdrAbsent r.2.1 = false → ∃ t z, exec .headerReturn s = .next t ∧ t.walkOf w = some z
        ∧ z.next = hdrSucc r.2.1
        ∧ (hdrDemoted r.2.1 = true → z.page p = some { q with hdr := r.2.1, st := 2 } ∧ .promotionCheck w p ∈ t.pending)
        ∧ (hdrDemoted r.2.1 = false → r.1.st.objHere (q.ptr / 2 ^ 36) = true → r.1.st.holdPage q.ptr ≠ none →
          z.page p = some { q with hdr := r.2.1, st := 1 } ∧ .attnItem w p ∈ t.pending)
        ∧ (hdrDemoted r.2.1 = false → r.1.st.objHere (q.ptr / 2 ^ 36) = true → r.1.st.holdPage q.ptr = none →
          z.page p = some { q with hdr := r.2.1, st := 6 } ∧ (s.cycle + 64, .headerReturn w p) ∈ t.timers)))
    ∧ (s.msg = some (.promotionCheck w p) → q.st = 2 → Config.ddrSize ≠ 0 →
      let r := (s.engX x.g y.fetched).readBytes 0 16384 q.ptr 128
      r.1.again = false → r.1.needs = [] → r.1.bad = none → r.2.2 = none → crc64 (byteList 16384 r.2.1) = hdrTag q.hdr →
      r.1.st.objHere (q.ptr / 2 ^ 36) = true → r.1.st.holdPage q.ptr ≠ none → ∃ t z, exec .promotionCheck s = .next t ∧ t.walkOf w = some z
        ∧ z.page p = some { q with st := 1 } ∧ .attnItem w p ∈ t.pending)
    ∧ (s.msg = some (.attnItem w p) → q.st = 1 → p < x.merged + 64 →
      let r := (s.engX x.g y.fetched).readBytes 0 16384 q.ptr 128
      let rows := (List.range x.run.length).map (fun n => r.1.st.crowRead x.g (y.desc.getD 2 0 + n) 64)
      r.1.again = false → r.1.needs = [] → r.1.bad = none → r.2.2 = none → rows.any (·.2) = false →
      let ts := rows.map (fun r' => pageTriple (queryRow r'.1) (hdrNval q.hdr) (hdrBpos q.hdr) (y.desc.getD 6 0) (y.desc.getD 5 0) r.2.1)
      ∃ t z, exec .attnItem s = .next t ∧ t.walkOf w = some z ∧ z.page p = some { q with st := 5 }
        ∧ .tripleReturn w p (ts.map (fun t => t.1.map Triple.words)) (orAll (ts.map (·.2))) ∈ t.pending))
  ∧ (∀ w p ts fl x y, s.msg = some (.tripleReturn w p ts fl) → s.walkOf w = some x → s.op x.g x.op = some y →
    let x' := PeaWalk.mergeOn { x with window := x.window ++ [(p, ts)], flags := x.flags ||| fl } 65
    (x'.ended = true → x'.merged = x'.idx → ∃ t z, exec .tripleReturn s = .next t ∧ t.walkOf w = none
      ∧ t.op x.g x.op = some z ∧ z.phase = 3 ∧ z.code = y.code ∧ z.flags = y.flags ||| x'.flags
      ∧ .engineCompletion x.g x.op ∈ t.pending ∧ t.mem = s.mem)
    ∧ (x'.ended = false ∨ x'.merged ≠ x'.idx → ∃ t z, exec .tripleReturn s = .next t ∧ t.walkOf w = some z ∧ z.run = x'.run
      ∧ z.merged = x'.merged ∧ t.gangs = s.gangs ∧ t.mem = s.mem))
  ∧ (∀ k head, s.msg = some (.holdLapse k head) → ∃ t, exec .holdLapse s = .next t
    ∧ (∀ h ∈ t.eng.holds, ¬ (h.1 = k ∧ h.2.1 = head ∧ h.2.2.1 ≠ 0 ∧ h.2.2.1 ≤ s.cycle))
    ∧ (∀ h ∈ s.eng.holds, ¬ (h.1 = k ∧ h.2.1 = head ∧ h.2.2.1 ≠ 0 ∧ h.2.2.1 ≤ s.cycle) → h ∈ t.eng.holds)
    ∧ t.gangs = s.gangs ∧ t.mem = s.mem)

/-- R417, R418: REGEN_SEAL of a regeneration whose launch has ended, whose cores are clean and whose page can be read ends it and
gives the page, once held, to the walk that waits; while a core holds dirty bytes of the object it looks again; one whose page cannot
be read fails, and so does one that has run for REGTO at REGEN_TIMEOUT: it ends with every walk of an ATTN that joined it.  That the
seal is tried again until the cores are clean is the model's reading (log entry 38).
R396 to R399: a contribution of a member is held in its instance with the member's rank, and a resend of one that is held is
dropped; the one after which every live member's is
held forms the result, kept in the window; one of an instance whose result is formed is answered and changes no instance, one that
cannot be a contribution likewise; writing the table of a communicator sets its members and empties its window and its instances.  The ends of an instance that lost a member are the model's reading (log entry 44). -/
def Obligations.RegenerationsAndContributions : Prop :=
  (∀ (s : State) (ptr : Nat) (r : Regen), s.eng.regens.find? (fun r => r.ptr == ptr) = some r →
  (s.msg = some (.regenSeal ptr) → s.isQuiet = true →
    (r.ended = false → exec .regenSeal s = .next s)
    ∧ (r.ended = true → s.dirtyCores (ptr / 2 ^ 36) ≠ [] →
      ∃ t, exec .regenSeal s = .next t ∧ (s.cycle + 64, .regenSeal ptr) ∈ t.timers ∧ t.eng.regens = s.eng.regens)
    ∧ (∀ ls, r.ended = true → s.dirtyCores (ptr / 2 ^ 36) = [] → s.sealLines r.fetched ptr = some (.ok ls) →
      ∃ t, exec .regenSeal s = .next t ∧ (∀ r' ∈ t.eng.regens, r'.ptr ≠ ptr)
        ∧ ∀ w ws x q, r.joined = w :: ws → s.walkOf w = some x → x.apref = false →
          x.pages.find? (fun q => q.ptr == ptr && q.st == 3) = some q →
          (let s1 := s.sealPage ptr ls
           let s2 := ({ s1 with eng := { s1.eng with regens := s1.eng.regens.filter (fun q => q.ptr != ptr) } } : State).unfetch x ptr
           s2.objHere (ptr / 2 ^ 36) = true ∧ s2.holdPage ptr ≠ none) → .attnItem w q.p ∈ t.pending)
    ∧ (r.ended = true → s.dirtyCores (ptr / 2 ^ 36) = [] → s.sealLines r.fetched ptr = some (.error ()) →
      ∃ t, exec .regenSeal s = .next t ∧ (∀ r' ∈ t.eng.regens, r'.ptr ≠ ptr)
        ∧ ∀ w ∈ r.joined, (∀ x, s.walkOf w = some x → x.apref = false) → t.walkOf w = none))
  ∧ (s.msg = some (.regenTimeout ptr) →
    (r.enq = true → r.ended = false → r.start + s.dcb.regto ≤ s.cycle →
      ∃ t, exec .regenTimeout s = .next t ∧ (∀ r' ∈ t.eng.regens, r'.ptr ≠ ptr)
        ∧ ∀ w ∈ r.joined, (∀ x, s.walkOf w = some x → x.apref = false) → t.walkOf w = none)
    ∧ (r.ended = true → exec .regenTimeout s = .next s)))
  ∧ (∀ (s : State) (cid : Nat),
  (∀ seq op fmt v dev, ∀ fseq, s.msg = some (.collectiveContribution cid seq op fmt v dev fseq) →
    let members := (s.fab.colTab.get cid).getD []
    let done := s.fab.colDone.find? (fun d => d.cid == cid && d.seq == seq)
    let old := s.fab.colOpen.find? (fun c => c.cid == cid && c.seq == seq)
    let c := old.getD ⟨cid, seq, op, fmt, false, []⟩
    let c' : Coll := { c with got := c.got ++ [(members.idxOf dev, dev, collVal fmt v, fseq)], bad := c.bad || c.op != op || c.fmt != fmt }
    (dev ∈ members → op < 3 → fmt < 6 → done = none →
      old ≠ none ∨ (s.fab.colOpen.filter (fun c => s.sameUnit cid seq c.cid c.seq)).length < 64 → (∀ g ∈ c.got, g.2.1 ≠ dev) →
      ((∃ d ∈ members, d ∉ s.fab.dead ∧ ∀ g ∈ c'.got, g.2.1 ≠ d) → ∃ t, exec .collectiveContribution s = .next t
        ∧ c' ∈ t.fab.colOpen ∧ t.fab.colDone = s.fab.colDone ∧ t.gangs = s.gangs ∧ t.mem = s.mem)
      ∧ ((∀ d ∈ members, d ∉ s.fab.dead → ∃ g ∈ c'.got, g.2.1 = d) → ∃ t, exec .collectiveContribution s = .next t
        ∧ (⟨cid, seq, c'.fold, if c'.bad = true then 12 else if members.all (fun d => c'.got.any (fun g => g.2.1 == d)) then 0 else 11,
            c'.got.length⟩ : CollDone) ∈ t.fab.colDone
        ∧ (∀ x ∈ t.fab.colOpen, x.cid = cid → x.seq ≠ seq) ∧ t.mem = s.mem))
    ∧ ((∃ g ∈ c.got, g.2.1 = dev ∧ g.2.2.2 = fseq) ∨ dev ∉ members ∨ 3 ≤ op ∨ 6 ≤ fmt ∨ done ≠ none → ∃ t, exec .collectiveContribution s = .next t
      ∧ t.fab.colOpen = s.fab.colOpen ∧ t.fab.colDone = s.fab.colDone ∧ t.mem = s.mem))
  ∧ (∀ members, s.msg = some (.collectiveTableWrite cid members) → ∃ t, exec .collectiveTableWrite s = .next t
    ∧ t.fab.colTab.get cid = some members ∧ (∀ d ∈ t.fab.colDone, d.cid ≠ cid) ∧ (∀ c ∈ t.fab.colOpen, c.cid ≠ cid) ∧ t.mem = s.mem))

/-! ### Objects between devices (R49 to R82, R133 to R143) -/

/-- R72 to R77, R80, R50, R63: the steps of a move.  CHUNK_SEND sends the next chunk as an MCPY with each line's data; at the end of
a pass with few dirty chunks, or of the eighth, every member of the party enters FREEZE with them, else every member begins the next
pass, and nothing happens while a member still sends; MALA of 0 begins COPY with every chunk to send, another ends the party; MCPA
lowers the answers awaited; REGACK commits the party once every member's registry has answered; for an OFRE that waited for it, the
devices that may hold copies are told to drop them, or it ends where none may.  At the other devices MALC, MCPY and REGUPD are answered, requests held for an INBOUND object go on at MACT and are answered OABS at
MREL; a stub the registry knows and nobody used is collected.  Derived: a group counts as one move, and a stub's collector returns when
it can have been unused, as the model chooses (log entry 41). -/
def Obligations.ObjectMovesProceed : Prop :=
  ∀ (s : State) (ident : Nat), s.isQuiet = true →
  (∀ m, PartyOk s m → m.ident = ident →
    (∀ c rest, s.msg = some (.chunkSend ident) → m.phase = 1 ∨ m.phase = 2 → m.todo = c :: rest →
      (s.chunkInflight ident c = false → ∃ t m' args, exec .chunkSend s = .next t
        ∧ t.mig ident = some m' ∧ m'.todo = rest ∧ m'.acks = m.acks + 1 ∧ c ∈ m'.sent ∧ c ∉ m'.dirty
        ∧ (s.PortsUp → t.Posted m.dest .mcpy args) ∧ args.take 3 = [ident, c, s.devNum]
        ∧ (∀ j, j < 32 → args.getD (3 + j) 0 = (s.lineNow (s.objLineOf ident (4096 * c + 128 * j))).1) ∧ t.gangs = s.gangs)
      ∧ (s.chunkInflight ident c = true → exec .chunkSend s = .next (s.after 16 (.chunkSend ident))))
    ∧ (s.msg = some (.copyPassEnd ident) → m.phase = 1 →
      let all := (s.party m).foldl (fun a x => a + x.dirty.length) 0
      ((∃ x ∈ s.party m, x.phase ≠ 1 ∨ x.todo ≠ []) → exec .copyPassEnd s = .next s)
      ∧ ((∀ x ∈ s.party m, x.phase = 1 ∧ x.todo = []) → 0 < all → all ≤ 256 ∨ 8 ≤ m.pass → ∃ t, exec .copyPassEnd s = .next t
        ∧ ∀ x ∈ s.party m, ∃ x', t.mig x.ident = some x' ∧ x'.phase = 2 ∧ x'.todo = List.insertionSort (· ≤ ·) x.dirty
          ∧ (x.dirty ≠ [] → .chunkSend x.ident ∈ t.pending))
      ∧ ((∀ x ∈ s.party m, x.phase = 1 ∧ x.todo = []) → 256 < all → m.pass < 8 → ∃ t, exec .copyPassEnd s = .next t
        ∧ ∀ x ∈ s.party m, ∃ x', t.mig x.ident = some x' ∧ x'.phase = 1 ∧ x'.pass = x.pass + 1
          ∧ x'.todo = List.insertionSort (· ≤ ·) x.dirty))
    ∧ (∀ e, s.msg = some (.mala ident 0) → m.phase = 0 → s.oteFind ident = some e → ∃ t m', exec .mala s = .next t
      ∧ t.mig ident = some m' ∧ m'.phase = 1 ∧ m'.pass = m.pass + 1 ∧ m'.todo = List.range ((oteSize e.2 + 4095) / 4096))
    ∧ (∀ n, s.msg = some (.mala ident n) → n ≠ 0 → m.phase = 0 → ∃ t, exec .mala s = .next t ∧ ∀ x ∈ s.party m, t.mig x.ident = none)
    ∧ (∀ n, s.msg = some (.mala ident n) → m.phase ≠ 0 → ∃ t, exec .mala s = .next t ∧ t.fab.migs = s.fab.migs ∧ t.gangs = s.gangs)
    ∧ (∀ c, s.msg = some (.mcpa ident c) → m.phase ≠ 2 ∨ m.todo ≠ [] ∨ m.dirty ≠ [] ∨ 1 < m.acks ∨ m.psis ≠ 0 → ∃ t, exec .mcpa s = .next t
      ∧ t.mig ident = some { m with acks := m.acks - 1 } ∧ t.gangs = s.gangs)
    ∧ (s.msg = some (.regack ident) → m.phase = 3 → s.fab.frees.get ident = none →
      ((∀ x ∈ s.party m, x ≠ m → x.phase = 3 ∧ x.ack ≠ 0) → ∃ t, exec .regack s = .next t ∧ ∀ x ∈ s.party m, t.mig x.ident = none)
      ∧ ((∃ x ∈ s.party m, x ≠ m ∧ (x.phase ≠ 3 ∨ x.ack = 0)) → ∃ t, exec .regack s = .next t ∧ t.mig ident = some { m with ack := 1 }
        ∧ t.gangs = s.gangs)))
  ∧ (∀ w, s.msg = some (.regack ident) → s.fab.frees.get ident = some w → ∃ t, exec .regack s = .next t
    ∧ (w.reg = false → t.fab.frees.get ident = some w)
    ∧ (w.reg = true → s.freeDevs ident = [] → t.fab.frees.get ident = none)
    ∧ (w.reg = true → s.freeDevs ident ≠ [] →
      t.fab.frees.get ident = some { w with reg := false, left := s.freeDevs ident }
      ∧ (s.PortsUp → ∀ d ∈ s.freeDevs ident, t.Sent d .pinv [freeName ident])))
  ∧ (∀ src seq s1, s.devSet = true →
    (∀ size fl colid key, s.msg = some (.malc ident size fl colid key src seq) →
      (s.notePlane src seq (ident * 2 ^ 29)).accept src seq = (s1, true) → let code := (s1.takeMalc ident size fl colid key).2
      ∃ t, exec .malc s = .next t ∧ (s.PortsUp → t.Given src (.mala ident code) [ident, code])
        ∧ (code = 0 → t.fab.inbound.get ident = some []))
    ∧ (∀ c data stamps poison, s.msg = some (.mcpy ident c src seq data stamps poison) →
      let n := s.notePlane src seq (ident * 2 ^ 29 + 32 * c)
      n.accept src seq = (s1, true) →
      (s.chunkHeld ident = false → ∃ t, exec .mcpy s = .next t ∧ (s.PortsUp → t.Given src (.mcpa ident c) [ident, c]))
      ∧ (s.chunkHeld ident = true → exec .mcpy s = .next (n.after 16 (.mcpy ident c src seq data stamps poison))))
    ∧ (∀ owner mgen, s.msg = some (.regupd ident owner mgen src seq) →
      (s.notePlane src seq (ident * 2 ^ 29)).accept src seq = (s1, true) →
      (∀ i e, s1.regFind ident = some (i, e) → exec .regupd s
        = .next ((s1.putEnt s1.dcb.rgb 32 i (if owner = 255 then regEntry ident (byteField e 8 1) ((byteField e 9 1 + 1) % 256) 2 s1.cycle
            else regEntry ident owner mgen (byteField e 10 1) (byteField e 12 8))).reply src seq (.regack ident) [ident]))
      ∧ (s1.regFind ident = none → exec .regupd s = .next (s1.reply src seq (.regack ident) [ident])))
    ∧ (∀ mgen fl e, s.msg = some (.mact ident mgen fl src seq) → s.accept src seq = (s1, true) → s1.oteFind ident = some e → otePhase e.2 = 4 → ∃ t,
      exec .mact s = .next t ∧ t.fab.inbound.get ident = none
        ∧ ∀ r ∈ (s1.fab.inbound.get ident).getD [], .ofwd { r with taken := true } ∈ t.pending)
    ∧ (∀ e, s.msg = some (.mrel ident src seq) → s.accept src seq = (s1, true) → s1.oteFind ident = some e → otePhase e.2 = 4 →
      ∃ t, exec .mrel s = .next t ∧ t.fab.inbound.get ident = none
      ∧ (s.PortsUp → ∀ r ∈ (s1.fab.inbound.get ident).getD [], t.Given r.src (.oabs r.tag) [r.tag])))
  ∧ (∀ src seq s1, s.devSet = true →
    (∀ size fl colid key, s.msg = some (.malc ident size fl colid key src seq) →
      (s.notePlane src seq (ident * 2 ^ 29)).accept src seq = (s1, false) → exec .malc s = .next (s1.replay src seq))
    ∧ (∀ c data stamps poison, s.msg = some (.mcpy ident c src seq data stamps poison) →
      (s.notePlane src seq (ident * 2 ^ 29 + 32 * c)).accept src seq = (s1, false) → exec .mcpy s = .next (s1.replay src seq))
    ∧ (∀ owner mgen, s.msg = some (.regupd ident owner mgen src seq) →
      (s.notePlane src seq (ident * 2 ^ 29)).accept src seq = (s1, false) → exec .regupd s = .next (s1.replay src seq))
    ∧ (∀ mgen fl, s.msg = some (.mact ident mgen fl src seq) → s.accept src seq = (s1, false) → exec .mact s = .next s1)
    ∧ (s.msg = some (.mrel ident src seq) → s.accept src seq = (s1, false) → exec .mrel s = .next s1))
  ∧ (∀ i, s.msg = some (.stubCollect i) → let e := s.entAt s.dcb.stb 32 i; let fl := byteField e 10 1
    (10 ≤ tabK s.dcb.stb → i < 2 ^ tabK s.dcb.stb → bit fl 0 = true → bit fl 1 = true → s.dcb.stci ≠ 0 →
      (s.dcb.stci ≤ s.cycle - byteField e 16 8 → exec .stubCollect s = .next (s.putEnt s.dcb.stb 32 i (linePut e 10 1 (andNot fl 1))))
      ∧ (s.cycle - byteField e 16 8 < s.dcb.stci → ∃ t, exec .stubCollect s = .next t ∧ (∃ q ∈ t.timers, q.2 = .stubCollect i)
        ∧ t.mem = s.mem ∧ t.gangs = s.gangs))
    ∧ (bit fl 0 = false ∨ bit fl 1 = false ∨ s.dcb.stci = 0 → exec .stubCollect s = .next s))

/-- R54, R56 to R60: a read of a resident object returns the line by an ORSP of code 0; a request for an object that is neither here
nor left a stub is answered OABS; ORSP gives its CODE to the object instruction that waits for it; OABS and OCON make their request ask
the registry, or drop a prefetch; REGQ is answered from the registry's entry; REGA sends the request to the owner, holds it behind an
earlier one of its line, or ends it; OLUPD teaches the locator of a device that has a number.  Derived: the order of requests of one
line, and what the detail of an unanswered one holds, are the model's (log entry 22). -/
def Obligations.ObjectRequestsAnswered : Prop :=
  ∀ (s : State),
  (∀ p ∈ [(Instr.oreq, Msg.oreq), (.ofwd, .ofwd)], ∀ r s1, s.msg = some (p.2 r) → s.isQuiet = true →
    s.devSet = true ∨ r.via = s.devNum → s.behind r = false → r.taken = false →
    (s.notePlane r.via r.seq r.name).accept r.via r.seq = (s1, true) →
    (∀ i e, r.op = .read → s1.oteFind r.ident = some (i, e) → otePhase e = 0 ∨ otePhase e = 1 →
      let s2 := (s1.countReq r.ident r.off r.src).1.otcFill r.ident r.off
      let l := s2.objLineOf r.ident r.off
      s2.ownerChk r.ident r.off = none → s2.coh.retiring ≠ some l.key → r.src = s.devNum ∨ s2.dirFull l 8 = false →
      ∃ t q, exec p.1 s = .next t
        ∧ (r.src = s.devNum → .orsp q ∈ t.pending)
        ∧ (r.src ≠ s.devNum → s1.planeIn r.via r.seq r.name = s1.planeFor r.name → .orspAtSwitch r.name q r.src false ∈ t.pending)
        ∧ q.tag = r.tag ∧ q.code = 0 ∧ (q.data, q.poison) = (s2.chkReceipt l (s2.lineNow l)).2)
    ∧ (s1.oteFind r.ident = none → s1.stubFind r.ident = none → s.PortsUp → ∃ t, exec p.1 s = .next t
      ∧ t.Given r.src (.oabs r.tag) [r.tag]))
  ∧ (∀ ident dev mgen, s.msg = some (.olupd ident dev mgen) → s.devSet = true → ∃ t, exec .olupd s = .next t ∧ t.gangs = s.gangs ∧ t.mem = s.mem
    ∧ t.locGet ident = some (match s.locGet ident with
      | some old => if newerGen mgen old.mgen then ⟨ident, dev, mgen, false, false⟩ else old
      | none => ⟨ident, dev, mgen, false, false⟩))
  ∧ (∀ p w k o x, s.msg = some (.orsp p) → s.fab.reqs.get p.tag = some w → w.cont = .blocking k o → s.op k o = some x → x.need = [] →
    w.req.op.reads = false → p.code ≠ 0x13 → p.code ≠ 256 →
    ∃ t z, exec .orsp s = .next t ∧ t.op k o = some z ∧ z.phase = 4 ∧ .blockingAnswer k o ∈ t.pending
      ∧ z.code = if p.code = 0 then 0 else if p.code = 257 then 11 else if 512 ≤ p.code then p.code - 512 else 1)
  ∧ (∀ p, s.msg = some (.orsp p) → s.fab.reqs.get p.tag = none → exec .orsp s = .next s)
  ∧ (∀ p ∈ [(Instr.oabs, Msg.oabs), (.ocon, .ocon)], ∀ tag, s.msg = some (p.2 tag) →
    (s.fab.reqs.get tag = none → exec p.1 s = .next s)
    ∧ (∀ w, s.fab.reqs.get tag = some w → (w.stage ≠ 0 → exec p.1 s = .next s)
      ∧ (w.stage = 0 → w.orders = true → w.tries ≠ 3 → ∃ t w', exec p.1 s = .next t ∧ t.fab.reqs.get tag = some w'
        ∧ w'.tries = w.tries + 1 ∧ w'.stage = 1)
      ∧ (w.stage = 0 → w.orders = false → ∃ t, exec p.1 s = .next t ∧ t.fab.reqs.get tag = none)))
  ∧ (∀ ident src tag seq, s.msg = some (.regq ident src tag seq) → s.devSet = true ∨ src = s.devNum → s.PortsUp →
    (∀ i e, (s.accept src seq).1.regFind ident = some (i, e) → ∃ t, exec .regq s = .next t
      ∧ t.Given src (.rega ident (byteField e 8 1) (byteField e 9 1) (regState e) tag)
          [ident, byteField e 8 1, byteField e 9 1, regState e, tag] ∧ t.gangs = s.gangs ∧ t.mem = s.mem)
    ∧ ((s.accept src seq).1.regFind ident = none → ∃ t, exec .regq s = .next t
      ∧ t.Given src (.rega ident 0 0 0 tag) [ident, 0, 0, 0, tag] ∧ t.gangs = s.gangs ∧ t.mem = s.mem))
  ∧ (∀ ident owner mgen st tag w, s.msg = some (.rega ident owner mgen st tag) → s.fab.reqs.get tag = some w →
    (w.stage ≠ 1 ∨ w.req.ident ≠ ident → exec .rega s = .next s)
    ∧ (w.stage = 1 → w.req.ident = ident →
      (st = 1 → s.failed owner = false → ∃ t w', exec .rega s = .next t ∧ t.fab.reqs.get tag = some w' ∧ w'.tgt = owner
        ∧ w'.stage = (if s.heldBack tag w owner then 2 else 0)
        ∧ (s.heldBack tag w owner = false → owner = s.devNum → .oreq { w.req with hops := 0, via := s.devNum } ∈ t.pending))
      ∧ (∀ k o x, st = 0 ∨ st = 2 ∨ (st = 1 ∧ s.failed owner = true) → w.cont = .blocking k o → s.op k o = some x → x.need = [] →
        ∃ t z, exec .rega s = .next t ∧ t.op k o = some z ∧ z.phase = 4 ∧ z.code = (if st = 1 then 11 else 1)
          ∧ .blockingAnswer k o ∈ t.pending)))

/-- R134 to R136: the pod directory at the switch.  A line serves one request at a time: a request of a line with no entry, or of one
that has no copy to give, becomes current and leaves for its target; a read of a line that has a memory-side copy is answered from it
and its device becomes a sharer; a write of a shared line invalidates every sharer first; a request of a busy line waits; a request for
a full set waits while an entry is evicted.  An answer to a read makes its device a sharer, one to a write frees the line and lets the
waiting requests go on; PINV takes the copies of a remote line away, or, for a freed object, every line of it (R395); PIACK counts;
PSI and PSIA clear PS. -/
def Obligations.PodDirectoryWorks : Prop :=
  ∀ (s : State),
  (∀ r dev, s.msg = some (.podDirOreq r dev) →
    let line := match r.op with | .read => true | .prefetch => true | .write _ _ _ => true | .atomic _ => true | _ => false
    let goes (t : State) : Prop := (dev = s.devNum → .oreq r ∈ t.pending) ∧ (dev ≠ s.devNum → t.Sent dev .oreq (r.fields r.hops))
    (line = false → ∃ t, exec .podDirOreq s = .next t ∧ goes t ∧ t.fab.pod = s.fab.pod)
    ∧ (line = true → s.podOf r.name = none →
      ((s.podPeers r.name).length < 16 → ∃ t e, exec .podDirOreq s = .next t ∧ t.podOf r.name = some e ∧ e.cur = some (r, dev)
        ∧ e.shr = [] ∧ e.msc = none ∧ goes t)
      ∧ (16 ≤ (s.podPeers r.name).length → ∃ t, exec .podDirOreq s = .next t ∧ (s.cycle + 16, .podDirOreq r dev) ∈ t.timers))
    ∧ (∀ e, line = true → s.podOf r.name = some e → e.busyWith r.src r.tag = false →
      (e.cur ≠ none ∨ e.psi ≠ none → (∀ q ∈ e.wait, q.1.src = r.src → q.1.tag ≠ r.tag) → ∃ t, exec .podDirOreq s = .next t
        ∧ t.podOf r.name = some { e with wait := e.wait ++ [(r, dev)] } ∧ t.pending = s.pending ∧ t.fab.outbox = s.fab.outbox)
      ∧ (e.cur = none → e.psi = none → r.op.reads = true → (∀ d, e.msc = some d → ∃ t z q, exec .podDirOreq s = .next t
          ∧ t.podOf r.name = some z ∧ r.src ∈ z.shr ∧ z.cur = none ∧ q.tag = r.tag ∧ q.code = 0 ∧ q.data = d ∧ q.owner = e.owner
          ∧ t.Given r.src (.orsp q) (rspArgs q))
        ∧ (e.msc = none → ∃ t, exec .podDirOreq s = .next t ∧ t.podOf r.name = some { e with cur := some (r, dev) } ∧ goes t))
      ∧ (e.cur = none → e.psi = none → r.op.reads = false →
        (e.shr = [] → ∃ t, exec .podDirOreq s = .next t ∧ t.podOf r.name = some { e with msc := none, cur := some (r, dev) } ∧ goes t)
        ∧ (e.shr ≠ [] → ∃ t, exec .podDirOreq s = .next t
          ∧ t.podOf r.name = some { e with msc := none, cur := some (r, dev), left := e.shr.length }
          ∧ ∀ d ∈ e.shr, t.Given d (.pinv r.name) [r.name]))))
  ∧ (∀ name p dev w, s.msg = some (.orspAtSwitch name p dev w) →
    (w = false → p.code = 0 → p.poison = false → s.fab.epochWait = false →
      let e := (s.podOf name).getD ⟨name, p.owner, p.mgen, [], none, none, none, 0, []⟩
      e.busyWith dev p.tag = true ∨ e.cur = none → e.psi = none → s.podOf name ≠ none ∨ (s.podPeers name).length < 16 →
      p.owner ≠ s.devNum ∨ s.dirFull (s.objLineOf (name / 2 ^ 29) (name % 2 ^ 29 * 128)) 8 = false →
      ∃ t z, exec .orspAtSwitch s = .next t ∧ t.podOf name = some z ∧ dev ∈ z.shr ∧ (∀ d ∈ e.shr, d ∈ z.shr) ∧ z.msc = some p.data
        ∧ z.owner = p.owner ∧ z.cur = none ∧ (∀ q ∈ e.wait, .podDirOreq q.1 q.2 ∈ t.pending) ∧ t.Given dev (.orsp p) (rspArgs p))
    ∧ (∀ e, w = true → s.podOf name = some e → e.busyWith dev p.tag = true → ∃ t, exec .orspAtSwitch s = .next t
      ∧ t.podOf name = (if e.shr = [] then none else some { e with cur := none, psi := none, wait := [] })
      ∧ (∀ q ∈ e.wait, .podDirOreq q.1 q.2 ∈ t.pending) ∧ t.Given dev (.orsp p) (rspArgs p)))
  ∧ (∀ name, s.msg = some (.pinv name) → s.devSet = true → ∃ t, exec .pinv s = .next t ∧ .piack name s.devNum ∈ t.pending
    ∧ t.gangs = s.gangs
    ∧ (freeIdent name = none → ∀ x ∈ t.coh.lines, ¬ (x.line.obj = true ∧ x.line.name = name ∧ x.line.key = 0x3FF))
    ∧ (∀ ident, freeIdent name = some ident → (∀ x ∈ t.coh.lines, ¬ (x.line.obj = true ∧ x.line.ident = ident))
      ∧ ∀ c ∈ t.cores, ∀ x ∈ c.2.l1, ¬ (x.line.obj = true ∧ x.line.ident = ident)))
  ∧ (∀ name dev ident w, s.msg = some (.piack name dev) → freeIdent name = some ident → s.fab.frees.get ident = some w →
    (w.reg = true ∨ dev ∉ w.left → exec .piack s = .next s)
    ∧ (w.reg = false → dev ∈ w.left → (w.left.filter (· != dev)) ≠ [] → ∃ t, exec .piack s = .next t
      ∧ t.fab.frees.get ident = some { w with left := w.left.filter (· != dev) } ∧ t.pending = s.pending)
    ∧ (w.reg = false → dev ∈ w.left → (w.left.filter (· != dev)) = [] → ∃ t, exec .piack s = .next t
      ∧ t.fab.frees.get ident = none ∧ ∀ r ∈ w.more, .ofwd { r with taken := true } ∈ t.pending))
  ∧ (∀ name dev e, s.msg = some (.piack name dev) → freeIdent name = none → s.podOf name = some e →
    (e.left = 0 ∨ dev ∉ e.shr → exec .piack s = .next s)
    ∧ (dev ∈ e.shr → 2 ≤ e.left → ∃ t, exec .piack s = .next t
      ∧ t.podOf name = some { e with left := e.left - 1, shr := e.shr.filter (· != dev) } ∧ t.pending = s.pending)
    ∧ (∀ r d, dev ∈ e.shr → e.left = 1 → e.psi = none → e.cur = some (r, d) → ∃ t, exec .piack s = .next t
      ∧ (d = s.devNum → .oreq r ∈ t.pending) ∧ (d ≠ s.devNum → t.Sent d .oreq (r.fields r.hops)))
    ∧ (∀ o, dev ∈ e.shr → e.left = 1 → e.psi = some o → o ≠ 255 → e.cur = none → ∃ t, exec .piack s = .next t
      ∧ t.podOf name = none ∧ t.Given o (.psia name) [name])
    ∧ (dev ∈ e.shr → e.left = 1 → e.psi = some 255 → e.cur = none → ∃ t, exec .piack s = .next t
      ∧ t.podOf name = none ∧ t.Given e.owner (.psclr name) [name]))
  ∧ (∀ name dev, s.msg = some (.psi name dev) → dev ≠ s.devNum ∨ s.portUp (s.planeFor name) = true →
    (s.podOf name = none → ∃ t, exec .psi s = .next t ∧ t.Given dev (.psia name) [name] ∧ t.fab.pod = s.fab.pod)
    ∧ (∀ e, s.podOf name = some e →
      (e.psi ≠ none ∨ e.left ≠ 0 → exec .psi s = .next (s.after 16 (.psi name dev)))
      ∧ (e.psi = none → e.left = 0 → e.shr ≠ [] → ∃ t, exec .psi s = .next t
        ∧ t.podOf name = some { e with psi := some dev, msc := none, left := e.shr.length }
        ∧ ∀ d ∈ e.shr, t.Given d (.pinv name) [name])))
  ∧ (∀ name, let l := s.objLineOf (name / 2 ^ 29) (name % 2 ^ 29 * 128)
    (s.msg = some (.psia name) → s.txn l = none → s.mig (name / 2 ^ 29) = none → ∃ t, exec .psia s = .next t ∧ (t.dirOf l).ps = false
      ∧ t.gangs = s.gangs)
    ∧ (s.msg = some (.psclr name) → ∃ t, exec .psclr s = .next t ∧ (t.dirOf l).ps = false ∧ t.gangs = s.gangs))

/-- R139, R141 to R143, R176, R467: an unanswered message is sent again with its sequence number; a device unanswered for PTO cycles is
marked failed, and what it owed is awaited no more; a packet too old is dropped; a new pod map is adopted, moved remote lines go, and
no remote line is filled until its epoch is announced (R143 step 2); ports go down and up in FPST, sixteen failed retries take one down. -/
def Obligations.LinksAndPodMap : Prop :=
  ∀ (s : State),
  (∀ dev seq, s.msg = some (.frtoExpiry dev seq) →
    ((s.peerOut dev).unacked.find? (fun u => u.1 == seq) = none → exec .frtoExpiry s = .next s)
    ∧ (∀ u, (s.peerOut dev).unacked.find? (fun u => u.1 == seq) = some u →
      ∃ t, exec .frtoExpiry s = .next t ∧ (s.cycle + s.dcb.frto, .frtoExpiry dev seq) ∈ t.timers ∧ t.gangs = s.gangs
        ∧ (s.PortsUp → u.2.2.kind ≠ .oreq → u.2.2.kind ≠ .collectiveContribution → ∃ o ∈ t.fab.outbox, o.tgt = u.2.2.tgt ∧ o.kind = u.2.2.kind ∧ o.args = u.2.2.args ∧ o.seq = u.2.2.seq)
        ∧ (∀ cid q op fmt v d, s.PortsUp → u.2.2.kind = .collectiveContribution → u.2.2.args = [cid, q, op, fmt, v, d] →
          .collectiveContribution cid q op fmt v d seq ∈ t.pending)
        ∧ (∀ w, s.PortsUp → u.2.2.kind = .oreq → s.fab.reqs.get (u.2.2.args.getD 2 0) = some w →
          .podDirOreq { w.req with via := s.devNum, seq := seq } dev ∈ t.pending)))
  ∧ (∀ dev, s.msg = some (.peerTimeout dev) → let owed := ((s.fab.peersOut.get dev).map (·.unacked)).getD []
    (owed = [] → exec .peerTimeout s = .next s)
    ∧ (owed ≠ [] → owed.all (fun u => decide (s.cycle < u.2.1 + s.dcb.pto)) = true → ∃ t, exec .peerTimeout s = .next t
      ∧ t.fab = s.fab ∧ t.gangs = s.gangs ∧ ∃ q ∈ t.timers, q.2 = .peerTimeout dev ∧ ∀ u ∈ owed, q.1 ≤ u.2.1 + s.dcb.pto)
    ∧ (owed.any (fun u => decide (u.2.1 + s.dcb.pto ≤ s.cycle)) = true → s.isQuiet = true → ∃ t, exec .peerTimeout s = .next t
      ∧ bit t.dcb.pfail dev = true
      ∧ (s.fab.reqs = [] → s.fab.frees = [] → s.fab.migs = [] → s.rcv.commits = [] → ∀ p, t.fab.peersOut.get dev = some p → p.unacked = [])))
  ∧ (∀ dev seq, s.msg = some (.packetAgeDiscard dev seq) → ∃ t, exec .packetAgeDiscard s = .next t
    ∧ (∀ o ∈ t.fab.outbox, ¬ (o.tgt = dev ∧ o.seq = seq)) ∧ t.gangs = s.gangs ∧ t.mem = s.mem)
  ∧ (∀ plive pmep members ports dead, s.msg = some (.podMapAdopt plive pmep members ports dead) → ∃ t,
    exec .podMapAdopt s = .next t ∧ t.dcb.plive = livePlanes plive ∧ t.dcb.pmep = pmep ∧ t.fab.members = members ∧ t.fab.dead = dead
      ∧ t.fab.epochWait = (livePlanes s.dcb.plive != livePlanes plive)
      ∧ ∀ x ∈ t.coh.lines, x.line.obj = true → x.line.key = 0x3FF →
        planeOf (livePlanes s.dcb.plive) x.line.name = planeOf (livePlanes plive) x.line.name)
  ∧ (s.fab.epochWait = true →
    (∀ die ident off data poison, s.fillRemote die ident off data poison = s)
    ∧ (∀ p w core level, s.msg = some (.orsp p) → s.fab.reqs = [(p.tag, w)] → w.cont = .prefetch core level → s.gangs = [] →
      ∃ t, exec .orsp s = .next t ∧ t.coh.lines = s.coh.lines ∧ t.cores = s.cores ∧ t.fab.reqs = []))
  ∧ (∀ e, s.msg = some (.epochAnnounce e) → exec .epochAnnounce s
      = .next (if e = s.dcb.pmep then { s with fab := { s.fab with epochWait := false } } else s))
  ∧ (∀ p, p < Config.nport → (s.msg = some (.portDown p) → ∃ t, exec .portDown s = .next t ∧ bit t.dcb.fpst p = false)
    ∧ (s.msg = some (.linkTraining p) →
      (s.fab.mapDev.getD p s.devNum = s.devNum → ∃ t, exec .linkTraining s = .next t ∧ bit t.dcb.fpst p = true)
      ∧ (s.fab.mapDev.getD p s.devNum ≠ s.devNum → ∃ t, exec .linkTraining s = .next t ∧ bit t.dcb.fpst 62 = true
        ∧ bit t.dcb.fpst p = bit s.dcb.fpst p))
    ∧ (s.msg = some (.flitRetry p false false) → ∃ t, exec .flitRetry s = .next t
      ∧ t.dcb.lnkrt = min (s.dcb.lnkrt + 1) (2 ^ 64 - 1)
      ∧ (15 ≤ (s.fab.retries.get p).toNat → bit t.dcb.fpst p = false)
      ∧ ((s.fab.retries.get p).toNat < 15 → (t.fab.retries.get p).toNat = (s.fab.retries.get p).toNat + 1)))
  ∧ (∀ p, Config.nport ≤ p → (s.msg = some (.portDown p) → exec .portDown s = .next s)
    ∧ (s.msg = some (.linkTraining p) → exec .linkTraining s = .next s))

/-! ### The recovery domain (R179 to R201) -/

/-- R186 to R192, R201: the oldest write to an I/O die that may be accepted joins its durable queue, stamped with the open point for a
line of a region, and goes to memory; a durability wait is answered when nothing is on its way, with LOST where writes were lost; each
device's first answer counts, and the last ends the wait of a release, fails an RCOMM whose writes were lost, or lets it close the open
point; RCLOSE makes a die's running digest its live one and sends it as the partial of its RCLOSA; the last RCLOSA writes the commit
record, with the XOR of the four partials, and answers the RCOMM; a sweep leaves no stamp but 0 and those of the committed and the open
point.  Derived: to whom LOST is told, and how often, is the model's choice (log entry 72). -/
def Obligations.CommitsProceed : Prop :=
  ∀ (s : State),
  (∀ die, s.msg = some (.durableAccept die) →
    let next := s.rcv.inflight.find? (fun e => ioDieOf (e.2.1 * 128) == die
      && !(match s.regionOf (e.2.1 * 128) with | some n => s.scanning n | none => false))
    (∀ e, next = some e → (s.rcv.dq.filter (fun q => q.1 == die)).length < 8192 → ∃ t st, exec .durableAccept s = .next t
      ∧ t.rcv.inflight = s.rcv.inflight.erase e ∧ t.rcv.dq = s.rcv.dq ++ [(die, e.2.1, e.2.2.1, st, e.2.2.2.2)]
      ∧ .durableWriteback die ∈ t.pending ∧ (t.lm e.2.1).stamp = st ∧ t.gangs = s.gangs ∧ t.mem = s.mem
      ∧ (∀ n r o c, s.pointsOf e.2.1 = some (n, r, o, c) → st = stampOf o)
      ∧ (s.pointsOf e.2.1 = none → st = (s.lm e.2.1).stamp))
    ∧ (∀ e, next = some e → 8192 ≤ (s.rcv.dq.filter (fun q => q.1 == die)).length →
      exec .durableAccept s = .next (s.after 16 (.durableAccept die)))
    ∧ ((∀ e ∈ s.rcv.inflight, ioDieOf (e.2.1 * 128) ≠ die) → exec .durableAccept s = .next s))
  ∧ (∀ die, s.msg = some (.durableWriteback die) →
    (s.rcv.dq.find? (fun e => e.1 == die) = none → exec .durableWriteback s = .next s)
    ∧ (∀ e, s.rcv.dq.find? (fun e => e.1 == die) = some e → ∃ t, exec .durableWriteback s = .next t ∧ t.rcv.dq = s.rcv.dq.erase e
      ∧ t.mem = Mem.store s.mem (e.2.1 * 128) 128 e.2.2.1 ∧ (t.lm e.2.1).poison = e.2.2.2.2 ∧ (t.lm e.2.1).stamp = (s.lm e.2.1).stamp
      ∧ t.gangs = s.gangs))
  ∧ (∀ tag src, s.msg = some (.rdur tag src) → 
    let lost := !s.rcv.lostDie.isEmpty || s.rcv.lostFor.contains (s.durKey tag src) || s.rcv.lostTags.contains (src, tag)
    (s.rcv.inflight ≠ [] → ∃ t, exec .rdur s = .next t ∧ (s.cycle + 16, .rdur tag src) ∈ t.timers ∧ t.pending = s.pending
      ∧ t.fab = s.fab ∧ t.gangs = s.gangs)
    ∧ (s.rcv.inflight = [] → src = s.devNum → ∃ t, exec .rdur s = .next t ∧ .rdura tag src lost ∈ t.pending ∧ t.gangs = s.gangs)
    ∧ (s.rcv.inflight = [] → src ≠ s.devNum → s.devSet = true → s.portUp (s.rdurPlane tag src) = true →
      ∃ t, exec .rdur s = .next t
      ∧ t.Sent src .rdura [tag, s.devNum, if lost = true then 1 else 0] ∧ t.gangs = s.gangs))
  ∧ (∀ tag dev lost c, s.msg = some (.rdura tag dev lost) → s.rcv.commits.get tag = some c →
    (c.step ≠ 1 ∨ dev ∉ c.awaited → ∃ t, exec .rdura s = .next t ∧ t.rcv.commits = s.rcv.commits ∧ t.gangs = s.gangs)
    ∧ (c.step = 1 → dev ∈ c.awaited → let left := c.awaited.filter (· != dev)
      (left ≠ [] → ∃ t, exec .rdura s = .next t ∧ t.rcv.commits.get tag = some { c with awaited := left, lost := c.lost || lost }
        ∧ t.gangs = s.gangs)
      ∧ (left = [] → c.region = 64 → ∃ t, exec .rdura s = .next t ∧ t.rcv.commits.get tag = none
        ∧ .releaseAcksDone c.g c.op ∈ t.pending)
      ∧ (∀ x, left = [] → c.region ≠ 64 → s.op c.g c.op = some x → bit x.flags 4 = false → c.peer = false → (c.lost || lost) = true →
        ∃ t z, exec .rdura s = .next t ∧ t.rcv.commits.get tag = none ∧ t.op c.g c.op = some z ∧ z.phase = 3 ∧ z.code = 13
          ∧ z.flags = 2 ∧ .blockingAnswer c.g c.op ∈ t.pending)
      ∧ (∀ x r, left = [] → c.region ≠ 64 → s.op c.g c.op = some x → bit x.flags 4 = false → c.peer = false → (c.lost || lost) = false →
        s.rcv.rcpt.get c.region = some r → r.sweep < 65532 →
        (∀ q ∈ s.rcv.order, ∀ d, s.rcv.commits.get q = some d → d.region ≠ c.region) →
        ∃ t z, exec .rdura s = .next t ∧ t.rcv.commits.get tag = some z ∧ z.step = 2 ∧ z.left = 4 ∧ z.point = r.opt
          ∧ ∀ d, d < 4 → .rclose c.region r.opt d ∈ t.pending)))
  ∧ (∀ n p die r, s.msg = some (.rclose n p die) → s.rcv.rcpt.get n = some r → ∃ t, exec .rclose s = .next t
    ∧ t.rcv.rcpt.get n = some { r with ldig := r.ldig.set die (r.odig.getD die 0), odig := r.odig.set die 0 }
    ∧ t.rcv.closing.get n = some ((s.rcv.closing.get n).getD 0 ||| 2 ^ die)
    ∧ .rclosa n p die (r.odig.getD die 0) ∈ t.pending ∧ t.gangs = s.gangs ∧ t.mem = s.mem)
  ∧ (∀ n p die od tg c r, s.msg = some (.rclosa n p die od) → s.rcv.rcpt.get n = some r →
    s.rcv.commits.find? (fun kc => kc.2.region == n && kc.2.step == 2 && kc.2.point == p) = some (tg, c) → s.rcv.commits.get tg = some c →
    ∃ t, exec .rclosa s = .next t
    ∧ (2 ≤ c.left → t.rcv.commits.get tg = some { c with left := c.left - 1, dig := c.dig ^^^ od } ∧ t.rcv.rcpt = s.rcv.rcpt ∧ t.gangs = s.gangs)
    ∧ (c.left ≤ 1 → t.rcv.rcpt.get n = some { r with cpt := p, opt := p + 1, cursor := c.cursor, cdig := c.dig ^^^ od, ctime := s.cycle,
                                                     sweep := r.sweep + 1 }
      ∧ ∀ x, s.op c.g c.op = some x → ∃ z, t.op c.g c.op = some z ∧ z.phase = 3 ∧ z.code = 0 ∧ z.out = [p % 2 ^ 32, p / 2 ^ 32]
        ∧ .blockingAnswer c.g c.op ∈ t.pending))
  ∧ (∀ n die r, s.msg = some (.settlerSweep n die) → s.rcv.rcpt.get n = some r → rrdBusy (s.rrd n) = false → ∃ t,
    exec .settlerSweep s = .next t ∧ (∀ la ∈ s.regionLines n, ioDieOf (la * 128) = die →
      (t.lm la).stamp = 0 ∨ (t.lm la).stamp = stampOf r.cpt ∨ (t.lm la).stamp = stampOf r.opt) ∧ t.gangs = s.gangs ∧ t.mem = s.mem)

/-- R179, R180, R195, R196: a die asked to reset loses its cores and its lines; the containment scan, which waits for a close under way,
takes it out of reset; RRD_ENABLE of a range that may be a region sets BUSY until coherence is at rest, and then opens the region with a
new RCPT and stamps of 0; RRD_DISABLE sets BUSY and ends when nothing of the region is under way; TPOL.  (That EN reads 0 while enabling
and 1 while disabling, and that the scan waits for a close, are the model's choices, log entries 73 and 85.) -/
def Obligations.RegionsAndDieResets : Prop :=
  ∀ (s : State),
  (∀ d, d < 4 → s.isQuiet = true → ∀ p ∈ [(Instr.drst, Msg.drst (2 ^ d)), (.watchdog, .watchdog d)], s.msg = some p.2 →
    (bit s.dcb.drst (4 + d) = false → ∃ t, exec p.1 s = .next t ∧ bit t.dcb.drst (4 + d) = true ∧ (∀ kc ∈ t.cores, dieOf kc.1 ≠ d)
      ∧ ∀ x ∈ t.coh.lines, x.die ≠ d)
    ∧ (bit s.dcb.drst (4 + d) = true → exec p.1 s = .next s))
  ∧ (∀ d, s.msg = some (.containmentScan d) →
    (s.rcv.closing ≠ [] → exec .containmentScan s = .next (s.after 16 (.containmentScan d)))
    ∧ (s.rcv.closing = [] → s.isQuiet = true → ∃ t, exec .containmentScan s = .next t
      ∧ bit t.dcb.drst (4 + d) = false ∧ d ∉ t.rcv.lostDie ∧ t.gangs = s.gangs))
  ∧ (∀ n v, n < 64 → n < s.dcb.rrd.length →
    (s.msg = some (.rrdEnable n v) → bit v 0 = true →
      (rrdBusy (s.rrd n) = false ∧ rrdEn (s.rrd n) = false ∧ s.mayEnable n v = true) ∨ s.rrd n = rrdFields v + 3 →
      (s.isQuiet = true → ∃ t, exec .rrdEnable s = .next t ∧ t.rrd n = rrdFields v ∧ t.rcv.rcpt.get n = some Rcpt.fresh
        ∧ ∀ la ∈ t.regionLines n, (t.lm la).stamp = 0)
      ∧ (s.isQuiet = false → ∃ t, exec .rrdEnable s = .next t ∧ t.rrd n = rrdFields v + 3 ∧ rrdBusy (t.rrd n) = true
        ∧ rrdEn (t.rrd n) = false ∧ (s.cycle + 16, .rrdEnable n v) ∈ t.timers))
    ∧ (rrdBusy (s.rrd n) = false →
      (s.msg = some (.rrdDisable n v) → rrdEn (s.rrd n) = true → bit v 0 = false → sameRange (s.rrd n) v = true → ∃ t,
        exec .rrdDisable s = .next t ∧ t.rrd n = (rrdFields v ||| 5) ∧ .rrdDisableComplete n ∈ t.pending ∧ t.gangs = s.gangs
          ∧ t.mem = s.mem)
      ∧ (s.msg = some (.rrdSetTpol n v) → rrdEn (s.rrd n) = bit v 0 → (rrdEn (s.rrd n) = true → sameRange (s.rrd n) v = true) → ∃ t,
        exec .rrdSetTpol s = .next t ∧ t.rrd n = rrdFields v ∧ t.gangs = s.gangs ∧ t.mem = s.mem))
    ∧ (rrdBusy (s.rrd n) = true → (s.msg = some (.rrdDisable n v) → exec .rrdDisable s = .next s)
      ∧ (s.msg = some (.rrdSetTpol n v) → exec .rrdSetTpol s = .next s)
      ∧ (s.msg = some (.rrdEnable n v) → s.rrd n ≠ rrdFields v + 3 → exec .rrdEnable s = .next s)))
  ∧ (∀ n, s.msg = some (.rrdDisableComplete n) → n < 64 → n < s.dcb.rrd.length → rrdBusy (s.rrd n) = true →
    (s.regionOwed n = true → exec .rrdDisableComplete s = .next (s.after 64 (.rrdDisableComplete n)))
    ∧ (s.regionOwed n = false → ∃ t, exec .rrdDisableComplete s = .next t ∧ t.rrd n = andNot (s.rrd n) 5
      ∧ t.rcv.rcpt.get n = none ∧ t.gangs = s.gangs ∧ t.mem = s.mem))

/-! ### The dispatchers (R415, R416, R421 to R437) -/

/-- R423, R424, R427, R425, R416, R485: the head record of the queue to serve is checked as it reaches the head and refused with its queue
moved on, or accepted once its dependences are met, and its blocks are to be placed; one whose dependences are not met is watched; a
placement attempt commits blocks or backs off; a block that is over is drained and leaves, and its gangs' registers stay as they were;
queue 63 goes back.  Derived: how a dispatcher meets a wait for coherence, and when a launch waits, are the model's choices (log entries 9
and 32). -/
def Obligations.LaunchesAcceptedAndPlaced : Prop :=
  ∀ (s : State),
  (s.msg = some .launchAccept →
    (s.devSet = false ∨ s.queueOrder = [] ∨ .launchAccept ∈ s.pending → exec .launchAccept s = .next s)
    ∧ (∀ n rest, s.devSet = true → s.queueOrder = n :: rest → .launchAccept ∉ s.pending → s.coh.retiring = none → s.isQuiet = true →
      (n < s.dcb.lqptr.length → (s.sched.heads.get n = none ∧ (s.headLaunch n).badRec = true)
          ∨ (∃ s1 x, s.checkHead n = (s1, .error x))
          ∨ (∃ s1 s2 l, s.checkHead n = (s1, .ok l) ∧ s1.depsState l = (s2, 2)) →
        ∃ t, exec .launchAccept s = .next t ∧ lqHead (t.lqptr n) = (lqHead (s.lqptr n) + 1) % 2 ^ 32
          ∧ .launchAccept ∈ t.pending
          ∧ ((∀ l, s.sched.heads.get n = some l → l.regen = none) → n ≠ 63 ∨ s.sched.q63 = false →
            t.sched.launches = s.sched.launches))
      ∧ (∀ s1 s2 l, s.checkHead n = (s1, .ok l) → s1.depsState l = (s2, 0) → ∃ t, exec .launchAccept s = .next t ∧ n ∈ t.sched.depWait)
      ∧ (∀ s1 s2 l, s.checkHead n = (s1, .ok l) → s1.depsState l = (s2, 1) → ∃ t, exec .launchAccept s = .next t
        ∧ t.launch s.sched.nextLaunch = some l ∧ .blockPlace s.sched.nextLaunch ∈ t.pending ∧ .launchAccept ∈ t.pending)))
  ∧ (∀ q, s.msg = some (.dependenceWake q) → ∃ t, exec .dependenceWake s = .next t ∧ .launchAccept ∈ t.pending ∧ q ∉ t.sched.depWait)
  ∧ (∀ lk l, s.msg = some (.blockPlace lk) → s.launch lk = some l →
    (l.backoff = true ∨ l.hasWork = false → exec .blockPlace s = .next s)
    ∧ (l.backoff = false → l.hasWork = true →
      (s.defers lk l = true → exec .blockPlace s = .next (s.push (.blockPlace lk)))
      ∧ (s.defers lk l = false → s.yields lk l = true → ∃ t l', exec .blockPlace s = .next t ∧ t.launch lk = some l' ∧ l'.backoff = true
        ∧ l'.waiting.isSome = true ∧ l'.placed = l.placed)
      ∧ (s.defers lk l = false → s.yields lk l = false → s.coh.retiring = none → s.isQuiet = true →
        (∀ b rest, l.saved = b :: rest → exec .blockPlace s = .next (s.push (.blockRestore lk b)))
        ∧ (∀ s1 c, l.saved = [] → s.readConst l = (s1, some c) →
          (∀ ps, s1.findAll s1.useOf l (decide (0 < l.done)) (s1.rectsNow l) l.nextBlocks [] = some ps → ∃ t l',
            exec .blockPlace s = .next t ∧ t.launch lk = some l' ∧ l'.placed = l.placed + ps.length ∧ l'.const = c
              ∧ t.sched.nextBlock = s1.sched.nextBlock + ps.length)
          ∧ (s1.findAll s1.useOf l (decide (0 < l.done)) (s1.rectsNow l) l.nextBlocks [] = none → ∃ t l',
            exec .blockPlace s = .next t ∧ t.launch lk = some l' ∧ l'.backoff = true ∧ l'.waiting.isSome = true)))))
  ∧ (∀ lk l, s.msg = some (.placeBackoff lk) → s.launch lk = some l → ∃ t, exec .placeBackoff s = .next t
    ∧ t.launch lk = some { l with backoff := false } ∧ (l.hasWork = true → .blockPlace lk ∈ t.pending))
  ∧ (∀ bk b, s.block bk = some b →
    (s.msg = some (.storageClearDone bk) → ∃ t, exec .storageClearDone s = .next t ∧ t.block bk = some { b with clearing := false })
    ∧ (s.msg = some (.blockRetire bk) → s.blockOver b = false → exec .blockRetire s = .next s)
    ∧ (s.msg = some (.blockRetire bk) → s.blockOver b = true →
      (b.drains = [] → ∃ t b', exec .blockRetire s = .next t ∧ t.block bk = some b' ∧ b'.drains.length = b.cores.length)
      ∧ (∀ l, b.drains ≠ [] → (∀ d ∈ b.drains, s.coh.drains.has d = false) → (∀ c ∈ b.cores, s.writesOwed c = false) →
        s.coh.retiring = none → s.isQuiet = true → s.launch b.launch = some l → ∃ t, exec .blockRetire s = .next t
          ∧ t.block bk = none ∧ (∀ l', t.launch b.launch = some l' → l'.done = l.done + 1)
          ∧ (l.regen = none → ∀ k ∈ b.gangs, coreOf k < 256 → t.gang k = s.gang k))))
  ∧ (s.msg = some .queue63Release → ∃ t, exec .queue63Release s = .next t
    ∧ (s.dcb.rcrt.all (fun v => !rcrtEn v) = true → s.qEmpty 63 = true → (∀ kl ∈ s.sched.launches, kl.2.regen = none) →
      t.sched.q63 = false) ∧ (s.dcb.rcrt.any rcrtEn = true → t = s))

/-- R435 to R437: a block whose time slice is over, or of lower PRIO than a launch that has waited, is asked to leave and its live
gangs get the cause; its mode is chosen once every live gang has returned, for the blocks of a COR launch together; with nothing owed
its cores are drained, and then it leaves, its number saved; a restore places saved blocks again.  Derived: what a waiting gang does
meanwhile, and the drain of a block that leaves, are the model's choices (log entries 50 and 78). -/
def Obligations.BlocksLeaveAndReturn : Prop :=
  ∀ (s : State),
  (∀ bk b l, s.block bk = some b → s.launch b.launch = some l →
    (s.msg = some (.timeSlice bk (max b.since b.noneAt)) →
      (l.tsl = 0 ∨ s.cycle < max b.since b.noneAt + 2 ^ l.tsl → exec .timeSlice s = .next s)
      ∧ (l.tsl ≠ 0 → max b.since b.noneAt + 2 ^ l.tsl ≤ s.cycle → b.mode ≠ 4 → b.asked = 0 →
        s.waiting.any (fun kl => decide (l.prio ≤ kl.2.prio)) = true → ∃ t b', exec .timeSlice s = .next t
          ∧ t.block bk = some b' ∧ b'.asked = 3 ∧ .preemptModeChoice bk ∈ t.pending
          ∧ ∀ k ∈ b.gangs, ∀ g, s.gang k = some g → g.retired = false → ∃ g', t.gang k = some g' ∧ bit g'.tcause cSLICE = true))
    ∧ (∀ since, since ≠ max b.since b.noneAt → s.msg = some (.timeSlice bk since) → exec .timeSlice s = .next s)
    ∧ (s.msg = some (.preemptModeChoice bk) → b.asked = 0 ∨ b.mode ≠ 0 → exec .preemptModeChoice s = .next s)
    ∧ (∀ gs, s.msg = some (.preemptModeChoice bk) →
      gs = ((s.together bk b l).flatMap (fun kb => kb.2.gangs.filterMap s.gang)).filter (fun g => !g.retired) →
      b.asked ≠ 0 → b.mode = 0 → gs ≠ [] →
      ((∃ g ∈ gs, g.halted = true ∨ g.asked ≠ 2) → exec .preemptModeChoice s = .next (s.after 64 (.preemptModeChoice bk)))
      ∧ ((∀ g ∈ gs, g.halted = false ∧ g.asked = 2) → (bk, b) ∈ s.together bk b l
        ∧ ∃ t, exec .preemptModeChoice s = .next t ∧ ∀ kb ∈ s.together bk b l, ∃ b', t.block kb.1 = some b' ∧ b'.mode = l.mode gs
          ∧ (l.mode gs = 2 → .blockFlush kb.1 ∈ t.pending) ∧ (l.mode gs = 3 → .blockSave kb.1 ∈ t.pending)))
    ∧ (∀ p ∈ [(Instr.blockSave, Msg.blockSave bk, 3), (.blockFlush, .blockFlush bk, 2)], s.msg = some p.2.1 → b.mode = p.2.2 →
      ((∃ k ∈ b.gangs, ∃ g, s.gang k = some g ∧ g.retired = false ∧ g.saveOwed = true) → exec p.1 s = .next (s.after 16 p.2.1))
      ∧ ((∃ k ∈ b.gangs, ∃ g, s.gang k = some g ∧ g.retired = false) →
        (∀ k ∈ b.gangs, ∀ g, s.gang k = some g → g.retired = false → g.saveOwed = false) →
        (b.drains = [] → ∃ t b', exec p.1 s = .next t ∧ t.block bk = some b' ∧ b'.mode = b.mode
          ∧ b'.drains.length = b.cores.length ∧ (s.cycle + 16, p.2.1) ∈ t.timers)
        ∧ (b.drains ≠ [] → (∀ d ∈ b.drains, s.coh.drains.has d = false) → (∀ c ∈ b.cores, s.writesOwed c = false) →
          s.coh.retiring = none → s.isQuiet = true →
          ∃ t l', exec p.1 s = .next t ∧ t.block bk = none ∧ t.launch b.launch = some l' ∧ b.b ∈ l'.saved))))
  ∧ (∀ lk l since, s.msg = some (.priorityWait lk) → s.launch lk = some l → l.waiting = some since → l.hasWork = true →
    (s.cycle < since + 2 ^ 20 → exec .priorityWait s = .next (s.after (since + 2 ^ 20 - s.cycle) (.priorityWait lk)))
    ∧ (∀ bk b, since + 2 ^ 20 ≤ s.cycle → (s.victims l).any (fun kb => kb.2.asked == 2 && kb.2.mode != 4) = false →
      s.victim ((s.victims l).filter (fun kb => kb.2.asked == 0 || (kb.2.mode == 4 && decide (kb.2.noneAt + 2 ^ 20 ≤ s.cycle))))
        = some bk → s.block bk = some b → (∀ kb ∈ s.sched.blocks, s.block kb.1 = some kb.2) → ∃ t b',
      exec .priorityWait s = .next t ∧ t.block bk = some b' ∧ b'.asked = 2))
  ∧ (∀ lk b l, s.msg = some (.blockRestore lk b) → s.launch lk = some l →
    (b ∉ l.saved ∨ l.backoff = true → exec .blockRestore s = .next s)
    ∧ (∀ ps, b ∈ l.saved → l.backoff = false →
      (l.cor = true → ∀ kb ∈ s.sched.blocks, kb.2.launch = lk → kb.2.mode ≠ 2 ∧ kb.2.mode ≠ 3) → s.coh.retiring = none → s.isQuiet = true →
      s.findAll s.useOf l (decide (0 < l.done)) (s.rectsNow l) (s.savedBlocks lk b l) [] = some ps → ∃ t l',
      exec .blockRestore s = .next t ∧ t.launch lk = some l' ∧ l'.saved = l.saved.filter (fun n => !ps.any (fun p => p.1 == n))))

/-! ### Host registers and operations (R26, R41, R55, R105, R151, R415, R416, R421, R461 to R469) -/

/-- R41, R55, R151, R152, R26, R105: what the operation registers start and how they end: TLBINV, for which the cores' plain stores
drain (R499), LCINV, KRET, KLOAD, FXOP, of which a write while BUSY is ignored, FXB and the KV windows.  Derived: an operation's own
message carries bit 64 while it waits for coherence (log entry 9); a write of FXB with EN = 1 while EN is 1 leaves the directory (log
entry 75); a TAKE outside its limits ends BADARG (log entry 83). -/
def Obligations.HostOperationsProceed : Prop :=
  ∀ (s : State) (v : Nat),
  (s.msg = some (.tlbinv v) →
    (bit s.dcb.tlbinv 0 = true → exec .tlbinv s = .next s)
    ∧ (bit s.dcb.tlbinv 0 = false → bit v 0 = true → ∃ t, exec .tlbinv s = .next t ∧ bit t.dcb.tlbinv 0 = true
      ∧ (∃ u, .tlbinvComplete s.cycle u ∈ t.pending) ∧ (∀ c, ∀ x ∈ (t.core c).l1, x.line.obj = false → x.dirty = 0)
      ∧ (∀ kc ∈ t.cores, ∀ e ∈ kc.2.tlb, ¬ ((bit v 8 = true ∨ (e.va < (tlbinvRange v).1 + (tlbinvRange v).2
        ∧ (tlbinvRange v).1 < e.va + e.size)) ∧ (bit v 9 = true ∨ e.gl = true ∨ e.asid = s.dcb.tlbiasid)))))
  ∧ (∀ since upto, s.msg = some (.tlbinvComplete since upto) → (∀ kd ∈ s.coh.drains, upto < kd.1) →
    s.gangs.any (fun kg => kg.2.ops.any (fun ko => !ko.2.held && ko.2.cls != 8 && decide (ko.2.issued ≤ since) && !ko.2.atAgent)) = false →
    ∃ t, exec .tlbinvComplete s = .next t ∧ bit t.dcb.tlbinv 0 = false ∧ t.dcb.tlbinv / 2 = s.dcb.tlbinv / 2 ∧ { t with dcb := s.dcb } = s)
  ∧ (∀ since upto, s.msg = some (.tlbinvComplete since upto) → (∀ kd ∈ s.coh.drains, upto < kd.1) →
    s.gangs.any (fun kg => kg.2.ops.any (fun ko => !ko.2.held && ko.2.cls != 8 && decide (ko.2.issued ≤ since) && !ko.2.atAgent)) = true →
    exec .tlbinvComplete s = .next (s.after 16 (.tlbinvComplete since upto)))
  ∧ (∀ since upto, s.msg = some (.tlbinvComplete since upto) → (∃ kd ∈ s.coh.drains, kd.1 ≤ upto) →
    exec .tlbinvComplete s = .next (s.after 16 (.tlbinvComplete since upto)))
  ∧ (s.msg = some (.lcinv v) → ∃ t, exec .lcinv s = .next t ∧ (bit v 0 = false → t.fab.loc = s.fab.loc)
    ∧ (bit v 0 = true → ∀ e ∈ t.fab.loc, e ∈ s.fab.loc ∧ bit v 1 = false ∧ e.ident ≠ fld v 36 28))
  ∧ (s.msg = some (.kret v) →
    (bit s.dcb.kret 0 = true ∨ fld v 12 10 = 0 ∨ fld v 12 10 = 0x3FF → exec .kret s = .next s)
    ∧ (bit s.dcb.kret 0 = false → fld v 12 10 ≠ 0 → fld v 12 10 ≠ 0x3FF → bit v 0 = true → ∃ t, exec .kret s = .next t
      ∧ t.dcb.kret = fld v 12 10 * 4096 + 1 ∧ t.coh.retiring = some (fld v 12 10)))
  ∧ (s.msg = some .keyRetireComplete → bit s.dcb.kret 0 = true →
    (s.coh.drains ≠ [] ∨ (∃ kc ∈ s.cores, s.writesOwed kc.1 = true) ∨ s.keyUsed (fld s.dcb.kret 12 10) = true →
      exec .keyRetireComplete s = .next (s.after 16 .keyRetireComplete))
    ∧ (s.coh.drains = [] → (∀ kc ∈ s.cores, s.writesOwed kc.1 = false) → s.keyUsed (fld s.dcb.kret 12 10) = false →
      (∀ kc ∈ s.cores, kc.2.keyDirty (fld s.dcb.kret 12 10) = false) → s.isQuiet = true →
      ∃ u, exec .keyRetireComplete s = .next ((List.range 4).foldl (fun s d => s.wakeDie d) u)
        ∧ bit u.dcb.kret 0 = false ∧ u.coh.retiring = none ∧ u.dcb.keys.get (fld s.dcb.kret 12 10) = none
        ∧ (∀ kc ∈ u.cores, ∀ x ∈ kc.2.l1, x.line.key ≠ fld s.dcb.kret 12 10) ∧ ∀ x ∈ u.coh.lines, x.line.key ≠ fld s.dcb.kret 12 10))
  ∧ (s.msg = some .keyRetireComplete → bit s.dcb.kret 0 = false → exec .keyRetireComplete s = .next s)
  ∧ (s.msg = some (.kload v) → bit v 0 = true → ∃ t, exec .kload s = .next t ∧ t.dcb.kdata = List.replicate 8 0
    ∧ (fld v 12 10 = 0 ∨ fld v 12 10 = 0x3FF → fld t.dcb.kload 1 2 = 2 ∧ t.dcb.keys = s.dcb.keys)
    ∧ (fld v 12 10 ≠ 0 → fld v 12 10 ≠ 0x3FF → s.dcb.keys.has (fld v 12 10) = true ∨ s.coh.retiring = some (fld v 12 10) →
      fld t.dcb.kload 1 2 = 1 ∧ t.dcb.keys = s.dcb.keys)
    ∧ (fld v 12 10 ≠ 0 → fld v 12 10 ≠ 0x3FF → s.dcb.keys.has (fld v 12 10) = false → s.coh.retiring ≠ some (fld v 12 10) →
      fld t.dcb.kload 1 2 = 0 ∧ t.dcb.keys.has (fld v 12 10) = true))
  ∧ (s.msg = some (.fxopGive v) → bit v 0 = true → fld v 62 2 = 1 → bit v 64 = false → bit s.dcb.fxop 0 = false → s.isQuiet = false →
    let b := s.fxBusy v
    bit b.dcb.fxop 0 = true ∧ ∃ t, exec .fxopGive s = .next t ∧ t.dcb = b.settle.dcb ∧ t.mem = b.settle.mem
      ∧ (b.settle.cycle + 16, .fxopGive (v % 2 ^ 64 + 2 ^ 64)) ∈ t.timers)
  ∧ (s.msg = some (.fxopTake v) → bit v 0 = true → fld v 62 2 = 2 → bit v 64 = false → bit s.dcb.fxop 0 = false → s.isQuiet = false →
    let b := s.fxBusy v
    bit b.dcb.fxop 0 = true ∧ ∃ t, exec .fxopTake s = .next t ∧ t.dcb = b.settle.dcb ∧ t.mem = b.settle.mem
      ∧ (b.settle.cycle + 16, .fxopTake (v % 2 ^ 64 + 2 ^ 64)) ∈ t.timers)
  ∧ (bit s.dcb.fxop 0 = true → bit v 64 = false →
    (s.msg = some (.fxopGive v) → exec .fxopGive s = .next s) ∧ (s.msg = some (.fxopTake v) → exec .fxopTake s = .next s))
  ∧ (s.isQuiet = true →
    (s.msg = some (.fxopGive v) → bit v 0 = true → fld v 62 2 = 1 → bit v 64 = true ∨ bit s.dcb.fxop 0 = false →
      let b := if bit v 64 = true then s else s.fxBusy v
      (s.fxEn = false → ∃ t, exec .fxopGive s = .next t ∧ fld t.dcb.fxop 1 3 = 3 ∧ t.mem = s.mem)
      ∧ (s.fxEn = true → fxArgs v = true → fld v 16 30 * 2 ^ 16 % 2 ^ fld v 4 6 = 0 →
        b.poolHolds (fld v 55 7) (fld v 16 30 * 2 ^ 16) (2 ^ fld v 4 6) = true → ∃ t, exec .fxopGive s = .next t
          ∧ bit t.dcb.fxop 0 = false ∧ fld t.dcb.fxop 1 3 = 0
          ∧ t.mem = (b.fxPush (fld v 55 7) (fld v 4 6) (fld v 16 30 * 2 ^ 16)).mem)
      ∧ (s.fxEn = true → fxArgs v = false ∨ fld v 16 30 * 2 ^ 16 % 2 ^ fld v 4 6 ≠ 0
          ∨ b.poolHolds (fld v 55 7) (fld v 16 30 * 2 ^ 16) (2 ^ fld v 4 6) = false → ∃ t, exec .fxopGive s = .next t
          ∧ bit t.dcb.fxop 0 = false ∧ fld t.dcb.fxop 1 3 = 2 ∧ t.mem = s.mem))
    ∧ (s.msg = some (.fxopTake v) → bit v 0 = true → fld v 62 2 = 2 → bit v 64 = true ∨ bit s.dcb.fxop 0 = false →
      let b := if bit v 64 = true then s else s.fxBusy v
      (s.fxEn = false → ∃ t, exec .fxopTake s = .next t ∧ fld t.dcb.fxop 1 3 = 3 ∧ t.mem = s.mem)
      ∧ (s.fxEn = true → fxArgs v = false → ∃ t, exec .fxopTake s = .next t ∧ fld t.dcb.fxop 1 3 = 2 ∧ t.mem = s.mem)
      ∧ (s.fxEn = true → fxArgs v = true →
        (∀ s' a, b.fxGet (fld v 55 7) (fld v 4 6) = some (s', a) → ∃ t, exec .fxopTake s = .next t ∧ t.mem = s'.mem
          ∧ t.dcb.fxop = fxopReg v a 0)
        ∧ (b.fxGet (fld v 55 7) (fld v 4 6) = none → ∃ t, exec .fxopTake s = .next t ∧ fld t.dcb.fxop 1 3 = 1
          ∧ t.mem = s.mem)))
    ∧ (s.msg = some (.fxbEnable v) →
      (bit s.dcb.fxb 0 = false → ∃ t, exec .fxbEnable s = .next t ∧ t.dcb.fxb = keepBits v [(45, 12), (0, 0)]
        ∧ (bit v 0 = false → t.mem = s.mem)
        ∧ (bit v 0 = true → t.mem = (s.physWrite 0 (fld v 12 34 * 4096) 22176 0).mem))
      ∧ (bit s.dcb.fxb 0 = true → bit v 0 = true → fld v 12 34 = fld s.dcb.fxb 12 34 → ∃ t, exec .fxbEnable s = .next t ∧ t.mem = s.mem
        ∧ bit t.dcb.fxb 0 = true)
      ∧ (bit s.dcb.fxb 0 = true → bit v 0 = false → s.anyObject = true → exec .fxbEnable s = .next s)
      ∧ (bit s.dcb.fxb 0 = true → fld (keepBits v [(45, 12), (0, 0)]) 12 34 ≠ fld s.dcb.fxb 12 34 → exec .fxbEnable s = .next s))
    ∧ (∀ n w, s.msg = some (.kvwEffect n) → s.dcb.kvwNew[n]? = some (some w) → n < s.dcb.kvw.length → ∃ t, exec .kvwEffect s = .next t
      ∧ t.dcb.kvw[n]? = some w ∧ t.dcb.kvwNew[n]? = some none
      ∧ ∀ x ∈ t.coh.lines, x.line.obj = true → x.line.ident ≠ fld w 36 28 ∧ x.line.ident ≠ fld (s.dcb.kvw.getD n 0) 36 28))
  ∧ (∀ n, s.msg = some (.kvwWrite n v) → n < 64 → n < s.dcb.kvwNew.length → ∃ t, exec .kvwWrite s = .next t
    ∧ t.dcb.kvwNew[n]? = some (some (keepBits v [(63, 36), (13, 7), (0, 0)])) ∧ t.dcb.kvw = s.dcb.kvw ∧ .kvwEffect n ∈ t.pending)

/-- R177, R415, R416, R421, R450, R461 to R469: writes of the registers of the device control block: a request to pre-empt, halts and
resumption of a gang, the device number, a queue's tail, regeneration entries, PFAIL, table and ring bases, the plain registers with
their write-0-to-clear counters, a register's read, and the debug window of a halted gang.  Derived: which launches keep queue 63 is the
model's reading (log entry 56), and so is the message of a read (log entry 84). -/
def Obligations.HostRegistersWritten : Prop :=
  ∀ (s : State) (v : Nat),
  (∀ kb, s.msg = some (.preq v) →
    s.sched.blocks.find? (fun kb => kb.2.b == fld v 40 24 && (match s.launch kb.2.launch with
      | some l => l.queue == fld v 32 6 && l.index == fld v 0 32 | none => false)) = some kb → s.block kb.1 = some kb.2 →
    (kb.2.asked ≠ 0 → exec .preq s = .next s)
    ∧ (kb.2.asked = 0 → ∃ t b', exec .preq s = .next t ∧ t.block kb.1 = some b' ∧ b'.asked = 1 ∧ .preemptModeChoice kb.1 ∈ t.pending))
  ∧ (s.msg = some (.preq v) →
    s.sched.blocks.find? (fun kb => kb.2.b == fld v 40 24 && (match s.launch kb.2.launch with
      | some l => l.queue == fld v 32 6 && l.index == fld v 0 32 | none => false)) = none → exec .preq s = .next s)
  ∧ (∀ g, s.gang (gdbgKey v) = some g → g.retired = false →
    (s.msg = some (.gdbgHalt v) → g.halted = false → ∃ t g', exec .gdbgHalt s = .next t ∧ t.gang (gdbgKey v) = some g'
      ∧ g'.tcause = (g.tcause ||| 2 ^ cHALTREQ) ∧ ∀ k, k ≠ gdbgKey v → t.gang k = s.gang k)
    ∧ (s.msg = some (.gdbgResume v) → g.halted = true → ∃ t g', exec .gdbgResume s = .next t ∧ t.gang (gdbgKey v) = some g'
      ∧ g'.halted = false ∧ g'.tcause = andNot g.tcause (2 ^ 20 + 2 ^ 21) ∧ ∀ k, k ≠ gdbgKey v → t.gang k = s.gang k))
  ∧ (s.msg = some (.devnumWrite v) → (s.devSet = true → exec .devnumWrite s = .next s)
    ∧ (s.devSet = false → ∃ t, exec .devnumWrite s = .next t ∧ t.devSet = true ∧ t.devNum = v % 128 ∧ .launchAccept ∈ t.pending))
  ∧ (∀ n, s.msg = some (.tailWrite n v) → n < 64 → n < s.dcb.lqptr.length →
    (n = 63 → s.sched.q63 = true → exec .tailWrite s = .next s)
    ∧ (n ≠ 63 ∨ s.sched.q63 = false → ∃ t, exec .tailWrite s = .next t ∧ lqTail (t.lqptr n) = fld v 32 32
      ∧ lqHead (t.lqptr n) = lqHead (s.lqptr n) ∧ .launchAccept ∈ t.pending))
  ∧ (Config.isA1 = false → ∀ n, (s.msg = some (.rcrtEnable n v) → exec .rcrtEnable s = .next s)
    ∧ (s.msg = some (.rcrtDisable n v) → exec .rcrtDisable s = .next s))
  ∧ (Config.isA1 = true → ∀ n, n < 16 → n < s.dcb.rcrt.length →
    let take := s.dcb.rcrt.any rcrtEn = true ∨ (lqEn (s.lqcfg 63) = true ∧ s.qEmpty 63 = true ∧ s.queueBusy 63 = false
      ∧ ∀ kl ∈ s.sched.launches, kl.2.queue = 63 → kl.2.unplaced = false)
    (s.msg = some (.rcrtEnable n v) → bit v 0 = true → take → ∃ t, exec .rcrtEnable s = .next t
      ∧ t.dcb.rcrt[n]? = some (rcrtFields v) ∧ t.sched.q63 = true)
    ∧ (s.msg = some (.rcrtEnable n v) → ¬ take → exec .rcrtEnable s = .next s)
    ∧ (s.msg = some (.rcrtDisable n v) → bit v 0 = false → ∃ t, exec .rcrtDisable s = .next t
      ∧ t.dcb.rcrt[n]? = some (rcrtFields v) ∧ .queue63Release ∈ t.pending))
  ∧ (s.msg = some (.pfailClear v) → ∃ t, exec .pfailClear s = .next t ∧ { t with dcb := s.dcb } = s
    ∧ ∀ d, d < 128 → bit t.dcb.pfail d = (bit s.dcb.pfail d && !bit v d))
  ∧ (∀ off, s.msg = some (.tableBaseWrite off v) →
    (s.sched.launches ≠ [] ∨ s.fab.migs ≠ [] ∨ s.fab.inbound ≠ [] → exec .tableBaseWrite s = .next s)
    ∧ (s.sched.launches = [] → s.fab.migs = [] → s.fab.inbound = [] →
      (off ≠ 0x20 → fld v 0 5 < 10 ∨ 24 < fld v 0 5 → exec .tableBaseWrite s = .next s)
      ∧ (off = 0x20 → ∃ t, exec .tableBaseWrite s = .next t ∧ t.dcb.sstb = fld v 8 38 * 256)
      ∧ (off = 0x10 → 10 ≤ fld v 0 5 → fld v 0 5 ≤ 24 → ∃ t, exec .tableBaseWrite s = .next t
        ∧ t.dcb.rgb = fld v 8 38 * 256 + fld v 0 5)
      ∧ (off = 0x18 → 10 ≤ fld v 0 5 → fld v 0 5 ≤ 24 → ∃ t, exec .tableBaseWrite s = .next t
        ∧ t.dcb.stb = fld v 8 38 * 256 + fld v 0 5)
      ∧ (off = 0x08 → 10 ≤ fld v 0 5 → fld v 0 5 ≤ 24 → ∃ t, exec .tableBaseWrite s = .next t
        ∧ t.dcb.otb = fld v 8 38 * 256 + fld v 0 5)))
  ∧ (∀ off, s.msg = some (.ringBaseWrite off v) → off = 0x80 ∨ off = 0xA0 ∨ off = 0xC0 →
    (fld v 0 5 < 4 ∨ (if off = 0x80 then 16 else 12) < fld v 0 5 → exec .ringBaseWrite s = .next s)
    ∧ (off = 0x80 → 4 ≤ fld v 0 5 → fld v 0 5 ≤ 16 → ∃ t, exec .ringBaseWrite s = .next t
      ∧ t.dcb.merb = fld v 12 34 * 4096 + fld v 0 5 ∧ t.dcb.mehd = 0 ∧ t.dcb.metl = 0)
    ∧ (off = 0xA0 → 4 ≤ fld v 0 5 → fld v 0 5 ≤ 12 → ∃ t, exec .ringBaseWrite s = .next t
      ∧ t.dcb.crb = fld v 12 34 * 4096 + fld v 0 5 ∧ t.dcb.crhd = 0 ∧ t.dcb.crtl = 0)
    ∧ (off = 0xC0 → 4 ≤ fld v 0 5 → fld v 0 5 ≤ 12 → ∃ t, exec .ringBaseWrite s = .next t
      ∧ t.dcb.htrb = fld v 12 34 * 4096 + fld v 0 5 ∧ t.dcb.hthd = 0 ∧ t.dcb.httl = 0))
  ∧ (∀ off, s.msg = some (.registerWrite off v) →
    (off ∈ [0x000, 0x088, 0x0A8, 0x0C8, 0x0E0, 0x0E8, 0x110, 0x158] → exec .registerWrite s = .next s)
    ∧ (off = 0x120 → v = 0 → ∃ t, exec .registerWrite s = .next t ∧ t.dcb.mecc = 0)
    ∧ (off = 0x120 → v % 2 ^ 64 ≠ 0 → exec .registerWrite s = .next s)
    ∧ (off = 0x108 → v % 2 ^ 16 < 1000 ∨ 2800 < v % 2 ^ 16 → exec .registerWrite s = .next s)
    ∧ (off = 0x178 → bit s.dcb.fxop 0 = true → exec .registerWrite s = .next s)
    ∧ (off = 0x160 → bit s.dcb.tlbinv 0 = true → exec .registerWrite s = .next s)
    ∧ (off = 0x160 → bit s.dcb.tlbinv 0 = false → ∃ t, exec .registerWrite s = .next t ∧ t.dcb.tlbiasid = v % 2 ^ 16))
  ∧ (∀ off, s.msg = some (.registerRead off) → ∃ t w, exec .registerWrite s = .next t
    ∧ t.host.answers = s.host.answers ++ [(off, w)] ∧ { t with host := s.host } = s
    ∧ (off = 0x168 → w = s.dcb.devnum) ∧ (off = 0x028 → w = s.dcb.stci) ∧ (off < 0x80000 → off % 8 ≠ 0 → w = 0)
    ∧ (∀ g n, s.gang (gdbgKey s.dcb.gdbg) = some g → off = 0x80000 + 128 * n → n < 256 → n < g.av →
      w = if g.halted = true then g.v n 0 + 2 ^ 32 * g.v n 1 else 0))
  ∧ (∀ off g, s.msg = some (.debugWindowWrite off v) → s.gang (gdbgKey s.dcb.gdbg) = some g →
    (g.halted = false ∨ off % 8 ≠ 0 → exec .debugWindowWrite s = .next s)
    ∧ (g.halted = true → off % 8 = 0 → off < 0x8000 → off / 128 < g.av → ∃ t g', exec .debugWindowWrite s = .next t
      ∧ t.gang (gdbgKey s.dcb.gdbg) = some g' ∧ g'.sreg = g.sreg ∧ g'.v (off / 128) (off / 4 % 32) = v % 2 ^ 32
      ∧ g'.v (off / 128) (off / 4 % 32 + 1) = v / 2 ^ 32 % 2 ^ 32)
    ∧ (g.halted = true → off % 8 = 0 → 0x8000 ≤ off → off < 0xC000 → (off - 0x8000) / 4 < g.asz → ∃ t g',
      exec .debugWindowWrite s = .next t ∧ t.gang (gdbgKey s.dcb.gdbg) = some g' ∧ g'.vreg = g.vreg
      ∧ g'.u ((off - 0x8000) / 4) = v % 2 ^ 32 ∧ g'.u ((off - 0x8000) / 4 + 1) = v / 2 ^ 32 % 2 ^ 32))

/-! ### Gating, resets, power and attestation (R111, R115, R116, R457, R470 to R473) -/

/-- R111, R115, R116, R457, R470 to R472: gating and waking of ways and segments, patrol scrubbing, level samples, the resets, clocks
and the idle levels.  Derived: a failed image's digest reads 0, as the model chooses (log entry 53).  Which groups are gated, and which clocks are chosen, the spec leaves open. -/
def Obligations.PowerAndResets : Prop :=
  ∀ (s : State),
  (∀ unit idx grp, idx < 128 → grp < 28 →
    (s.msg = some (.wayGate unit idx grp) →
      (unit = 0 → (s.core idx).l1Gated < 3 → ∃ t, exec .wayGate s = .next t ∧ (t.core idx).l1Gated = (s.core idx).l1Gated + 1)
      ∧ (unit = 1 → ∃ t, exec .wayGate s = .next t ∧ (t.slGated idx = s.slGated idx ∨ t.slGated idx = s.slGated idx + 1))
      ∧ (unit = 2 → bit (s.core idx).gatedSeg grp = false →
        (∀ u ∈ (s.useOf idx).st, u.1 = 0 → 8192 * (grp + 1) ≤ u.2.1 ∨ u.2.1 + u.2.2 ≤ 8192 * grp) → ∃ t, exec .wayGate s = .next t
          ∧ bit (t.core idx).gatedSeg grp = true ∧ ∀ a, 8192 * grp ≤ a → a < 8192 * (grp + 1) → SMap.get (t.core idx).shared a = 0))
    ∧ (s.msg = some (.wayWakeDone unit idx grp) →
      (unit = 0 → ∃ t, exec .wayWakeDone s = .next t ∧ (t.core idx).l1Gated = (s.core idx).l1Gated - 1)
      ∧ (unit = 2 → bit (s.core idx).gatedSeg grp = true → ∃ t, exec .wayWakeDone s = .next t
        ∧ bit (t.core idx).gatedSeg grp = false ∧ bit (t.core idx).clearSeg grp = true
        ∧ (s.cycle + 256, .segmentClearDone idx grp) ∈ t.timers))
    ∧ (s.msg = some (.segmentClearDone idx grp) → ∃ t, exec .segmentClearDone s = .next t ∧ bit (t.core idx).clearSeg grp = false))
  ∧ (∀ addr bad, s.msg = some (.patrolScrub addr bad) → (populated addr = false → exec .patrolScrub s = .next s)
    ∧ (populated addr = true → ∃ t, exec .patrolScrub s = .next t ∧ (bad = true → (t.lm (addr / 128)).poison = true)
      ∧ (bad = false → t.dcb.mecc = min (s.dcb.mecc + 1) (2 ^ 64 - 1) ∧ t.lmeta = s.lmeta)))
  ∧ (∀ core, s.msg = some (.levelSample core) → ∃ t, exec .levelSample s = .next t
    ∧ (t.core core).recs.length = (s.core core).recs.length
    ∧ (∀ (n : Nat) r, (s.core core).recs[n]? = some r → r.en = true → r.evt = 15 →
      (t.core core).recs[n]? = some (r.sample (s.requests core)))
    ∧ (∀ (n : Nat) r, (s.core core).recs[n]? = some r → r.en = true → r.evt = 16 →
      (t.core core).recs[n]? = some (r.sample (s.eng.tileQ.filter (fun q => q.1 == core)).length))
    ∧ ∀ (n : Nat) r, (s.core core).recs[n]? = some r → r.en = false ∨ (r.evt ≠ 15 ∧ r.evt ≠ 16) → (t.core core).recs[n]? = some r)
  ∧ (∀ cause, s.msg = some (.wholeDeviceReset cause) → ∃ t, exec .wholeDeviceReset s = .next t ∧ t.gangs = [] ∧ t.cores = []
    ∧ t.coh.lines = [] ∧ t.dcb = State.reset.dcb ∧ t.host.resets = s.host.resets + 1
    ∧ (t.host.booted = true ↔ ∀ i, i < 8 → cause / 16 ≠ i + 1))
  ∧ (s.msg = some .thermalTrip → ∃ t, exec .thermalTrip s = .next t ∧ t.host.off = true ∧ t.gangs = [])
  ∧ (s.msg = some .modulePowerOn → ∃ t, exec .modulePowerOn s = .next t ∧ t.host.off = false ∧ (s.host.off = false → t = s))
  ∧ (s.msg = some .clockAdjust → ∃ t, exec .clockAdjust s = .next t ∧ (∀ c ∈ t.host.clocks, 700 ≤ c ∧ c ≤ 1400 ∧ c % 50 = 0)
    ∧ t.dcb.pwrst / 2 ^ 16 ≤ fld s.dcb.pwrctl 0 16 ∧ t.gangs = s.gangs ∧ t.mem = s.mem)
  ∧ (s.msg = some .idleEntry →
    (s.isIdle = false ∨ s.host.idle ≠ 0 ∨ idleLevel s.dcb.lattol = 0 → exec .idleEntry s = .next s)
    ∧ (s.isIdle = true → s.host.idle = 0 → idleLevel s.dcb.lattol ≠ 0 → (∀ kc ∈ s.cores, ∀ x ∈ kc.2.l1, x.dirty = 0) →
      s.isQuiet = true → ∃ t, exec .idleEntry s = .next t ∧ t.host.idle = idleLevel s.dcb.lattol
        ∧ (idleLevel s.dcb.lattol = 2 → ∀ kc ∈ t.cores, kc.2.shared = [])
        ∧ (3 ≤ idleLevel s.dcb.lattol → t.cores = [] ∧ t.coh.lines = [])))
  ∧ (s.msg = some .wake → ∃ t, exec .wake s = .next t ∧ t.host.idle = 0 ∧ t.pending = s.pending
    ∧ (s.host.idle ≠ 4 → t.gangs = s.gangs ∧ t.mem = s.mem) ∧ (s.host.idle = 4 → t.gangs = []))

/-- R473: the mailbox answers each request with a response; GET_MEASUREMENTS with the digest of its slot, any other request with an
error.  Codes are PRESUMED from SPDM 1.2 (log entry 36). -/
def Obligations.MailboxAnswers : Prop :=
  ∀ (s : State),
  (∀ p ∈ [(Instr.getVersion, Msg.getVersion, 0x84), (.getCapabilities, .getCapabilities, 0xE1), (.getDigests, .getDigests, 0x81)],
    s.msg = some p.2.1 → ∃ t x, exec p.1 s = .next t ∧ t.host.answers = s.host.answers ++ [(p.2.2, x)] ∧ { t with host := s.host } = s)
  ∧ (∀ a b c, ∀ p ∈ [(Instr.negotiateAlgorithms, Msg.negotiateAlgorithms a, 0xE3), (.getCertificate, .getCertificate a b c, 0x82),
      (.challenge, .challenge a b, 0x83), (.spdmUnsupported, .spdmUnsupported a, 0x7F)],
    s.msg = some p.2.1 → ∃ t x, exec p.1 s = .next t ∧ t.host.answers = s.host.answers ++ [(p.2.2, x)] ∧ { t with host := s.host } = s)
  ∧ (∀ i, s.msg = some (.getMeasurements i) → ∃ t, exec .getMeasurements s = .next t
    ∧ t.host.answers = s.host.answers ++ [(0xE0, s.host.meas.getD i 0)] ∧ { t with host := s.host } = s)

/-! ### The machine as a whole -/

/-- R11, R214, R278, R285, R440: outside a handler, a register beyond the allotment's reachable part raises BOUNDS and a division by
zero DIVZ: the gang's cause is set, no register is written, its slices stay at the bundle, and with the cause enabled its entry is
asked for.
R19, R322, R325, R43: outside a handler, a memory instruction with a lane that fails a check raises the cause of the check, whatever
the form: a load, an access made once, or one whose lanes all fail (of a vector store or atomic, the device may have performed lanes that
passed, log entry 14); one that the task forbids raises what forbids it.  Formation comes first, then the alignment of the access's
width, then the space's own checks.  A load that its line's owner refuses raises the cause when it returns.
R208, R218, R219, R239, R299, R344: outside a handler, an enabled floating-point exception raises FPX with FPSTAT changed and no
result; a BRV that would push on a full stack STKOV; a REGANG of fragments whose windows differ REGMM, and one that waits for a fragment
at another mask REGDL; a JMPR to an address that is no bundle's ALIGN. -/
def Obligations.RegisterInstructionsTrap : Prop :=
  (∀ (s : State) (i : Issue) (g : Gang) (f : Frag) (x : RegOp), Issuing s i g f → g.retired = false → g.hm = false →
  ∀ p ∈ [(Instr.sadd x, true, cBOUNDS), (.ssub x, true, cBOUNDS), (.smul x, true, cBOUNDS), (.sand x, true, cBOUNDS),
      (.sor x, true, cBOUNDS), (.sxor x, true, cBOUNDS), (.vadd x, false, cBOUNDS), (.vsub x, false, cBOUNDS),
      (.vmul x, false, cBOUNDS), (.vand x, false, cBOUNDS), (.vor x, false, cBOUNDS), (.vxor x, false, cBOUNDS),
      (.sdiv x, true, cDIVZ), (.srem x, true, cDIVZ), (.vdiv x, false, cDIVZ), (.vrem x, false, cDIVZ)],
  (p.2.2 = cBOUNDS → p.2.1 = true → ∃ n ∈ regs (isWide x.t) (f.ur x.d), g.asz - 32 ≤ n) →
  (p.2.2 = cBOUNDS → p.2.1 = false → ∃ n ∈ regs (isWide x.t) (f.vr x.d), g.av - 16 ≤ n) →
  (p.2.2 = cDIVZ → p.2.1 = true → Clear s i g [] (regs (isWide x.t) (f.ur x.d) ++ regs (isWide x.t) (f.ur x.a)
    ++ regs (isWide x.t) (f.ur x.b)) ∧ tVal x.t (g.uw (isWide x.t) (f.ur x.b)) = 0) →
  (p.2.2 = cDIVZ → p.2.1 = false → Clear s i g (regs (isWide x.t) (f.vr x.d) ++ regs (isWide x.t) (f.vr x.a)
    ++ regs (isWide x.t) (f.vr x.b)) [] ∧ ∃ l, l < 32 ∧ bit (g.act f x.m) l = true
      ∧ tVal x.t (g.vw (isWide x.t) (f.vr x.b) l) = 0) →
  ∃ t h, exec p.1 s = .next t ∧ t.gang i.key = some h ∧ bit h.tcause p.2.2 = true ∧ h.slices = g.slices ∧ h.sreg = g.sreg
    ∧ h.vreg = g.vreg ∧ (∀ k, k ≠ i.key → t.gang k = s.gang k) ∧ t.mem = s.mem
    ∧ (bit g.tmask p.2.2 = true → g.halted = false → g.entryDue = false → .trapEntry i.key ∈ t.pending))
  ∧ ((∀ (s : State) (i : Issue) (g : Gang) (f : Frag), Issuing s i g f → g.retired = false → g.hm = false →
    (∀ x : MemOp, ∀ p ∈ [(Instr.vld x, vmemReq (.vld x) 0 x g f, vmemPlan false x g f), (.sld x, smemReq (.sld x) 0 x.m.ord x g f,
        smemPlan false x g f), (.slda x, smemReq (.slda x) 0 1 x g f, smemPlan false x g f), (.vst x, vmemReq (.vst x) 1 x g f,
        vmemPlan true x g f), (.sst x, smemReq (.sst x) 1 x.m.ord x g f, smemPlan true x g f), (.sstr x, smemReq (.sstr x) 1 2 x g f,
        smemPlan true x g f)],
      Clear s i g p.2.2.useV p.2.2.useU →
      (∀ c, g.taskRefuses p.2.1 = some c → ∃ t h, exec p.1 s = .next t ∧ Trapped s t i g h c)
      ∧ (g.taskRefuses p.2.1 = none → (∀ c ∈ s.checkAll i g f p.2.1, c.2 ≠ .wait ∧ ∀ va, c.2 ≠ .walk va) →
        p.2.1.kind = 0 ∨ p.2.1.one = true ∨ (∀ c ∈ s.checkAll i g f p.2.1, ∃ e, c.2 = .bad e) →
        ∀ c ∈ s.checkAll i g f p.2.1, ∀ e, c.2 = .bad e → ∃ t h, exec p.1 s = .next t ∧ Trapped s t i g h (causeOfSub e)))
    ∧ (∀ x : AtomOp, ∀ p ∈ [(Instr.vatmSwap x, vatomReq (.vatmSwap x) 0 x g f, vatomPlan false x g f), (.vatmAdd x,
        vatomReq (.vatmAdd x) 1 x g f, vatomPlan false x g f), (.vcas x, vatomReq (.vcas x) 15 x g f, vatomPlan true x g f),
        (.satmSwap x, satomReq (.satmSwap x) 0 x g f, satomPlan false x g f), (.satmAdd x, satomReq (.satmAdd x) 1 x g f,
        satomPlan false x g f), (.scas x, satomReq (.scas x) 15 x g f, satomPlan true x g f)],
      Clear s i g p.2.2.useV p.2.2.useU →
      (∀ c, g.taskRefuses p.2.1 = some c → ∃ t h, exec p.1 s = .next t ∧ Trapped s t i g h c)
      ∧ (g.taskRefuses p.2.1 = none → (∀ c ∈ s.checkAll i g f p.2.1, c.2 ≠ .wait ∧ ∀ va, c.2 ≠ .walk va) →
        p.2.1.one = true ∨ (∀ c ∈ s.checkAll i g f p.2.1, ∃ e, c.2 = .bad e) →
        ∀ c ∈ s.checkAll i g f p.2.1, ∀ e, c.2 = .bad e → ∃ t h, exec p.1 s = .next t ∧ Trapped s t i g h (causeOfSub e))))
  ∧ (∀ (s : State) (key : Nat) (g : Gang) (f : Frag) (sp n kind lane a : Nat), let chk := s.checkAcc key g f sp n kind lane
    (∀ sub, chk (a, some sub) = .bad sub)
    ∧ (a % n ≠ 0 → chk (a, none) = .bad subALIGN)
    ∧ (a % n = 0 → sp = 1 → 2 ^ 57 ≤ a → chk (a, none) = .bad subNONCANON)
    ∧ (a % n = 0 → sp = 6 → kind = 1 → chk (a, none) = .bad subKSTORE)
    ∧ (∀ l, a % n = 0 → sp = 6 → kind ≠ 1 → s.launch g.launch = some l → l.csize < a + n → chk (a, none) = .bad subSPACE))
  ∧ [subALIGN, subNONCANON, subKSTORE, subSPACE, subNOOBJ].map causeOfSub = [cALIGN, cPAGEF, cPROT, cBOUNDS, cOBJF]
  ∧ (∀ (s : State) (k o : Nat) (g : Gang) (x : Op), s.msg = some (.loadReturn k o) → s.gang k = some g → g.retired = false →
    g.hm = false → g.ops.get o = some x → g.headOf 0 = some (o, x) → x.cls = 0 → x.code = 0 → (∀ a ∈ x.accs, a.err < 256 ∧ a.bad = false) →
    ({ g with ops := g.ops.erase o } : Gang).headOf 0 = none →
    ∃ t h, exec .loadReturn s = .next t ∧ t.gang k = some h ∧ h.ops = g.ops.erase o ∧ t.mem = s.mem
      ∧ ∀ a ∈ x.accs, a.err ≠ 0 → bit h.tcause (causeOfSub a.err) = true))
  ∧ (∀ (s : State) (i : Issue) (g : Gang) (f : Frag), Issuing s i g f → g.retired = false → g.hm = false →
  (∀ p ∈ [(Instr.vfadd, fun fm rm sat => fadd fm rm sat false), (Instr.vfsub, fun fm rm sat => fadd fm rm sat true),
      (Instr.vfmul, fmul), (Instr.vfdiv, fdiv)], ∀ (x : RegOp), let w := isF64 x.t
    let r (l : Nat) := vfLane x.t (fun fm a b _ => p.2 fm (g.rm x.m) x.m.sat a b) (g.vw w (f.vr x.a) l) (g.vw w (f.vr x.b) l) 0
    let flags := orAll ((laneList (g.act f x.m)).map (fun l => (r l).2))
    Clear s i g (regs w (f.vr x.d) ++ regs w (f.vr x.a) ++ regs w (f.vr x.b)) [] → fpxRaised g.fpctl flags = true →
    ∃ t h, exec (p.1 x) s = .next t ∧ Trapped s t i g h cFPX ∧ h.fpstat = g.fpstat ||| flags)
  ∧ (∀ p ∈ [(Instr.sfadd, fun fm rm sat => fadd fm rm sat false), (Instr.sfmul, fmul)], ∀ (x : RegOp), let w := isF64 x.t
    let r := p.2 (if w then f64 else f32) (g.rm x.m) x.m.sat (g.uw w (f.ur x.a)) (g.uw w (f.ur x.b))
    Clear s i g [] (regs w (f.ur x.d) ++ regs w (f.ur x.a) ++ regs w (f.ur x.b)) → fpxRaised g.fpctl r.2 = true →
    ∃ t h, exec (p.1 x) s = .next t ∧ Trapped s t i g h cFPX ∧ h.fpstat = g.fpstat ||| r.2)
  ∧ (∀ x : BrvOp, Clear s i g [] [] → let sel := if x.neg then andNot allLanes (g.mask f x.m) else g.mask f x.m
    ∀ n, n < 8 → bit f.slices n = true → let a := g.sliceActive n (g.slice n)
      a &&& fld sel (4 * n) 4 ≠ 0 → andNot a (a &&& fld sel (4 * n) 4) ≠ 0 → 16 ≤ (g.slice n).stk.length →
      ∃ t h, exec (.brv x) s = .next t ∧ Trapped s t i g h cSTKOV)
  ∧ (∀ m, Clear s i g [] [] → andNot (g.fragSlices f) m = 0 → (g.frags.map (·.1)).Nodup →
    ((∀ kf ∈ g.regangFrags m, kf.1 ≠ i.frag → ∃ nx, kf.2.wait = .regang m nx) →
      (∃ kf ∈ g.regangFrags m, kf.1 ≠ i.frag ∧ (kf.2.xv ≠ f.xv ∨ kf.2.xs ≠ f.xs)) →
      ∃ t h, exec (.regang m) s = .next t ∧ Trapped s t i g h cREGMM)
    ∧ ((∃ kf ∈ g.regangFrags m, kf.1 ≠ i.frag ∧ ∃ m' nx, m' ≠ m ∧ kf.2.wait = .regang m' nx) →
      ∃ t h, exec (.regang m) s = .next t ∧ Trapped s t i g h cREGDL))
  ∧ (∀ a, Clear s i g [] [f.ur a, f.ur a + 1] → g.up (f.ur a) % 4 ≠ 0 →
    ∃ t h, exec (.jmpr a) s = .next t ∧ Trapped s t i g h cALIGN))

/-- R226, R253 to R255, R268, R430: a step passes a cycle and performs the oldest message if there is one; else it performs the
decoded bundle of the fragment chosen, with the bundle's place recorded and the lines it was fetched from the last of the buffer to be
replaced (an event record of the core may count the wait, and of the state nothing else changes); words that do not decode raise
ILLEGAL.  Derived: of the bundles that could issue, how the model chooses one a step is its choice (log entry 7). -/
def Obligations.StepRunsDecodedInstruction : Prop :=
  ∀ (s : State),
  (∀ m rest, s.tick.pending = m :: rest → s.host.off = false → s.host.booted = true → s.host.idle = 0 →
    step s = exec m.kind { s.tick with pending := rest, msg := some m,
                                       host := { s.host with lastReq := if m.wakes then s.cycle + 1 else s.host.lastReq } })
  ∧ (∀ k fr g f ws, s.tick.pending = [] → s.host.off = false → s.tick.pick = some (k, fr) → s.tick.gang k = some g →
    g.frags.get fr = some f → s.tick.fetchWords (coreOf k) (s.tick.space g).1 5 (g.pcOf f) [] = .ok ws →
    (∀ b, decode ws = .ok b → (b.instr ≠ .join → ∀ n < 8, bit f.slices n = true → (g.slice n).atRc (g.pcOf f) = false) →
      g.interlocked f b.instr = false →
        let base := (g.pcOf f + 4 * (b.words - 1)) % 2 ^ 64
        let r := (s.tick.ibufUse (coreOf k) (s.tick.space g).1 base).ibufUse (coreOf k) (s.tick.space g).1 (g.pcOf f)
        let q := { r with issue := some ⟨k, fr, g.pcOf f, base, if b.hnt = 0 then none else some b.hnt⟩ }
        (∀ t, exec b.instr q = .next t → ∃ u, step s = .next u ∧ { u with cores := t.cores } = t)
        ∧ (∀ e, exec b.instr q = .fault e → step s = .fault e) ∧ (∀ e, exec b.instr q = .refused e → step s = .refused e)
        ∧ { r with cores := s.cores } = s.tick ∧ r.gangs = s.gangs ∧ r.mem = s.mem ∧ r.cycle = s.cycle + 1 ∧ r.pending = [] ∧ r.msg = none)
    ∧ (∀ e, decode ws = .error e → g.retired = false → g.hm = false → ∃ t h, step s = .next t ∧ t.gang k = some h
      ∧ bit h.tcause cILLEGAL = true ∧ h.slices = g.slices ∧ h.sreg = g.sreg ∧ h.vreg = g.vreg))

/-- The invariant of physical memory: its canonical form (addresses strictly rising, no entry that reads as an unlisted address
does; log entry 1) is kept by every step. -/
def Obligations.MemoryStaysCanonical : Prop :=
  ∀ (s t : State), s.MemOk → step s = .next t → t.MemOk

/-- R360, R441, R444, R126, R129: every step keeps what holds of the state between steps: a gang is in its handler exactly while it
holds the state it left, its vector is a bundle's address, a slot holds one gang, a die one copy of a line, the directory one entry. -/
def Obligations.StateStaysWellFormed : Prop :=
  ∀ (s t : State), StateOk s → step s = .next t → StateOk t

/-- A step takes one cycle, whatever it performs. -/
def Obligations.StepsTakeOneCycle : Prop :=
  ∀ (s t : State), step s = .next t → t.cycle = s.cycle + 1

/-- R188, R472 and the reset values of R63, R70, R141, R149, R418, R461 and R471: at reset no gang, block or launch exists, the
caches, durable queues and fabric are empty, the stated registers have their stated values, and memory is in canonical form. -/
def Obligations.ResetState : Prop :=
  let r := State.reset
  r.MemOk ∧ StateOk r ∧ r.gangs = [] ∧ r.sched.blocks = [] ∧ r.sched.launches = [] ∧ r.cores = [] ∧ r.coh.lines = [] ∧ r.coh.dir = []
    ∧ r.rcv.dq = [] ∧ r.rcv.rcpt = [] ∧ r.fab.loc = [] ∧ r.devSet = false
    ∧ r.fab.reqs = [] ∧ r.fab.migs = [] ∧ r.fab.inbound = [] ∧ r.fab.frees = [] ∧ r.fab.pod = [] ∧ r.fab.outbox = []
    ∧ r.fab.colTab = [] ∧ r.fab.colOpen = [] ∧ r.eng.walks = [] ∧ r.eng.regens = []
    ∧ fld r.dcb.migctl 16 8 = 16 ∧ bit r.dcb.migctl 0 = true ∧ bit r.dcb.migctl 1 = true ∧ bit r.dcb.migctl 2 = false
    ∧ bit r.dcb.migctl 3 = true
    ∧ r.dcb.stci = 2 ^ 30 ∧ r.dcb.frto = 28000 ∧ r.dcb.pto = 2800000 ∧ r.dcb.hbto = 2800000 ∧ r.dcb.regto = 2 ^ 24
    ∧ fld r.dcb.pwrctl 0 16 = 2800 ∧ (∀ n, n < 64 → lqEn (r.lqcfg n) = false) ∧ (∀ n, n < 64 → rrdEn (r.rrd n) = false)

/-- R253 to R272: for every well-formed instruction that has an encoding, decoding its words gives it back with every operand, at
the length of those words. -/
def Obligations.DecodeInvertsEncode : Prop :=
  ∀ (i : Instr) (ws : List Nat), i.check = none → encode i = some ws → decode ws = .ok ⟨i, 0, ws.length⟩

/-- Words written out from the encoding tables of R262, R267, R277, R282 and R285 decode to the instructions they
stand for; the all-zero word and a reserved major opcode do not decode. -/
def Obligations.WordsDecode : Prop :=
  decode [0b001001_000011_000100_000101_00_000000] = .ok ⟨.sadd ⟨Modx.none, 0, 3, 4, 5⟩, 0, 1⟩
  ∧ decode [0b000001_000110_000111_001000_00_000001] = .ok ⟨.vsub ⟨Modx.none, 0, 6, 7, 8⟩, 0, 1⟩
  ∧ decode [0b111111_00_000000000000000000000001, 0b001010_000011_000100_0000_0000000010]
    = .ok ⟨.saddS32Imm ⟨Modx.none, 3, 4, 1026⟩, 0, 2⟩
  ∧ (∃ e, decode [0] = .error e) ∧ (∃ e, decode [0b111110 * 2 ^ 26] = .error e)
end

