-- ==== Sys2Proof/Laws/Store.lean ====
section
/-! SUPPORT. Laws of the containers: a read after a write, what a write leaves alone, and that every memory operation keeps
the canonical form. -/

namespace Sys2Proof.Machine

/-! ### Reads after writes -/

@[simp] theorem SMap.get_nil {w : Nat} (k : Nat) : SMap.get ([] : SMap w) k = 0 := rfl

theorem SMap.get_cons {w : Nat} (k' : Nat) (v : BitVec w) (m : SMap w) (k : Nat) :
    SMap.get ((k', v) :: m) k = if k' = k then v else SMap.get m k := rfl

theorem SMap.get_insert {w : Nat} (m : SMap w) (k : Nat) (v : BitVec w) (k' : Nat) :
    (SMap.insert m k v).get k' = if k = k' then v else m.get k' := by
  induction m with
  | nil => simp [SMap.insert, SMap.get_cons]
  | cons e rest ih =>
    obtain ⟨a, b⟩ := e
    simp only [SMap.insert]
    split
    · simp [SMap.get_cons]
    · split
      · subst_vars; simp only [SMap.get_cons]; split <;> simp_all
      · simp only [SMap.get_cons, ih]
        by_cases ha : a = k'
        · subst ha; simp_all
        · simp [ha]

theorem SMap.get_filter {w : Nat} (p : Nat → Bool) (m : SMap w) (k : Nat) :
    SMap.get (m.filter (fun kv => p kv.1)) k = if p k then m.get k else 0 := by
  induction m with
  | nil => simp
  | cons e rest ih =>
    obtain ⟨a, b⟩ := e
    simp only [List.filter_cons, SMap.get_cons]
    by_cases ha : a = k
    · subst ha; by_cases hp : p a <;> simp_all [SMap.get_cons]
    · by_cases hp : p a <;> simp_all [SMap.get_cons]

/-- A read after a write: the value written at its key, and what stood there elsewhere. -/
theorem SMap.get_put {w : Nat} (m : SMap w) (k : Nat) (v : BitVec w) (k' : Nat) :
    (m.put k v).get k' = if k = k' then v else m.get k' := by
  unfold SMap.put
  split
  · rename_i hv
    rw [SMap.get_filter (fun x => x != k)]
    by_cases h : k = k'
    · subst h; simp [hv]
    · simp [h, Ne.symm h]
  · exact SMap.get_insert m k v k'

theorem SMap.get_putAll_of_notMem {w : Nat} (kvs : List (Nat × BitVec w)) (m : SMap w) (k : Nat)
    (h : ∀ kv ∈ kvs, kv.1 ≠ k) : (m.putAll kvs).get k = m.get k := by
  induction kvs generalizing m with
  | nil => rfl
  | cons kv rest ih =>
    have h1 := h kv (by simp)
    have h2 := ih (m.put kv.1 kv.2) (fun x hx => h x (by simp [hx]))
    simpa [SMap.putAll, SMap.get_put, h1] using h2

theorem SMap.get_append {w : Nat} (m n : SMap w) (k : Nat) :
    SMap.get (m ++ n) k = if m.any (fun kv => kv.1 == k) then m.get k else n.get k := by
  induction m with
  | nil => simp
  | cons e rest ih =>
    obtain ⟨a, b⟩ := e
    simp only [List.cons_append, SMap.get_cons, ih, List.any_cons]
    by_cases ha : a = k <;> simp [ha]

theorem SMap.get_of_notAny {w : Nat} (m : SMap w) (k : Nat) (h : m.any (fun kv => kv.1 == k) = false) : m.get k = 0 := by
  induction m with
  | nil => rfl
  | cons e rest ih =>
    obtain ⟨a, b⟩ := e
    simp only [List.any_cons, Bool.or_eq_false_iff, beq_eq_false_iff_ne] at h
    rw [SMap.get_cons, if_neg h.1, ih h.2]

theorem SMap.get_listFrom {w : Nat} (vs : List (BitVec w)) (lo k : Nat) :
    (SMap.listFrom lo vs).get k = if lo ≤ k then vs.getD (k - lo) 0 else 0 := by
  induction vs generalizing lo with
  | nil => simp [SMap.listFrom]
  | cons v rest ih =>
    simp only [SMap.listFrom]
    split
    · rename_i hv
      rw [ih]
      rcases Nat.lt_trichotomy lo k with h | h | h
      · have h2 : k - lo = (k - (lo + 1)) + 1 := by omega
        have h3 : lo + 1 ≤ k := h
        have h4 : lo ≤ k := by omega
        simp only [h3, h4, if_true]
        rw [h2, List.getD_cons_succ]
      · subst h; simp [hv]
      · have h3 : ¬ lo + 1 ≤ k := by omega
        have h4 : ¬ lo ≤ k := by omega
        simp [h3, h4]
    · rw [SMap.get_cons, ih]
      rcases Nat.lt_trichotomy lo k with h | h | h
      · have h2 : k - lo = (k - (lo + 1)) + 1 := by omega
        have h3 : lo + 1 ≤ k := h
        have h4 : lo ≤ k := by omega
        have h5 : ¬ lo = k := by omega
        simp only [h3, h4, h5, if_true, if_false]
        rw [h2, List.getD_cons_succ]
      · subst h; simp
      · have h3 : ¬ lo + 1 ≤ k := by omega
        have h4 : ¬ lo ≤ k := by omega
        have h5 : ¬ lo = k := by omega
        simp [h3, h4, h5]

theorem SMap.listFrom_keys {w : Nat} (vs : List (BitVec w)) (lo : Nat) :
    ∀ kv ∈ SMap.listFrom lo vs, lo ≤ kv.1 ∧ kv.1 < lo + vs.length := by
  induction vs generalizing lo with
  | nil => simp [SMap.listFrom]
  | cons v rest ih =>
    intro kv hkv
    simp only [SMap.listFrom] at hkv
    split at hkv
    · have := ih (lo + 1) kv hkv; simp only [List.length_cons]; omega
    · simp only [List.mem_cons] at hkv
      rcases hkv with h | h
      · subst h; simp only [List.length_cons]; omega
      · have := ih (lo + 1) kv h; simp only [List.length_cons]; omega

/-- A read after a write of a list of values: the listed value in its range, what stood there elsewhere. -/
theorem SMap.get_write {w : Nat} (m : SMap w) (lo : Nat) (vs : List (BitVec w)) (k : Nat) :
    (m.write lo vs).get k = if lo ≤ k ∧ k < lo + vs.length then vs.getD (k - lo) 0 else m.get k := by
  unfold SMap.write
  rw [SMap.get_append, SMap.get_append, SMap.get_filter (fun x => decide (x < lo)),
    SMap.get_filter (fun x => decide (lo + vs.length ≤ x)), SMap.get_listFrom]
  by_cases h1 : k < lo
  · have ha : (SMap.listFrom lo vs).any (fun kv => kv.1 == k) = false := by
      rw [List.any_eq_false]; intro kv hkv
      have := SMap.listFrom_keys vs lo kv hkv
      simp; omega
    have hb : (m.filter (fun kv => decide (lo + vs.length ≤ kv.1))).any (fun kv => kv.1 == k) = false := by
      rw [List.any_eq_false]; intro kv hkv
      simp only [List.mem_filter, decide_eq_true_eq] at hkv
      simp; omega
    have h2 : ¬ (lo ≤ k) := by omega
    have h3 : ¬ (lo + vs.length ≤ k) := by omega
    simp only [h1, h2, h3, decide_true, decide_false, if_true, if_false, false_and, List.any_append, ha, Bool.or_false]
    by_cases hm : (m.filter (fun kv => decide (kv.1 < lo))).any (fun kv => kv.1 == k) = true
    · simp [hm]
    · have hz : m.get k = 0 := by
        have hg := SMap.get_filter (fun x => decide (x < lo)) m k
        simp only [h1, decide_true, if_true] at hg
        rw [← hg]
        exact SMap.get_of_notAny _ k (Bool.eq_false_iff.2 hm)
      simp [hm, hz]
  · have ha : (m.filter (fun kv => decide (kv.1 < lo))).any (fun kv => kv.1 == k) = false := by
      rw [List.any_eq_false]; intro kv hkv
      simp only [List.mem_filter, decide_eq_true_eq] at hkv
      simp; omega
    have h2 : lo ≤ k := by omega
    simp only [List.any_append, ha, Bool.false_or, h2, if_true, true_and]
    by_cases h4 : k < lo + vs.length
    · have h3 : ¬ (lo + vs.length ≤ k) := by omega
      simp only [h4, h3, decide_false, if_true]
      by_cases hm : (SMap.listFrom lo vs).any (fun kv => kv.1 == k) = true
      · simp [hm]
      · have hz : (SMap.listFrom lo vs).get k = 0 := SMap.get_of_notAny _ k (Bool.eq_false_iff.2 hm)
        rw [SMap.get_listFrom, if_pos h2] at hz
        rw [if_neg hm, hz]; simp
    · have h3 : lo + vs.length ≤ k := by omega
      have hm : (SMap.listFrom lo vs).any (fun kv => kv.1 == k) = false := by
        rw [List.any_eq_false]; intro kv hkv
        have := SMap.listFrom_keys vs lo kv hkv
        simp; omega
      simp [h4, h3, hm]

@[simp] theorem bytesOf_length (n v : Nat) : (bytesOf n v).length = n := by
  induction n generalizing v with
  | zero => rfl
  | succ n ih => simp [bytesOf, ih]

theorem bytesOf_getD (n v i : Nat) (h : i < n) : (bytesOf n v).getD i 0 = BitVec.ofNat 8 (v / 256 ^ i) := by
  induction n generalizing v i with
  | zero => omega
  | succ n ih =>
    cases i with
    | zero => simp [bytesOf]
    | succ i =>
      rw [bytesOf, List.getD_cons_succ, ih (v / 256) i (by omega), Nat.div_div_eq_div_mul, ← Nat.pow_succ', Nat.succ_eq_add_one]

/-- A byte of memory after a store: the stored number's byte inside the stored range, what stood there elsewhere. -/
theorem Mem.get_store (m : Mem) (a n v k : Nat) :
    SMap.get (Mem.store m a n v) k
      = if a ≤ k ∧ k < a + n then BitVec.ofNat 8 (v / 256 ^ (k - a)) else SMap.get m k := by
  unfold Mem.store
  rw [SMap.get_write, bytesOf_length]
  split
  · rename_i h
    exact bytesOf_getD n v (k - a) (by omega)
  · rfl

/-! ### The canonical form is kept -/

theorem SMap.wfFrom_weaken {w : Nat} (m : SMap w) (a b : Option Nat) (h : SMap.wfFrom b m = true)
    (hab : ∀ x, a = some x → ∃ y, b = some y ∧ x ≤ y) : SMap.wfFrom a m = true := by
  cases m with
  | nil => rfl
  | cons e rest =>
    obtain ⟨k, v⟩ := e
    simp only [SMap.wfFrom, Bool.and_eq_true] at h ⊢
    refine ⟨⟨?_, h.1.2⟩, h.2⟩
    cases a with
    | none => rfl
    | some x =>
      obtain ⟨y, hy, hle⟩ := hab x rfl
      subst hy
      have := h.1.1
      simp only [decide_eq_true_eq] at this ⊢
      omega

theorem SMap.wfFrom_filter {w : Nat} (p : Nat → Bool) (m : SMap w) (lo : Option Nat) (h : SMap.wfFrom lo m = true) :
    SMap.wfFrom lo (m.filter (fun kv => p kv.1)) = true := by
  induction m generalizing lo with
  | nil => rfl
  | cons e rest ih =>
    obtain ⟨k, v⟩ := e
    simp only [SMap.wfFrom, Bool.and_eq_true] at h
    by_cases hp : p k = true
    · simp only [List.filter_cons, hp, if_true, SMap.wfFrom, Bool.and_eq_true]
      exact ⟨h.1, ih (some k) h.2⟩
    · simp only [List.filter_cons, hp]
      exact SMap.wfFrom_weaken _ lo (some k) (ih (some k) h.2) (by
        intro x hx; subst hx; exact ⟨k, rfl, by have := h.1.1; simp only [decide_eq_true_eq] at this; omega⟩)

theorem SMap.wfFrom_cons {w : Nat} (lo : Option Nat) (k : Nat) (v : BitVec w) (m : SMap w) :
    SMap.wfFrom lo ((k, v) :: m) = true ↔ (∀ x, lo = some x → x < k) ∧ v ≠ 0 ∧ SMap.wfFrom (some k) m = true := by
  cases lo <;> simp [SMap.wfFrom, and_assoc]

theorem SMap.wfFrom_insert {w : Nat} (m : SMap w) (k : Nat) (v : BitVec w) (lo : Option Nat) (hv : v ≠ 0)
    (h : SMap.wfFrom lo m = true) (hlo : ∀ x, lo = some x → x < k) : SMap.wfFrom lo (SMap.insert m k v) = true := by
  induction m generalizing lo with
  | nil => exact (SMap.wfFrom_cons lo k v []).2 ⟨hlo, hv, rfl⟩
  | cons e rest ih =>
    obtain ⟨a, b⟩ := e
    obtain ⟨h1, h2, h3⟩ := (SMap.wfFrom_cons lo a b rest).1 h
    simp only [SMap.insert]
    split
    · rename_i hlt
      exact (SMap.wfFrom_cons _ _ _ _).2 ⟨hlo, hv, (SMap.wfFrom_cons _ _ _ _).2 ⟨by
        intro x hx; injection hx with hx; omega, h2, h3⟩⟩
    · split
      · rename_i _ heq
        subst heq
        exact (SMap.wfFrom_cons _ _ _ _).2 ⟨hlo, hv, h3⟩
      · exact (SMap.wfFrom_cons _ _ _ _).2 ⟨h1, h2, ih (some a) h3 (by intro x hx; injection hx with hx; omega)⟩

/-- A write of one value keeps the canonical form. -/
theorem SMap.wf_put {w : Nat} (m : SMap w) (k : Nat) (v : BitVec w) (h : SMap.wf m = true) : SMap.wf (m.put k v) = true := by
  unfold SMap.put SMap.wf at *
  split
  · exact SMap.wfFrom_filter (fun x => x != k) m none h
  · exact SMap.wfFrom_insert m k v none ‹_› h (by simp)

theorem SMap.wf_putAll {w : Nat} (kvs : List (Nat × BitVec w)) (m : SMap w) (h : SMap.wf m = true) :
    SMap.wf (m.putAll kvs) = true := by
  induction kvs generalizing m with
  | nil => exact h
  | cons kv rest ih => exact ih _ (SMap.wf_put m kv.1 kv.2 h)

theorem SMap.wfFrom_append {w : Nat} (m n : SMap w) (lo : Option Nat) (c : Nat) (hm : SMap.wfFrom lo m = true)
    (hn : SMap.wfFrom none n = true) (hmc : ∀ kv ∈ m, kv.1 < c) (hnc : ∀ kv ∈ n, c ≤ kv.1)
    (hlo : ∀ x, lo = some x → x < c) : SMap.wfFrom lo (m ++ n) = true := by
  induction m generalizing lo with
  | nil =>
    cases n with
    | nil => rfl
    | cons e rest =>
      obtain ⟨a, b⟩ := e
      simp only [List.nil_append, SMap.wfFrom, Bool.and_eq_true] at hn ⊢
      refine ⟨⟨?_, hn.1.2⟩, hn.2⟩
      cases lo with
      | none => rfl
      | some x => have h1 := hlo x rfl; have h2 := hnc (a, b) (by simp); simp; simp at h2; omega
  | cons e rest ih =>
    obtain ⟨a, b⟩ := e
    simp only [List.cons_append, SMap.wfFrom, Bool.and_eq_true] at hm ⊢
    refine ⟨hm.1, ih (some a) hm.2 (fun kv hkv => hmc kv (by simp [hkv])) ?_⟩
    intro x hx; injection hx with hx; have := hmc (a, b) (by simp); simp at this; omega

theorem SMap.wfFrom_listFrom {w : Nat} (vs : List (BitVec w)) (lo : Nat) (b : Option Nat)
    (hb : ∀ x, b = some x → x < lo) : SMap.wfFrom b (SMap.listFrom lo vs) = true := by
  induction vs generalizing lo b with
  | nil => rfl
  | cons v rest ih =>
    simp only [SMap.listFrom]
    split
    · exact ih (lo + 1) b (fun x hx => by have := hb x hx; omega)
    · rename_i hv
      exact (SMap.wfFrom_cons b lo v _).2
        ⟨hb, hv, ih (lo + 1) (some lo) (fun x hx => by injection hx with hx; omega)⟩

/-- A write of a list of values keeps the canonical form. -/
theorem SMap.wf_write {w : Nat} (m : SMap w) (lo : Nat) (vs : List (BitVec w)) (h : SMap.wf m = true) :
    SMap.wf (m.write lo vs) = true := by
  unfold SMap.write SMap.wf at *
  refine SMap.wfFrom_append _ _ none (lo + vs.length) (SMap.wfFrom_append _ _ none lo ?_ ?_ ?_ ?_ (by simp)) ?_ ?_ ?_ (by simp)
  · exact SMap.wfFrom_filter (fun x => decide (x < lo)) m none h
  · exact SMap.wfFrom_listFrom vs lo none (by simp)
  · intro kv hkv; simp only [List.mem_filter, decide_eq_true_eq] at hkv; exact hkv.2
  · intro kv hkv; exact (SMap.listFrom_keys vs lo kv hkv).1
  · exact SMap.wfFrom_filter (fun x => decide (lo + vs.length ≤ x)) m none h
  · intro kv hkv
    rcases List.mem_append.1 hkv with h1 | h1
    · simp only [List.mem_filter, decide_eq_true_eq] at h1; omega
    · exact (SMap.listFrom_keys vs lo kv h1).2
  · intro kv hkv; simp only [List.mem_filter, decide_eq_true_eq] at hkv; exact hkv.2

/-- A store of bytes keeps the canonical form of memory. -/
theorem Mem.wf_store (m : Mem) (a n v : Nat) (h : Memory.wf m = true) : Memory.wf (Mem.store m a n v) = true :=
  SMap.wf_write m a (bytesOf n v) h

/-- A masked store keeps the canonical form of memory. -/
theorem Mem.wf_storeMasked (m : Mem) (a n v mask : Nat) (h : Memory.wf m = true) :
    Memory.wf (Mem.storeMasked m a n v mask) = true := by
  unfold Mem.storeMasked
  generalize List.range n = is
  induction is generalizing m with
  | nil => exact h
  | cons i rest ih =>
    simp only [List.foldl_cons]
    apply ih
    split
    · exact SMap.wf_put m (a + i) _ h
    · exact h

/-! ### Tables -/

theorem Tab.get_cons {α : Type} (k' : Nat) (v : α) (t : Tab α) (k : Nat) :
    Tab.get ((k', v) :: t) k = if k' = k then some v else Tab.get t k := by
  by_cases h : k' = k <;> simp [Tab.get, h]

@[simp] theorem Tab.get_nil {α : Type} (k : Nat) : Tab.get ([] : Tab α) k = none := rfl

/-- A table after a record is set: that record at its key, the others as before. -/
theorem Tab.get_set {α : Type} (t : Tab α) (k : Nat) (v : α) (k' : Nat) :
    (t.set k v).get k' = if k = k' then some v else t.get k' := by
  induction t with
  | nil => simp [Tab.set, Tab.get_cons]
  | cons e rest ih =>
    obtain ⟨a, b⟩ := e
    simp only [Tab.set]
    split
    · rename_i h; subst h; simp only [Tab.get_cons]; split <;> simp_all
    · simp only [Tab.get_cons, ih]
      by_cases ha : a = k'
      · subst ha; simp_all [Ne.symm]
      · simp [ha]

@[simp] theorem Tab.get_set_self {α : Type} (t : Tab α) (k : Nat) (v : α) : (t.set k v).get k = some v := by
  simp [Tab.get_set]

theorem Tab.get_set_ne {α : Type} (t : Tab α) (k : Nat) (v : α) (k' : Nat) (h : k' ≠ k) :
    (t.set k v).get k' = t.get k' := by
  simp [Tab.get_set, Ne.symm h]

/-- A table after a record is removed. -/
theorem Tab.get_erase {α : Type} (t : Tab α) (k k' : Nat) : (t.erase k).get k' = if k = k' then none else t.get k' := by
  induction t with
  | nil => simp [Tab.erase]
  | cons e rest ih =>
    obtain ⟨a, b⟩ := e
    simp only [Tab.erase] at ih
    simp only [Tab.erase, List.filter_cons]
    by_cases ha : a = k
    · subst ha; simp only [bne_self_eq_false, Tab.get_cons]; split <;> simp_all
    · have : (a != k) = true := by simp [ha]
      simp only [this, if_true, Tab.get_cons, ih]
      by_cases hk : a = k'
      · subst hk; simp [Ne.symm ha]
      · simp [hk]

end Sys2Proof.Machine
end

