-- ==== Sys2Proof/Laws/Operands.lean ====
section
/-! SUPPORT. Laws of lane masks and of the register files: what a read sees after the writes of a plan. -/

namespace Sys2Proof.Machine

/-! ### Lane masks -/

theorem bit_eq_testBit (w n : Nat) : bit w n = w.testBit n := by
  rw [bit, Nat.testBit_eq_decide_div_mod_eq, beq_eq_decide]

@[simp] theorem bit_andNot (a b l : Nat) : bit (andNot a b) l = (bit a l && !bit b l) := by
  simp only [andNot, bit_eq_testBit, Nat.testBit_xor, Nat.testBit_and]
  cases a.testBit l <;> cases b.testBit l <;> rfl

theorem bit_or (a b l : Nat) : bit (a ||| b) l = (bit a l || bit b l) := by simp [bit_eq_testBit]
theorem bit_and (a b l : Nat) : bit (a &&& b) l = (bit a l && bit b l) := by simp [bit_eq_testBit]
@[simp] theorem bit_zero (l : Nat) : bit 0 l = false := by simp [bit_eq_testBit]
theorem bit_two_pow (n l : Nat) : bit (2 ^ n) l = decide (n = l) := by
  simp [bit_eq_testBit, Nat.testBit_two_pow]

@[simp] theorem mem_laneList (m l : Nat) : l ∈ laneList m ↔ l < 32 ∧ bit m l = true := by
  simp [laneList]

theorem bit_foldl_or (ls : List Nat) (a l : Nat) :
    bit (ls.foldl (fun a l => a ||| 2 ^ l) a) l = (bit a l || decide (l ∈ ls)) := by
  induction ls generalizing a with
  | nil => simp
  | cons x rest ih =>
    rw [List.foldl_cons, ih, bit_or, bit_two_pow, Bool.or_assoc]
    congr 1
    simp only [List.mem_cons, Bool.decide_or]
    congr 1
    exact decide_eq_decide.2 eq_comm

/-- The mask of a list holds the numbers of the list. -/
@[simp] theorem bit_maskOfList (ls : List Nat) (l : Nat) : bit (maskOfList ls) l = decide (l ∈ ls) := by
  rw [maskOfList, bit_foldl_or]; simp

theorem zeroed_not_act (g : Gang) (f : Frag) (m : Modx) (l : Nat) (h : bit (g.zeroed f m) l = true) :
    bit (g.act f m) l = false := by
  unfold Gang.zeroed at h
  split at h
  · simp at h; exact h.2
  · simp at h

/-! ### Writes of one register file leave the others alone -/

/-- The gang without the contents of its register files. -/
def Gang.noRegs (g : Gang) : Gang := { g with vreg := [], sreg := [], mreg := [], badV := [], badU := [], badM := [], deadsrc := false }

@[simp] theorem Gang.setV_noRegs (g : Gang) (n l v : Nat) : (g.setV n l v).noRegs = g.noRegs := rfl
@[simp] theorem Gang.setU_noRegs (g : Gang) (n v : Nat) : (g.setU n v).noRegs = g.noRegs := rfl
@[simp] theorem Gang.setM_noRegs (g : Gang) (n v : Nat) : (g.setM n v).noRegs = g.noRegs := by
  unfold Gang.setM; split <;> rfl

@[simp] theorem Gang.setV_sreg (g : Gang) (n l v : Nat) : (g.setV n l v).sreg = g.sreg := rfl
@[simp] theorem Gang.setV_mreg (g : Gang) (n l v : Nat) : (g.setV n l v).mreg = g.mreg := rfl
@[simp] theorem Gang.setV_badU (g : Gang) (n l v : Nat) : (g.setV n l v).badU = g.badU := rfl
@[simp] theorem Gang.setV_badM (g : Gang) (n l v : Nat) : (g.setV n l v).badM = g.badM := rfl
@[simp] theorem Gang.setV_deadsrc (g : Gang) (n l v : Nat) : (g.setV n l v).deadsrc = g.deadsrc := rfl
@[simp] theorem Gang.setU_vreg (g : Gang) (n v : Nat) : (g.setU n v).vreg = g.vreg := rfl
@[simp] theorem Gang.setU_mreg (g : Gang) (n v : Nat) : (g.setU n v).mreg = g.mreg := rfl
@[simp] theorem Gang.setU_badV (g : Gang) (n v : Nat) : (g.setU n v).badV = g.badV := rfl
@[simp] theorem Gang.setU_badM (g : Gang) (n v : Nat) : (g.setU n v).badM = g.badM := rfl
@[simp] theorem Gang.setU_deadsrc (g : Gang) (n v : Nat) : (g.setU n v).deadsrc = g.deadsrc := rfl
@[simp] theorem Gang.setM_vreg (g : Gang) (n v : Nat) : (g.setM n v).vreg = g.vreg := by unfold Gang.setM; split <;> rfl
@[simp] theorem Gang.setM_sreg (g : Gang) (n v : Nat) : (g.setM n v).sreg = g.sreg := by unfold Gang.setM; split <;> rfl
@[simp] theorem Gang.setM_badV (g : Gang) (n v : Nat) : (g.setM n v).badV = g.badV := by unfold Gang.setM; split <;> rfl
@[simp] theorem Gang.setM_badU (g : Gang) (n v : Nat) : (g.setM n v).badU = g.badU := by unfold Gang.setM; split <;> rfl
@[simp] theorem Gang.setM_deadsrc (g : Gang) (n v : Nat) : (g.setM n v).deadsrc = g.deadsrc := by
  unfold Gang.setM; split <;> rfl

/-- A uniform register after a write of one. -/
theorem Gang.u_setU (g : Gang) (n v k : Nat) : (g.setU n v).u k = if n = k then v % 2 ^ 32 else g.u k := by
  simp only [Gang.u, Gang.setU, SMap.get_put]
  split <;> simp [BitVec.toNat_ofNat]

/-- A vector element after a write of one. -/
theorem Gang.v_setV (g : Gang) (n l v k j : Nat) (hl : l < 32) (hj : j < 32) :
    (g.setV n l v).v k j = if n = k ∧ l = j then v % 2 ^ 32 else g.v k j := by
  simp only [Gang.v, Gang.setV, SMap.get_put]
  by_cases h : n = k ∧ l = j
  · obtain ⟨rfl, rfl⟩ := h; simp [BitVec.toNat_ofNat]
  · have : ¬ (32 * n + l = 32 * k + j) := by intro h2; apply h; omega
    rw [if_neg this, if_neg h]

/-! ### A list of writes -/

/-- The writes of mask registers of a plan. -/
def Gang.writeM (g : Gang) (ws : List (Nat × Nat)) : Gang := ws.foldl (fun g w => g.setM w.1 w.2) g

theorem Gang.applyPlan_zero (g : Gang) (p : Plan) :
    g.applyPlan p 0 = (let h := ((g.writeV p.wV).writeU p.wU).writeM p.wM; if p.deadsrc then { h with deadsrc := true } else h) := by
  simp [Gang.applyPlan, Gang.writeV, Gang.writeU, Gang.writeM]

/-- What a list of vector writes leaves as it was. -/
theorem Gang.writeV_frame (ws : List (Nat × Nat × Nat)) (g : Gang) (hb : g.badV = []) :
    { g.writeV ws with vreg := g.vreg } = g := by
  induction ws generalizing g with
  | nil => rfl
  | cons w rest ih =>
    have h2 : (g.setV w.1 w.2.1 w.2.2).badV = [] := by simp [Gang.setV, hb]
    have h3 := ih (g.setV w.1 w.2.1 w.2.2) h2
    have h4 : ({ g.setV w.1 w.2.1 w.2.2 with vreg := g.vreg } : Gang) = g := by
      cases g; simp only [Gang.setV] at *; subst hb; rfl
    calc ({ (g.setV w.1 w.2.1 w.2.2).writeV rest with vreg := g.vreg } : Gang)
        = { ({ (g.setV w.1 w.2.1 w.2.2).writeV rest with vreg := (g.setV w.1 w.2.1 w.2.2).vreg } : Gang) with vreg := g.vreg } := rfl
      _ = { g.setV w.1 w.2.1 w.2.2 with vreg := g.vreg } := by rw [h3]
      _ = g := h4

/-- What a list of uniform writes leaves as it was. -/
theorem Gang.writeU_frame (ws : List (Nat × Nat)) (g : Gang) (hb : g.badU = []) :
    { g.writeU ws with sreg := g.sreg } = g := by
  induction ws generalizing g with
  | nil => rfl
  | cons w rest ih =>
    have h2 : (g.setU w.1 w.2).badU = [] := by simp [Gang.setU, hb]
    have h3 := ih (g.setU w.1 w.2) h2
    have h4 : ({ g.setU w.1 w.2 with sreg := g.sreg } : Gang) = g := by
      cases g; simp only [Gang.setU] at *; subst hb; rfl
    calc ({ (g.setU w.1 w.2).writeU rest with sreg := g.sreg } : Gang)
        = { ({ (g.setU w.1 w.2).writeU rest with sreg := (g.setU w.1 w.2).sreg } : Gang) with sreg := g.sreg } := rfl
      _ = { g.setU w.1 w.2 with sreg := g.sreg } := by rw [h3]
      _ = g := h4

theorem Gang.writeV_append (g : Gang) (a b : List (Nat × Nat × Nat)) : g.writeV (a ++ b) = (g.writeV a).writeV b := by
  simp [Gang.writeV]

/-- An element no write of the list names is as it was. -/
theorem Gang.v_writeV_of_notMem (ws : List (Nat × Nat × Nat)) (g : Gang) (n l : Nat) (hl : l < 32)
    (hlane : ∀ w ∈ ws, w.2.1 < 32) (h : ∀ w ∈ ws, ¬ (w.1 = n ∧ w.2.1 = l)) : (g.writeV ws).v n l = g.v n l := by
  induction ws generalizing g with
  | nil => rfl
  | cons w rest ih =>
    have := ih (g.setV w.1 w.2.1 w.2.2) (fun x hx => hlane x (by simp [hx])) (fun x hx => h x (by simp [hx]))
    rw [Gang.writeV, List.foldl_cons]
    rw [Gang.writeV] at this
    rw [this, Gang.v_setV g _ _ _ _ _ (hlane w (by simp)) hl, if_neg (h w (by simp))]

/-- An element that the list names, always with one value, holds that value. -/
theorem Gang.v_writeV_of_mem (ws : List (Nat × Nat × Nat)) (g : Gang) (n l v : Nat) (hl : l < 32)
    (hlane : ∀ w ∈ ws, w.2.1 < 32) (hm : (n, l, v) ∈ ws) (hv : ∀ w ∈ ws, w.1 = n → w.2.1 = l → w.2.2 = v) :
    (g.writeV ws).v n l = v % 2 ^ 32 := by
  induction ws generalizing g with
  | nil => simp at hm
  | cons w rest ih =>
    rw [Gang.writeV, List.foldl_cons, ← Gang.writeV]
    by_cases hr : (n, l, v) ∈ rest
    · exact ih _ (fun x hx => hlane x (by simp [hx])) hr (fun x hx => hv x (by simp [hx]))
    · have hw : w = (n, l, v) := by
        rcases List.mem_cons.1 hm with h | h
        · exact h.symm
        · exact absurd h hr
      have hnone : ∀ x ∈ rest, ¬ (x.1 = n ∧ x.2.1 = l) := by
        rintro ⟨a, b, c⟩ hx ⟨rfl, rfl⟩
        have := hv (a, b, c) (by simp [hx]) rfl rfl
        exact hr (by simpa [← this] using hx)
      rw [Gang.v_writeV_of_notMem rest _ n l hl (fun x hx => hlane x (by simp [hx])) hnone, hw, Gang.v_setV g n l v n l hl hl]
      simp

/-- A register no write of the list names is as it was. -/
theorem Gang.u_writeU_of_notMem (ws : List (Nat × Nat)) (g : Gang) (n : Nat) (h : ∀ w ∈ ws, w.1 ≠ n) :
    (g.writeU ws).u n = g.u n := by
  induction ws generalizing g with
  | nil => rfl
  | cons w rest ih =>
    rw [Gang.writeU, List.foldl_cons, ← Gang.writeU, ih _ (fun x hx => h x (by simp [hx])), Gang.u_setU,
      if_neg (h w (by simp))]

/-! ### Destinations -/

theorem wLane_key (wide : Bool) (n l v : Nat) (w : Nat × Nat × Nat) (h : w ∈ wLane wide n l v) :
    w.1 ∈ regs wide n ∧ w.2.1 = l ∧ w.2.2 = (if w.1 = n then v % 2 ^ 32 else v / 2 ^ 32 % 2 ^ 32) := by
  cases wide <;> simp [wLane, regs] at h ⊢
  · subst h; simp
  · rcases h with h | h <;> subst h <;> simp

theorem mem_wVec (g : Gang) (f : Frag) (m : Modx) (wide : Bool) (n : Nat) (r : Nat → Nat) (w : Nat × Nat × Nat)
    (h : w ∈ wVec g f m wide n r) : ∃ l, l < 32 ∧ w ∈ wLane wide n l (if bit (g.act f m) l then r l else 0)
      ∧ (bit (g.act f m) l = true ∨ bit (g.zeroed f m) l = true) := by
  simp only [wVec, List.mem_append, List.mem_flatMap, mem_laneList] at h
  rcases h with ⟨l, ⟨hl, ha⟩, hw⟩ | ⟨l, ⟨hl, hz⟩, hw⟩
  · exact ⟨l, hl, by simpa [ha] using hw, Or.inl ha⟩
  · exact ⟨l, hl, by simpa [zeroed_not_act g f m l hz] using hw, Or.inr hz⟩

theorem wVec_mem (g : Gang) (f : Frag) (m : Modx) (wide : Bool) (n : Nat) (r : Nat → Nat) (l : Nat) (hl : l < 32)
    (h : bit (g.act f m) l = true ∨ bit (g.zeroed f m) l = true) (w : Nat × Nat × Nat)
    (hw : w ∈ wLane wide n l (if bit (g.act f m) l then r l else 0)) : w ∈ wVec g f m wide n r := by
  simp only [wVec, List.mem_append, List.mem_flatMap, mem_laneList]
  by_cases ha : bit (g.act f m) l = true
  · exact Or.inl ⟨l, ⟨hl, ha⟩, by simpa [ha] using hw⟩
  · rcases h with h | h
    · exact absurd h ha
    · exact Or.inr ⟨l, ⟨hl, h⟩, by simpa [ha] using hw⟩

theorem v_writeV_wVec (g : Gang) (f : Frag) (m : Modx) (wide : Bool) (n : Nat) (r : Nat → Nat) (k l : Nat) (hl : l < 32)
    (v : Nat) (ha : bit (g.act f m) l = true ∨ bit (g.zeroed f m) l = true)
    (hw : (k, l, v) ∈ wLane wide n l (if bit (g.act f m) l then r l else 0)) :
    (g.writeV (wVec g f m wide n r)).v k l = v % 2 ^ 32 := by
  refine Gang.v_writeV_of_mem _ g k l v hl ?_ (wVec_mem g f m wide n r l hl ha _ hw) ?_
  · intro w hw
    obtain ⟨j, hj, hwj, _⟩ := mem_wVec g f m wide n r w hw
    rw [(wLane_key wide n j _ w hwj).2.1]; exact hj
  · intro w hw' h1 h2
    obtain ⟨j, hj, hwj, _⟩ := mem_wVec g f m wide n r w hw'
    have h3 := wLane_key wide n j _ w hwj
    have h4 := wLane_key wide n l _ _ hw
    have : j = l := by rw [← h3.2.1, h2]
    subst this
    rw [h3.2.2, h1]; exact h4.2.2.symm

theorem wide_value (x : Nat) : x % 2 ^ 32 % 2 ^ 32 + 2 ^ 32 * (x / 2 ^ 32 % 2 ^ 32 % 2 ^ 32) = x % 2 ^ 64 := by omega

/-- The vector results of a plan that writes one value per lane. -/
theorem laneOut_writeV (g : Gang) (f : Frag) (m : Modx) (wide : Bool) (n : Nat) (r : Nat → Nat) :
    LaneOut g (g.writeV (wVec g f m wide n r)) f m wide n r := by
  have key : ∀ l, l < 32 → (bit (g.act f m) l = true ∨ bit (g.zeroed f m) l = true) →
      (g.writeV (wVec g f m wide n r)).vw wide n l
        = (if bit (g.act f m) l then r l else 0) % 2 ^ (if wide then 64 else 32) := by
    intro l hl ha
    cases wide with
    | false =>
      simp only [Gang.vw]
      rw [v_writeV_wVec g f m false n r n l hl ((if bit (g.act f m) l then r l else 0) % 2 ^ 32) ha (by simp [wLane])]
      simp
    | true =>
      simp only [Gang.vw, Gang.vp, if_true]
      rw [v_writeV_wVec g f m true n r n l hl ((if bit (g.act f m) l then r l else 0) % 2 ^ 32) ha (by simp [wLane]),
        v_writeV_wVec g f m true n r (n + 1) l hl ((if bit (g.act f m) l then r l else 0) / 2 ^ 32 % 2 ^ 32) ha (by simp [wLane])]
      exact wide_value _
  refine ⟨?_, ?_, ?_⟩
  · intro l hl ha
    rw [key l hl (Or.inl ha), ha]; rfl
  · intro l hl hz
    rw [key l hl (Or.inr hz), zeroed_not_act g f m l hz]; simp
  · intro k l hl h
    refine Gang.v_writeV_of_notMem _ g k l hl ?_ ?_
    · intro w hw
      obtain ⟨j, hj, hwj, _⟩ := mem_wVec g f m wide n r w hw
      rw [(wLane_key wide n j _ w hwj).2.1]; exact hj
    · rintro w hw ⟨h1, h2⟩
      obtain ⟨j, hj, hwj, hor⟩ := mem_wVec g f m wide n r w hw
      have h3 := wLane_key wide n j _ w hwj
      have hjl : j = l := by rw [← h3.2.1, h2]
      subst hjl
      rcases h with h | h
      · exact h (h1 ▸ h3.1)
      · rcases hor with h4 | h4
        · rw [h.1] at h4; exact absurd h4 (by simp)
        · rw [h.2] at h4; exact absurd h4 (by simp)

/-- The uniform result of a plan that writes one register or pair. -/
theorem uniOut_writeU (g : Gang) (wide : Bool) (n v : Nat) : UniOut g (g.writeU (wUni wide n v)) wide n v := by
  refine ⟨?_, ?_⟩
  · cases wide with
    | false => simp [wUni, Gang.writeU, Gang.uw, Gang.u_setU]
    | true =>
      simp only [wUni, Gang.writeU, Gang.uw, Gang.up, List.foldl_cons, List.foldl_nil, Gang.u_setU, if_true]
      have : ¬ (n + 1 = n) := by omega
      simp only [this, if_false]
      exact wide_value v
  · intro k hk
    refine Gang.u_writeU_of_notMem _ g k ?_
    intro w hw
    cases wide <;> simp [wUni, regs] at hw hk
    · subst hw; exact fun h => hk h.symm
    · rcases hw with h | h <;> subst h
      · exact fun h => hk.1 h.symm
      · exact fun h => hk.2 h.symm

theorem maskWrite_lt (g : Gang) (f : Frag) (m : Modx) (md : Nat) (b : Nat → Bool) (l : Nat) (hl : l < 32) :
    bit (BitVec.ofNat 32 (maskWrite g f m md b)).toNat l
      = if bit (g.act f m) l then b l else (!bit (g.zeroed f m) l && bit (g.mreg.get md).toNat l) := by
  have h0 : bit (BitVec.ofNat 32 (maskWrite g f m md b)).toNat l = bit (maskWrite g f m md b) l := by
    rw [BitVec.toNat_ofNat, bit_eq_testBit, bit_eq_testBit, Nat.testBit_mod_two_pow]; simp [hl]
  rw [h0, maskWrite, bit_or, bit_andNot, bit_or, bit_maskOfList]
  by_cases ha : bit (g.act f m) l = true
  · simp [ha, List.mem_filter, hl]
  · have ha' : bit (g.act f m) l = false := by simpa using ha
    simp [ha', List.mem_filter, Bool.and_comm]

/-- The mask result of a plan that writes one mask register. -/
theorem maskOut_writeM (g : Gang) (f : Frag) (m : Modx) (md : Nat) (b : Nat → Bool) :
    MaskOut g (g.writeM [(md, maskWrite g f m md b)]) f m md b := by
  refine ⟨?_, ?_⟩
  · intro h0 l hl
    simp only [Gang.writeM, List.foldl_cons, List.foldl_nil, Gang.setM, if_neg h0, SMap.get_put, if_true]
    exact maskWrite_lt g f m md b l hl
  · intro n h
    simp only [Gang.writeM, List.foldl_cons, List.foldl_nil, Gang.setM]
    by_cases h0 : md = 0
    · simp [h0]
    · have hn : n ≠ md := by
        rcases h with h | h
        · exact h
        · exact absurd h h0
      simp only [if_neg h0, SMap.get_put, if_neg (Ne.symm hn)]

theorem Gang.writeM_frame (g : Gang) (md v : Nat) (hb : g.badM = []) : { g.writeM [(md, v)] with mreg := g.mreg } = g := by
  cases g; simp only at hb; subst hb
  simp only [Gang.writeM, List.foldl_cons, List.foldl_nil, Gang.setM]
  split <;> rfl

end Sys2Proof.Machine
end

