-- ==== Sys2Proof/Laws/Ops.lean ====
section
/-! SUPPORT. One law for each shared operation: the issuing bundle, the move past it, and everything the step of a register
instruction can do. -/

namespace Sys2Proof.Machine

/-! ### Gangs of a state -/

theorem State.gang_putGang (s : State) (k : Nat) (g : Gang) (k' : Nat) :
    (s.putGang k g).gang k' = if k = k' then some g else s.gang k' := by
  simp [State.gang, State.putGang, Tab.get_set]

@[simp] theorem State.gang_putGang_self (s : State) (k : Nat) (g : Gang) : (s.putGang k g).gang k = some g := by
  simp [State.gang_putGang]

theorem State.gang_putGang_ne (s : State) (k : Nat) (g : Gang) (k' : Nat) (h : k' ≠ k) :
    (s.putGang k g).gang k' = s.gang k' := by simp [State.gang_putGang, Ne.symm h]

@[simp] theorem State.gang_push (s : State) (m : Msg) (k : Nat) : (s.push m).gang k = s.gang k := rfl
@[simp] theorem State.gang_after (s : State) (n : Nat) (m : Msg) (k : Nat) : (s.after n m).gang k = s.gang k := rfl

/-! ### The issuing bundle -/

theorem withIssue_issuing {s : State} {i : Issue} {g : Gang} {f : Frag} (h : Issuing s i g f)
    (k : Issue → Gang → Frag → Out) : withIssue s k = k i g f := by
  simp [withIssue, h.issue, h.gang, h.frag]

/-- Without an issuing fragment there is nothing to perform. -/
theorem withIssue_none (s : State) (k : Issue → Gang → Frag → Out) (h : s.issue = none) :
    withIssue s k = .fault .noIssuer := by simp [withIssue, h]

/-! ### Moving past a bundle -/

theorem Gang.advance_slices (g : Gang) (fr pc cyc : Nat) (f : Frag) (hf : g.frags.get fr = some f) (n : Nat) (x : Slice)
    (hx : g.slices[n]? = some x) :
    (g.advance fr pc cyc).slices[n]? = some (if bit f.slices n then { x with pc := pc } else x) := by
  simp [Gang.advance, hf, Gang.mapSlices, List.getElem?_mapIdx, hx]

theorem Gang.advance_frags (g : Gang) (fr pc cyc : Nat) (f : Frag) (hf : g.frags.get fr = some f) :
    (g.advance fr pc cyc).frags = g.frags.set fr (f.issued cyc) := by
  simp [Gang.advance, hf, Gang.mapSlices]

theorem Gang.advance_same (g : Gang) (fr pc cyc : Nat) : g.SameButFlow (g.advance fr pc cyc) := by
  unfold Gang.SameButFlow Gang.advance
  split
  · rfl
  · rfl

/-- What a hint changes (R266): scheduling fields of the fragment, and a message for the next instruction line. -/
theorem State.hint_spec (s : State) (i : Issue) (g : Gang) (f : Frag) (hg : s.gang i.key = some g)
    (hf : g.frags.get i.frag = some f) :
    ∃ t, s.hint i = t ∧ { t with gangs := s.gangs, pending := s.pending } = s ∧ (∀ k, k ≠ i.key → t.gang k = s.gang k)
      ∧ ∃ d n, t.gang i.key = some g ∨
          t.gang i.key = some { g with frags := g.frags.set i.frag { f with demoted := d, notBefore := n } } := by
  refine ⟨_, rfl, ?_⟩
  unfold State.hint
  cases hh : i.hnt with
  | none => exact ⟨rfl, fun _ _ => rfl, 0, 0, Or.inl hg⟩
  | some h =>
    simp only [hg, hf]
    refine ⟨?_, ?_, ?_⟩
    · split <;> rfl
    · intro k hk
      split <;> simp [State.gang_putGang, Ne.symm hk]
    · refine ⟨if bit h 19 then s.cycle + 16 else f.demoted,
        if fld h 20 4 = 0 then f.notBefore else s.cycle + 1 + fld h 20 4, Or.inr ?_⟩
      split <;> simp only [State.gang_push, State.gang_putGang_self] <;> split <;> split <;> rfl

/-- `finish` moves the fragment past its bundle and keeps everything else of the gang it is given. -/
theorem State.finish_passed {s : State} {i : Issue} {g : Gang} {f : Frag} (hi : Issuing s i g f) (g' : Gang)
    (hs : g'.slices = g.slices) (hfr : g'.frags = g.frags) :
    ∃ h, Passed s (s.finish i g') i g f h ∧ g'.SameButFlow h := by
  have hf' : g'.frags.get i.frag = some f := hfr ▸ hi.frag
  set pc := (i.base + 4) % 2 ^ 64 with hpc
  set a := g'.advance i.frag pc s.cycle with ha
  have hsl : ∀ n x, g.slices[n]? = some x → a.slices[n]? = some (if bit f.slices n then { x with pc := pc } else x) := by
    intro n x hx; exact Gang.advance_slices g' _ _ _ f hf' n x (hs ▸ hx)
  have hfa : a.frags = g.frags.set i.frag (f.issued s.cycle) := by rw [ha, Gang.advance_frags g' _ _ _ f hf', hfr]
  have hsame : g'.SameButFlow a := Gang.advance_same g' _ _ _
  obtain ⟨t, ht, hrest, hoth, d, n, hg⟩ := State.hint_spec (s.putGang i.key a) i a (f.issued s.cycle)
    (by simp) (by rw [hfa]; simp)
  have hrest' : ({ t with gangs := s.gangs, pending := s.pending } : State) = s := by
    have h1 : ({ t with gangs := s.gangs, pending := s.pending } : State)
        = { ({ t with gangs := (s.putGang i.key a).gangs, pending := (s.putGang i.key a).pending } : State) with
            gangs := s.gangs, pending := s.pending } := rfl
    rw [h1, hrest]; rfl
  have hoth' : ∀ k, k ≠ i.key → t.gang k = s.gang k := fun k hk => by
    rw [hoth k hk, State.gang_putGang_ne _ _ _ _ hk]
  rcases hg with hg | hg
  · refine ⟨a, ⟨?_, ?_, ?_, hsl, ?_, ?_⟩, hsame⟩
    · rw [State.finish, ← ha, ht]; exact hrest'
    · rw [State.finish, ← ha, ht]; exact hoth'
    · rw [State.finish, ← ha, ht]; exact hg
    · exact ⟨f.issued s.cycle, by rw [hfa]; simp, rfl, rfl, rfl, rfl⟩
    · intro m hm; rw [hfa, Tab.get_set_ne _ _ _ _ hm]
  · refine ⟨{ a with frags := a.frags.set i.frag { f.issued s.cycle with demoted := d, notBefore := n } },
      ⟨?_, ?_, ?_, hsl, ?_, ?_⟩, hsame⟩
    · rw [State.finish, ← ha, ht]; exact hrest'
    · rw [State.finish, ← ha, ht]; exact hoth'
    · rw [State.finish, ← ha, ht]; exact hg
    · exact ⟨{ f.issued s.cycle with demoted := d, notBefore := n }, by simp, rfl, rfl, rfl, rfl⟩
    · intro m hm
      simp only [hfa, Tab.get_set_ne _ _ _ _ hm]

/-- A change u of fields other than those of the flow, which makes q the gang g, makes a gang that differs from q in its
flow differ from g in its flow. -/
theorem Gang.same_trans {q h g : Gang} (hs : q.SameButFlow h) (u : Gang → Gang)
    (hu : ∀ (x : Gang) a b c d, u { x with slices := a, frags := b, skipBrk := c, replay := d }
      = { u x with slices := a, frags := b, skipBrk := c, replay := d }) (hq : u q = g) : g.SameButFlow (u h) := by
  unfold Gang.SameButFlow at *
  have h1 := congrArg u hs
  rw [hu, hq] at h1
  have hf := congrArg (fun x : Gang => ({ u h with slices := x.slices, frags := x.frags, skipBrk := x.skipBrk, replay := x.replay } : Gang)) h1
  exact hf.symm.trans h1

/-! ### The step of a register instruction -/

theorem Gang.badLanes_healthy (g : Gang) (p : Plan) (h : g.badV = []) : g.badLanes p = 0 := by
  have : (fun l => p.rdV.any (fun n => g.badV.contains (32 * n + l))) = fun _ => false := by
    funext l; simp [h]
  rw [Gang.badLanes, this]; simp [maskOfList, h]

theorem Gang.badUniform_healthy (g : Gang) (p : Plan) (hu : g.badU = []) (hm : g.badM = []) (hw : g.badW = false) :
    g.badUniform p = false := by simp [Gang.badUniform, hu, hm, hw]

theorem State.aluLanes_healthy (s : State) (i : Issue) (g : Gang) (p : Plan) (h : Healthy s i g) :
    s.aluLanes i.key g p = 0 := by
  unfold State.aluLanes
  split
  · rename_i hc
    simp only [Bool.and_eq_true] at hc
    simp [h.alu hc.1.1, maskOfList]
  · rfl

/-- No passing disagreement is due: nothing is retried (R228). -/
theorem State.aluRetry_healthy (s t : State) (i : Issue) (g : Gang) (p : Plan) (h : Healthy s i g)
    (ht : (t.core (coreOf i.key)).aluOnce = (s.core (coreOf i.key)).aluOnce) : t.aluRetry i.key g p = t := by
  unfold State.aluRetry
  cases hck : g.chk with
  | false => simp
  | true => simp [ht, h.once hck]

theorem State.aluScalar_healthy (s : State) (i : Issue) (g : Gang) (p : Plan) (h : Healthy s i g) :
    s.aluScalar i.key g p = false := by
  unfold State.aluScalar
  rw [State.aluLanes_healthy s i g p h]
  cases hck : g.chk with
  | false => simp
  | true => simp [h.scalar hck]

theorem Gang.inBounds_fits (g : Gang) (p : Plan) (h : g.Fits p.useV p.useU) : g.inBounds p = true := by
  simp only [Gang.inBounds, Bool.and_eq_true, List.all_eq_true, decide_eq_true_eq]
  exact h

theorem Gang.awaits_unawaited (g : Gang) (p : Plan) (h : g.Unawaited p.useU) : g.awaits p = false := by
  unfold Gang.awaits
  rw [List.any_eq_false]
  intro ko hko
  simp only [Bool.and_eq_true, decide_eq_true_eq, List.any_eq_true, List.contains_iff_mem, not_and, not_exists]
  intro hc r hr
  exact h ko hko hc.1 (by omega) r hr

/-- A register instruction whose registers are within bounds, readable and not awaited, and whose plan meets no cause, writes
its plan and moves on. -/
theorem regStep_clear {s : State} {i : Issue} {g : Gang} {f : Frag} (hi : Issuing s i g f) (plan : Gang → Frag → Plan)
    (hc : Clear s i g (plan g f).useV (plan g f).useU) (hz : (plan g f).cause = 0)
    (hx : fpxRaised g.fpctl (plan g f).flags = false) :
    regStep s plan = .next (s.finish i ((g.applyPlan (plan g f) 0).orFlags (plan g f).flags)) := by
  unfold regStep
  rw [withIssue_issuing hi]
  simp only [Gang.inBounds_fits g _ hc.fits, Gang.awaits_unawaited g _ hc.unawaited,
    Gang.badUniform_healthy g _ hc.healthy.badU hc.healthy.badM hc.healthy.badW, Gang.badLanes_healthy g _ hc.healthy.badV]
  simp only [State.aluScalar_healthy s i g _ hc.healthy, State.aluRetry_healthy s s i g _ hc.healthy rfl, Bool.not_true,
    Bool.false_eq_true, if_false, if_true]
  simp [State.applyStep, hz, hx, State.aluLanes_healthy s i g _ hc.healthy]

/-- A register instruction that names a register outside the allotment raises BOUNDS (R214). -/
theorem regStep_bounds {s : State} {i : Issue} {g : Gang} {f : Frag} (hi : Issuing s i g f) (plan : Gang → Frag → Plan)
    (hb : g.inBounds (plan g f) = false) : regStep s plan = .next (s.trap i (2 ^ cBOUNDS) none) := by
  unfold regStep
  rw [withIssue_issuing hi]
  simp [hb]

/-- Fewer registers are clear when more are. -/
theorem Clear.of_subset {s : State} {i : Issue} {g : Gang} {vs us vs' us' : List Nat} (h : Clear s i g vs us)
    (hv : ∀ n ∈ vs', n ∈ vs) (hu : ∀ n ∈ us', n ∈ us) : Clear s i g vs' us' :=
  ⟨h.healthy, ⟨fun n hn => h.fits.1 n (hv n hn), fun n hn => h.fits.2 n (hu n hn)⟩,
    fun ko hko h1 h2 r hr hm => h.unawaited ko hko h1 h2 r hr (hu r hm)⟩

/-- A vector instruction performed. -/
theorem regStep_vec {s : State} {i : Issue} {g : Gang} {f : Frag} (hi : Issuing s i g f) (plan : Gang → Frag → Plan)
    (m : Modx) (wide : Bool) (d : Nat) (r : Nat → Nat) (fl : Nat) (dead : Bool)
    (hc : Clear s i g (plan g f).useV (plan g f).useU)
    (hz : (plan g f).cause = 0) (hx : fpxRaised g.fpctl fl = false) (hfl : (plan g f).flags = fl)
    (hv : (plan g f).wV = wVec g f m wide d r) (hu : (plan g f).wU = []) (hm : (plan g f).wM = [])
    (hd : (plan g f).deadsrc = dead) :
    ∃ t, regStep s plan = .next t ∧ VecDone s t i g f m wide d r fl dead := by
  refine ⟨_, regStep_clear hi plan hc hz (hfl ▸ hx), ?_⟩
  rw [Gang.applyPlan_zero, hu, hm, hd, hv, hfl]
  simp only [Gang.writeU, Gang.writeM, List.foldl_nil]
  have hfr := Gang.writeV_frame (wVec g f m wide d r) g hc.healthy.badV
  set w := g.writeV (wVec g f m wide d r) with hw
  set q : Gang := (if dead then { w with deadsrc := true } else w).orFlags fl with hq
  have e1 : q.vreg = w.vreg := by rw [hq]; split <;> rfl
  have e2 : q.fpstat = g.fpstat ||| fl := by
    have h1 : w.fpstat = g.fpstat := by have := congrArg Gang.fpstat hfr; exact this
    have h2 : q.fpstat = w.fpstat ||| fl := by rw [hq]; split <;> rfl
    rw [h2, h1]
  have e3 : q.deadsrc = (g.deadsrc || dead) := by
    have h1 : w.deadsrc = g.deadsrc := by have := congrArg Gang.deadsrc hfr; exact this
    rw [hq, ← h1]; cases dead <;> simp [Gang.orFlags]
  have e4 : ({ q with vreg := g.vreg, fpstat := g.fpstat, deadsrc := g.deadsrc } : Gang) = g := by
    have h1 : ({ q with vreg := g.vreg, fpstat := g.fpstat, deadsrc := g.deadsrc } : Gang)
        = { ({ w with vreg := g.vreg } : Gang) with fpstat := g.fpstat, deadsrc := g.deadsrc } := by
      rw [hq]; split <;> rfl
    rw [h1, hfr]
  obtain ⟨h, hp, hs⟩ := State.finish_passed hi q (by have := congrArg Gang.slices e4; exact this)
    (by have := congrArg Gang.frags e4; exact this)
  have hvr : h.vreg = w.vreg := by rw [← e1]; have := congrArg Gang.vreg hs; exact this
  refine ⟨h, hp, ?_, ?_, ?_, ?_⟩
  · have hl := laneOut_writeV g f m wide d r
    have hvv : ∀ n l, h.v n l = w.v n l := fun n l => by simp [Gang.v, hvr]
    have hvw : ∀ n l, h.vw wide n l = w.vw wide n l := fun n l => by cases wide <;> simp [Gang.vw, Gang.vp, hvv]
    exact ⟨fun l hl1 ha => by rw [hvw]; exact hl.act l hl1 ha, fun l hl1 ha => by rw [hvw]; exact hl.zeroed l hl1 ha,
      fun n l hl1 ha => by rw [hvv]; exact hl.other n l hl1 ha⟩
  · exact Gang.same_trans hs (fun x => { x with vreg := g.vreg, fpstat := g.fpstat, deadsrc := g.deadsrc })
      (fun x a b c d => rfl) e4
  · rw [← e2]; have := congrArg Gang.fpstat hs; exact this
  · rw [← e3]; have := congrArg Gang.deadsrc hs; exact this

/-- A scalar instruction, or one with a uniform result, performed. -/
theorem regStep_uni {s : State} {i : Issue} {g : Gang} {f : Frag} (hi : Issuing s i g f) (plan : Gang → Frag → Plan)
    (wide : Bool) (d v fl : Nat) (dead : Bool) (hc : Clear s i g (plan g f).useV (plan g f).useU)
    (hz : (plan g f).cause = 0) (hx : fpxRaised g.fpctl fl = false) (hfl : (plan g f).flags = fl)
    (hv : (plan g f).wV = []) (hu : (plan g f).wU = wUni wide d v) (hm : (plan g f).wM = [])
    (hd : (plan g f).deadsrc = dead) :
    ∃ t, regStep s plan = .next t ∧ UniDone s t i g f wide d v fl dead := by
  refine ⟨_, regStep_clear hi plan hc hz (hfl ▸ hx), ?_⟩
  rw [Gang.applyPlan_zero, hu, hm, hd, hv, hfl]
  simp only [Gang.writeV, Gang.writeM, List.foldl_nil]
  have hfr := Gang.writeU_frame (wUni wide d v) g hc.healthy.badU
  set w := g.writeU (wUni wide d v) with hw
  set q : Gang := (if dead then { w with deadsrc := true } else w).orFlags fl with hq
  have e1 : q.sreg = w.sreg := by rw [hq]; split <;> rfl
  have e2 : q.fpstat = g.fpstat ||| fl := by
    have h1 : w.fpstat = g.fpstat := by have := congrArg Gang.fpstat hfr; exact this
    have h2 : q.fpstat = w.fpstat ||| fl := by rw [hq]; split <;> rfl
    rw [h2, h1]
  have e3 : q.deadsrc = (g.deadsrc || dead) := by
    have h1 : w.deadsrc = g.deadsrc := by have := congrArg Gang.deadsrc hfr; exact this
    rw [hq, ← h1]; cases dead <;> simp [Gang.orFlags]
  have e4 : ({ q with sreg := g.sreg, fpstat := g.fpstat, deadsrc := g.deadsrc } : Gang) = g := by
    have h1 : ({ q with sreg := g.sreg, fpstat := g.fpstat, deadsrc := g.deadsrc } : Gang)
        = { ({ w with sreg := g.sreg } : Gang) with fpstat := g.fpstat, deadsrc := g.deadsrc } := by
      rw [hq]; split <;> rfl
    rw [h1, hfr]
  obtain ⟨h, hp, hs⟩ := State.finish_passed hi q (by have := congrArg Gang.slices e4; exact this)
    (by have := congrArg Gang.frags e4; exact this)
  have hvr : h.sreg = w.sreg := by rw [← e1]; have := congrArg Gang.sreg hs; exact this
  refine ⟨h, hp, ?_, ?_, ?_, ?_⟩
  · have hl := uniOut_writeU g wide d v
    have hvv : ∀ n, h.u n = w.u n := fun n => by simp [Gang.u, hvr]
    have hvw : ∀ n, h.uw wide n = w.uw wide n := fun n => by cases wide <;> simp [Gang.uw, Gang.up, hvv]
    exact ⟨by rw [hvw]; exact hl.result, fun n hn => by rw [hvv]; exact hl.other n hn⟩
  · exact Gang.same_trans hs (fun x => { x with sreg := g.sreg, fpstat := g.fpstat, deadsrc := g.deadsrc })
      (fun x a b c d => rfl) e4
  · rw [← e2]; have := congrArg Gang.fpstat hs; exact this
  · rw [← e3]; have := congrArg Gang.deadsrc hs; exact this

/-- An instruction with a mask result performed. -/
theorem regStep_mask {s : State} {i : Issue} {g : Gang} {f : Frag} (hi : Issuing s i g f) (plan : Gang → Frag → Plan)
    (m : Modx) (md : Nat) (b : Nat → Bool) (fl : Nat) (hc : Clear s i g (plan g f).useV (plan g f).useU)
    (hz : (plan g f).cause = 0) (hx : fpxRaised g.fpctl fl = false) (hfl : (plan g f).flags = fl)
    (hv : (plan g f).wV = []) (hu : (plan g f).wU = []) (hm : (plan g f).wM = [(md, maskWrite g f m md b)])
    (hd : (plan g f).deadsrc = false) :
    ∃ t, regStep s plan = .next t ∧ MaskDone s t i g f m md b fl := by
  refine ⟨_, regStep_clear hi plan hc hz (hfl ▸ hx), ?_⟩
  rw [Gang.applyPlan_zero, hu, hm, hd, hv, hfl]
  simp only [Gang.writeV, Gang.writeU, List.foldl_nil, Bool.false_eq_true, if_false]
  have hfr := Gang.writeM_frame g md (maskWrite g f m md b) hc.healthy.badM
  set w := g.writeM [(md, maskWrite g f m md b)] with hw
  have hws : w.slices = g.slices := by have := congrArg Gang.slices hfr; exact this
  have hwf : w.frags = g.frags := by have := congrArg Gang.frags hfr; exact this
  have hwp : w.fpstat = g.fpstat := by have := congrArg Gang.fpstat hfr; exact this
  obtain ⟨h, hp, hs⟩ := State.finish_passed hi (w.orFlags fl) hws hwf
  have hvr : h.mreg = w.mreg := by have := congrArg Gang.mreg hs; exact this
  have hst : h.fpstat = g.fpstat ||| fl := by
    have : h.fpstat = w.fpstat ||| fl := by have := congrArg Gang.fpstat hs; exact this
    rw [this, hwp]
  refine ⟨h, hp, ?_, ?_, hst⟩
  · have hl := maskOut_writeM g f m md b
    exact ⟨fun h0 l hl1 => by rw [hvr]; exact hl.lane h0 l hl1, fun n hn => by rw [hvr]; exact hl.other n hn⟩
  · have h1 : ({ h with slices := w.slices, frags := w.frags, skipBrk := w.skipBrk, replay := w.replay } : Gang) = w.orFlags fl := hs
    have hk : w.skipBrk = g.skipBrk := by have := congrArg Gang.skipBrk hfr; exact this
    have hrp : w.replay = g.replay := by have := congrArg Gang.replay hfr; exact this
    unfold Gang.SameButFlow
    calc _ = ({ ({ h with slices := w.slices, frags := w.frags, skipBrk := w.skipBrk, replay := w.replay } : Gang) with
              mreg := g.mreg, fpstat := g.fpstat } : Gang) := by rw [hws, hwf, hk, hrp]
      _ = ({ w.orFlags fl with mreg := g.mreg, fpstat := g.fpstat } : Gang) := by rw [h1]
      _ = ({ ({ w with mreg := g.mreg } : Gang) with fpstat := g.fpstat } : Gang) := rfl
      _ = g := by rw [hfr]

end Sys2Proof.Machine
end

