-- ==== Sys2Proof/Laws/PerInstr.lean ====
section
/-! SUPPORT. The family Encoded: an encoding is one to four words (R254, R271). -/

namespace Sys2Proof

/-- At most two IMX payloads (R262). -/
theorem immWords_length (n : Nat) (v : Int) : (immWords n v).length ≤ 2 := by
  unfold immWords
  split
  · simp
  · split <;> simp
theorem immPair_length (n : Nat) (v : Int) : (immPair n v).length ≤ 2 := by simp [immPair]
theorem brvWords_length (x : BrvOp) : (brvWords x).length ≤ 2 := by
  unfold brvWords
  split <;> simp

namespace Laws.Encoded

/-- Every encoding is one to four words; an instruction without one is an event. -/
def Statement (i : Instr) : Prop := ∀ ws, encode i = some ws → 1 ≤ ws.length ∧ ws.length ≤ 4

theorem ofBase {i : Instr} {imx : List Nat} {m : Modx} {b : Nat} (h : encodeBase i = some (imx, m, b)) (hl : imx.length ≤ 2) :
    Statement i := by
  intro ws hw
  unfold encode at hw
  rw [h] at hw
  cases hw
  simp only [List.length_append, List.length_map, List.length_cons, List.length_nil]
  split <;> simp <;> omega
theorem ofNone {i : Instr} (h : encodeBase i = none) : Statement i := by
  intro ws hw
  unfold encode at hw
  rw [h] at hw
  cases hw

theorem sadd (x : RegOp) : Statement (.sadd x) := ofBase rfl (by simp)
theorem ssub (x : RegOp) : Statement (.ssub x) := ofBase rfl (by simp)
theorem smul (x : RegOp) : Statement (.smul x) := ofBase rfl (by simp)
theorem smulh (x : RegOp) : Statement (.smulh x) := ofBase rfl (by simp)
theorem sdiv (x : RegOp) : Statement (.sdiv x) := ofBase rfl (by simp)
theorem srem (x : RegOp) : Statement (.srem x) := ofBase rfl (by simp)
theorem sand (x : RegOp) : Statement (.sand x) := ofBase rfl (by simp)
theorem sor (x : RegOp) : Statement (.sor x) := ofBase rfl (by simp)
theorem sxor (x : RegOp) : Statement (.sxor x) := ofBase rfl (by simp)
theorem sshl (x : RegOp) : Statement (.sshl x) := ofBase rfl (by simp)
theorem sshr (x : RegOp) : Statement (.sshr x) := ofBase rfl (by simp)
theorem ssra (x : RegOp) : Statement (.ssra x) := ofBase rfl (by simp)
theorem smin (x : RegOp) : Statement (.smin x) := ofBase rfl (by simp)
theorem smax (x : RegOp) : Statement (.smax x) := ofBase rfl (by simp)
theorem sclz (x : RegOp) : Statement (.sclz x) := ofBase rfl (by simp)
theorem spopc (x : RegOp) : Statement (.spopc x) := ofBase rfl (by simp)
theorem scmp (x : CcOp) : Statement (.scmp x) := ofBase rfl (by simp)
theorem ssel (x : RegOp) : Statement (.ssel x) := ofBase rfl (by simp)
theorem smov (x : RegOp) : Statement (.smov x) := ofBase rfl (by simp)
theorem slea (x : CcOp) : Statement (.slea x) := ofBase rfl (by simp)
theorem saddS32Imm (x : ImmOp) : Statement (.saddS32Imm x) := ofBase rfl (immWords_length _ _)
theorem smulS32Imm (x : ImmOp) : Statement (.smulS32Imm x) := ofBase rfl (immWords_length _ _)
theorem sandS32Imm (x : ImmOp) : Statement (.sandS32Imm x) := ofBase rfl (immWords_length _ _)
theorem sorS32Imm (x : ImmOp) : Statement (.sorS32Imm x) := ofBase rfl (immWords_length _ _)
theorem sxorS32Imm (x : ImmOp) : Statement (.sxorS32Imm x) := ofBase rfl (immWords_length _ _)
theorem sshlS32Imm (x : ImmOp) : Statement (.sshlS32Imm x) := ofBase rfl (immWords_length _ _)
theorem sshrS32Imm (x : ImmOp) : Statement (.sshrS32Imm x) := ofBase rfl (immWords_length _ _)
theorem ssraS32Imm (x : ImmOp) : Statement (.ssraS32Imm x) := ofBase rfl (immWords_length _ _)
theorem sminS32Imm (x : ImmOp) : Statement (.sminS32Imm x) := ofBase rfl (immWords_length _ _)
theorem smaxS32Imm (x : ImmOp) : Statement (.smaxS32Imm x) := ofBase rfl (immWords_length _ _)
theorem sminN32Imm (x : ImmOp) : Statement (.sminN32Imm x) := ofBase rfl (immWords_length _ _)
theorem smaxN32Imm (x : ImmOp) : Statement (.smaxN32Imm x) := ofBase rfl (immWords_length _ _)
theorem scmpEqS32Imm (x : ImmOp) : Statement (.scmpEqS32Imm x) := ofBase rfl (immWords_length _ _)
theorem scmpLtS32Imm (x : ImmOp) : Statement (.scmpLtS32Imm x) := ofBase rfl (immWords_length _ _)
theorem scmpLtN32Imm (x : ImmOp) : Statement (.scmpLtN32Imm x) := ofBase rfl (immWords_length _ _)
theorem saddS64Imm (x : ImmOp) : Statement (.saddS64Imm x) := ofBase rfl (immWords_length _ _)
theorem sli (x : SliOp) : Statement (.sli x) := ofBase rfl (by split <;> first | exact immPair_length _ _ | exact immWords_length _ _)
theorem setxv (base : Nat) : Statement (.setxv base) := ofBase rfl (by simp)
theorem setxs (base : Nat) : Statement (.setxs base) := ofBase rfl (by simp)
theorem rdx (d : Nat) (k : Nat) : Statement (.rdx d k) := ofBase rfl (by simp)
theorem vadd (x : RegOp) : Statement (.vadd x) := ofBase rfl (by simp)
theorem vsub (x : RegOp) : Statement (.vsub x) := ofBase rfl (by simp)
theorem vmul (x : RegOp) : Statement (.vmul x) := ofBase rfl (by simp)
theorem vmulh (x : RegOp) : Statement (.vmulh x) := ofBase rfl (by simp)
theorem vmad (x : RegOp) : Statement (.vmad x) := ofBase rfl (by simp)
theorem vdiv (x : RegOp) : Statement (.vdiv x) := ofBase rfl (by simp)
theorem vrem (x : RegOp) : Statement (.vrem x) := ofBase rfl (by simp)
theorem vadds (x : RegOp) : Statement (.vadds x) := ofBase rfl (by simp)
theorem vsubs (x : RegOp) : Statement (.vsubs x) := ofBase rfl (by simp)
theorem vmin (x : RegOp) : Statement (.vmin x) := ofBase rfl (by simp)
theorem vmax (x : RegOp) : Statement (.vmax x) := ofBase rfl (by simp)
theorem vabs (x : RegOp) : Statement (.vabs x) := ofBase rfl (by simp)
theorem vand (x : RegOp) : Statement (.vand x) := ofBase rfl (by simp)
theorem vor (x : RegOp) : Statement (.vor x) := ofBase rfl (by simp)
theorem vxor (x : RegOp) : Statement (.vxor x) := ofBase rfl (by simp)
theorem vshl (x : RegOp) : Statement (.vshl x) := ofBase rfl (by simp)
theorem vshr (x : RegOp) : Statement (.vshr x) := ofBase rfl (by simp)
theorem vsra (x : RegOp) : Statement (.vsra x) := ofBase rfl (by simp)
theorem vclz (x : RegOp) : Statement (.vclz x) := ofBase rfl (by simp)
theorem vpopc (x : RegOp) : Statement (.vpopc x) := ofBase rfl (by simp)
theorem vlea (x : CcOp) : Statement (.vlea x) := ofBase rfl (by simp)
theorem vleaX16 (x : RegOp) : Statement (.vleaX16 x) := ofBase rfl (by simp)
theorem voff (x : RegOp) : Statement (.voff x) := ofBase rfl (by simp)
theorem vaddS32Imm (x : ImmOp) : Statement (.vaddS32Imm x) := ofBase rfl (immWords_length _ _)
theorem vmulS32Imm (x : ImmOp) : Statement (.vmulS32Imm x) := ofBase rfl (immWords_length _ _)
theorem vandS32Imm (x : ImmOp) : Statement (.vandS32Imm x) := ofBase rfl (immWords_length _ _)
theorem vorS32Imm (x : ImmOp) : Statement (.vorS32Imm x) := ofBase rfl (immWords_length _ _)
theorem vxorS32Imm (x : ImmOp) : Statement (.vxorS32Imm x) := ofBase rfl (immWords_length _ _)
theorem vshlS32Imm (x : ImmOp) : Statement (.vshlS32Imm x) := ofBase rfl (immWords_length _ _)
theorem vshrS32Imm (x : ImmOp) : Statement (.vshrS32Imm x) := ofBase rfl (immWords_length _ _)
theorem vsraS32Imm (x : ImmOp) : Statement (.vsraS32Imm x) := ofBase rfl (immWords_length _ _)
theorem vminS32Imm (x : ImmOp) : Statement (.vminS32Imm x) := ofBase rfl (immWords_length _ _)
theorem vmaxS32Imm (x : ImmOp) : Statement (.vmaxS32Imm x) := ofBase rfl (immWords_length _ _)
theorem vminN32Imm (x : ImmOp) : Statement (.vminN32Imm x) := ofBase rfl (immWords_length _ _)
theorem vmaxN32Imm (x : ImmOp) : Statement (.vmaxN32Imm x) := ofBase rfl (immWords_length _ _)
theorem vaddsS32Imm (x : ImmOp) : Statement (.vaddsS32Imm x) := ofBase rfl (immWords_length _ _)
theorem vaddsN32Imm (x : ImmOp) : Statement (.vaddsN32Imm x) := ofBase rfl (immWords_length _ _)
theorem vaddS64Imm (x : ImmOp) : Statement (.vaddS64Imm x) := ofBase rfl (immWords_length _ _)
theorem voffS64Imm (x : ImmOp) : Statement (.voffS64Imm x) := ofBase rfl (immWords_length _ _)
theorem mand (x : MskOp) : Statement (.mand x) := ofBase rfl (by simp)
theorem mor (x : MskOp) : Statement (.mor x) := ofBase rfl (by simp)
theorem mxor (x : MskOp) : Statement (.mxor x) := ofBase rfl (by simp)
theorem mnot (x : MskOp) : Statement (.mnot x) := ofBase rfl (by simp)
theorem mcnt (x : MskOp) : Statement (.mcnt x) := ofBase rfl (by simp)
theorem mffs (x : MskOp) : Statement (.mffs x) := ofBase rfl (by simp)
theorem mmovMm (x : MskOp) : Statement (.mmovMm x) := ofBase rfl (by simp)
theorem mmovMs (x : MskOp) : Statement (.mmovMs x) := ofBase rfl (by simp)
theorem mmovSm (x : MskOp) : Statement (.mmovSm x) := ofBase rfl (by simp)
theorem mset (x : MskOp) : Statement (.mset x) := ofBase rfl (by simp)
theorem vmovW32 (x : MskOp) : Statement (.vmovW32 x) := ofBase rfl (by simp)
theorem vmovW64 (x : MskOp) : Statement (.vmovW64 x) := ofBase rfl (by simp)
theorem vbcstW32 (x : MskOp) : Statement (.vbcstW32 x) := ofBase rfl (by simp)
theorem vbcstW64 (x : MskOp) : Statement (.vbcstW64 x) := ofBase rfl (by simp)
theorem vselW32 (x : MskOp) : Statement (.vselW32 x) := ofBase rfl (by simp)
theorem vselW64 (x : MskOp) : Statement (.vselW64 x) := ofBase rfl (by simp)
theorem vlane (x : MskOp) : Statement (.vlane x) := ofBase rfl (by simp)
theorem vgetW32 (x : MskOp) : Statement (.vgetW32 x) := ofBase rfl (by simp)
theorem vgetW64 (x : MskOp) : Statement (.vgetW64 x) := ofBase rfl (by simp)
theorem vputW32 (x : MskOp) : Statement (.vputW32 x) := ofBase rfl (by simp)
theorem vputW64 (x : MskOp) : Statement (.vputW64 x) := ofBase rfl (by simp)
theorem vfadd (x : RegOp) : Statement (.vfadd x) := ofBase rfl (by simp)
theorem vfsub (x : RegOp) : Statement (.vfsub x) := ofBase rfl (by simp)
theorem vfmul (x : RegOp) : Statement (.vfmul x) := ofBase rfl (by simp)
theorem vffma (x : RegOp) : Statement (.vffma x) := ofBase rfl (by simp)
theorem vffms (x : RegOp) : Statement (.vffms x) := ofBase rfl (by simp)
theorem vfnfma (x : RegOp) : Statement (.vfnfma x) := ofBase rfl (by simp)
theorem vfmin (x : RegOp) : Statement (.vfmin x) := ofBase rfl (by simp)
theorem vfmax (x : RegOp) : Statement (.vfmax x) := ofBase rfl (by simp)
theorem vfabs (x : RegOp) : Statement (.vfabs x) := ofBase rfl (by simp)
theorem vfneg (x : RegOp) : Statement (.vfneg x) := ofBase rfl (by simp)
theorem vfdiv (x : RegOp) : Statement (.vfdiv x) := ofBase rfl (by simp)
theorem vfsqrt (x : RegOp) : Statement (.vfsqrt x) := ofBase rfl (by simp)
theorem vfclass (x : RegOp) : Statement (.vfclass x) := ofBase rfl (by simp)
theorem vfsgn (x : RegOp) : Statement (.vfsgn x) := ofBase rfl (by simp)
theorem vfldx (x : RegOp) : Statement (.vfldx x) := ofBase rfl (by simp)
theorem sfadd (x : RegOp) : Statement (.sfadd x) := ofBase rfl (by simp)
theorem sfmul (x : RegOp) : Statement (.sfmul x) := ofBase rfl (by simp)
theorem sffma (x : RegOp) : Statement (.sffma x) := ofBase rfl (by simp)
theorem sfcmp (x : CcOp) : Statement (.sfcmp x) := ofBase rfl (by simp)
theorem sfcvt (x : CvtOp) : Statement (.sfcvt x) := ofBase rfl (by simp)
theorem vcmp (x : CcOp) : Statement (.vcmp x) := ofBase rfl (by simp)
theorem vfcmp (x : CcOp) : Statement (.vfcmp x) := ofBase rfl (by simp)
theorem vex2s (x : MskOp) : Statement (.vex2s x) := ofBase rfl (by simp)
theorem vlg2 (x : MskOp) : Statement (.vlg2 x) := ofBase rfl (by simp)
theorem vrcp (x : RegOp) : Statement (.vrcp x) := ofBase rfl (by simp)
theorem vrsq (x : RegOp) : Statement (.vrsq x) := ofBase rfl (by simp)
theorem vsin (x : MskOp) : Statement (.vsin x) := ofBase rfl (by simp)
theorem vcos (x : MskOp) : Statement (.vcos x) := ofBase rfl (by simp)
theorem vcvt (x : CvtOp) : Statement (.vcvt x) := ofBase rfl (by simp)
theorem vpack (x : CvtOp) : Statement (.vpack x) := ofBase rfl (by simp)
theorem vunpk (x : CvtOp) : Statement (.vunpk x) := ofBase rfl (by simp)
theorem vdeq (x : CvtOp) : Statement (.vdeq x) := ofBase rfl (by simp)
theorem vshf (x : RegOp) : Statement (.vshf x) := ofBase rfl (by simp)
theorem vshfu (x : RegOp) : Statement (.vshfu x) := ofBase rfl (by simp)
theorem vshfd (x : RegOp) : Statement (.vshfd x) := ofBase rfl (by simp)
theorem vshfx (x : RegOp) : Statement (.vshfx x) := ofBase rfl (by simp)
theorem vvoteAny (x : MskOp) : Statement (.vvoteAny x) := ofBase rfl (by simp)
theorem vvoteAll (x : MskOp) : Statement (.vvoteAll x) := ofBase rfl (by simp)
theorem vvoteUni (x : MskOp) : Statement (.vvoteUni x) := ofBase rfl (by simp)
theorem vvoteBal (x : MskOp) : Statement (.vvoteBal x) := ofBase rfl (by simp)
theorem vvoteCnt (x : MskOp) : Statement (.vvoteCnt x) := ofBase rfl (by simp)
theorem vrsum (x : RegOp) : Statement (.vrsum x) := ofBase rfl (by simp)
theorem vrmin (x : RegOp) : Statement (.vrmin x) := ofBase rfl (by simp)
theorem vrmax (x : RegOp) : Statement (.vrmax x) := ofBase rfl (by simp)
theorem vscanAdd (x : RegOp) : Statement (.vscanAdd x) := ofBase rfl (by simp)
theorem vscanMin (x : RegOp) : Statement (.vscanMin x) := ofBase rfl (by simp)
theorem vscanMax (x : RegOp) : Statement (.vscanMax x) := ofBase rfl (by simp)
theorem vld (x : MemOp) : Statement (.vld x) := ofBase rfl (by simp)
theorem vst (x : MemOp) : Statement (.vst x) := ofBase rfl (by simp)
theorem vprf (x : MemOp) : Statement (.vprf x) := ofBase rfl (by simp)
theorem sld (x : MemOp) : Statement (.sld x) := ofBase rfl (by simp)
theorem sst (x : MemOp) : Statement (.sst x) := ofBase rfl (by simp)
theorem slda (x : MemOp) : Statement (.slda x) := ofBase rfl (by simp)
theorem sstr (x : MemOp) : Statement (.sstr x) := ofBase rfl (by simp)
theorem vatmSwap (x : AtomOp) : Statement (.vatmSwap x) := ofBase rfl (by simp)
theorem vatmAdd (x : AtomOp) : Statement (.vatmAdd x) := ofBase rfl (by simp)
theorem vatmAnd (x : AtomOp) : Statement (.vatmAnd x) := ofBase rfl (by simp)
theorem vatmOr (x : AtomOp) : Statement (.vatmOr x) := ofBase rfl (by simp)
theorem vatmXor (x : AtomOp) : Statement (.vatmXor x) := ofBase rfl (by simp)
theorem vatmMins (x : AtomOp) : Statement (.vatmMins x) := ofBase rfl (by simp)
theorem vatmMaxs (x : AtomOp) : Statement (.vatmMaxs x) := ofBase rfl (by simp)
theorem vatmMinn (x : AtomOp) : Statement (.vatmMinn x) := ofBase rfl (by simp)
theorem vatmMaxn (x : AtomOp) : Statement (.vatmMaxn x) := ofBase rfl (by simp)
theorem vatmFadd (x : AtomOp) : Statement (.vatmFadd x) := ofBase rfl (by simp)
theorem vcas (x : AtomOp) : Statement (.vcas x) := ofBase rfl (by simp)
theorem satmSwap (x : AtomOp) : Statement (.satmSwap x) := ofBase rfl (by simp)
theorem satmAdd (x : AtomOp) : Statement (.satmAdd x) := ofBase rfl (by simp)
theorem satmAnd (x : AtomOp) : Statement (.satmAnd x) := ofBase rfl (by simp)
theorem satmOr (x : AtomOp) : Statement (.satmOr x) := ofBase rfl (by simp)
theorem satmXor (x : AtomOp) : Statement (.satmXor x) := ofBase rfl (by simp)
theorem satmMins (x : AtomOp) : Statement (.satmMins x) := ofBase rfl (by simp)
theorem satmMaxs (x : AtomOp) : Statement (.satmMaxs x) := ofBase rfl (by simp)
theorem satmMinn (x : AtomOp) : Statement (.satmMinn x) := ofBase rfl (by simp)
theorem satmMaxn (x : AtomOp) : Statement (.satmMaxn x) := ofBase rfl (by simp)
theorem satmFadd (x : AtomOp) : Statement (.satmFadd x) := ofBase rfl (by simp)
theorem scas (x : AtomOp) : Statement (.scas x) := ofBase rfl (by simp)
theorem fence (x : FenceOp) : Statement (.fence x) := ofBase rfl (by simp)
theorem waitc (x : WaitcOp) : Statement (.waitc x) := ofBase rfl (by simp)
theorem swini (a : Nat) (b : Nat) : Statement (.swini a b) := ofBase rfl (by simp)
theorem swexp (a : Nat) (b : Nat) (c : Nat) : Statement (.swexp a b c) := ofBase rfl (by simp)
theorem swwt (a : Nat) (b : Nat) : Statement (.swwt a b) := ofBase rfl (by simp)
theorem bara (a : Nat) (k : Nat) : Statement (.bara a k) := ofBase rfl (by simp)
theorem barw (a : Nat) (k : Nat) : Statement (.barw a k) := ofBase rfl (by simp)
theorem bars (k : Nat) : Statement (.bars k) := ofBase rfl (by simp)
theorem grpq (a : Nat) (k : Nat) : Statement (.grpq a k) := ofBase rfl (by simp)
theorem regang (mask : Nat) : Statement (.regang mask) := ofBase rfl (by simp)
theorem nap (a : Nat) (space : Nat) (t : Nat) : Statement (.nap a space t) := ofBase rfl (by simp)
theorem bru (disp : Int) : Statement (.bru disp) := ofBase rfl (immWords_length _ _)
theorem bruZ (r : Nat) (disp : Int) : Statement (.bruZ r disp) := ofBase rfl (immWords_length _ _)
theorem bruNz (r : Nat) (disp : Int) : Statement (.bruNz r disp) := ofBase rfl (immWords_length _ _)
theorem bruLt (r : Nat) (disp : Int) : Statement (.bruLt r disp) := ofBase rfl (immWords_length _ _)
theorem bruGe (r : Nat) (disp : Int) : Statement (.bruGe r disp) := ofBase rfl (immWords_length _ _)
theorem call (r : Nat) (disp : Int) : Statement (.call r disp) := ofBase rfl (immWords_length _ _)
theorem brv (x : BrvOp) : Statement (.brv x) := ofBase rfl (brvWords_length _)
theorem jmpr (a : Nat) : Statement (.jmpr a) := ofBase rfl (by simp)
theorem tbeg (a : Nat) (disp : Int) : Statement (.tbeg a disp) := ofBase rfl (immWords_length _ _)
theorem tbegIdem (a : Nat) (disp : Int) : Statement (.tbegIdem a disp) := ofBase rfl (immWords_length _ _)
theorem tabt (code : Nat) : Statement (.tabt code) := ofBase rfl (by simp)
theorem trap (code : Nat) : Statement (.trap code) := ofBase rfl (by simp)
theorem tclr (a : Nat) : Statement (.tclr a) := ofBase rfl (by simp)
theorem brk (code : Nat) : Statement (.brk code) := ofBase rfl (by simp)
theorem csrr (a : Nat) (n : Nat) : Statement (.csrr a n) := ofBase rfl (by simp)
theorem csrw (a : Nat) (n : Nat) : Statement (.csrw a n) := ofBase rfl (by simp)
theorem csrs (a : Nat) (n : Nat) : Statement (.csrs a n) := ofBase rfl (by simp)
theorem csrc (a : Nat) (n : Nat) : Statement (.csrc a n) := ofBase rfl (by simp)
theorem cpy (x : Cmd) : Statement (.cpy x) := ofBase rfl (by simp)
theorem cpy2 (x : Cmd) : Statement (.cpy2 x) := ofBase rfl (by simp)
theorem cpyg (x : Cmd) : Statement (.cpyg x) := ofBase rfl (by simp)
theorem cpyp (x : Cmd) : Statement (.cpyp x) := ofBase rfl (by simp)
theorem cpyq (x : Cmd) : Statement (.cpyq x) := ofBase rfl (by simp)
theorem cprel (a : Nat) : Statement (.cprel a) := ofBase rfl (by simp)
theorem bincl (a : Nat) (b : Nat) : Statement (.bincl a b) := ofBase rfl (by simp)
theorem binad (a : Nat) (b : Nat) : Statement (.binad a b) := ofBase rfl (by simp)
theorem binrd (a : Nat) (b : Nat) : Statement (.binrd a b) := ofBase rfl (by simp)
theorem twld (x : Cmd) : Statement (.twld x) := ofBase rfl (by simp)
theorem tmul (x : Cmd) : Statement (.tmul x) := ofBase rfl (by simp)
theorem tmulX4 (x : Cmd) : Statement (.tmulX4 x) := ofBase rfl (by simp)
theorem tmuls (x : Cmd) : Statement (.tmuls x) := ofBase rfl (by simp)
theorem tzero (x : Cmd) : Statement (.tzero x) := ofBase rfl (by simp)
theorem trd (x : Cmd) : Statement (.trd x) := ofBase rfl (by simp)
theorem aplnk (x : Cmd) : Statement (.aplnk x) := ofBase rfl (by simp)
theorem apref (x : Cmd) : Statement (.apref x) := ofBase rfl (by simp)
theorem attn (x : Cmd) : Statement (.attn x) := ofBase rfl (by simp)
theorem amrg (x : Cmd) : Statement (.amrg x) := ofBase rfl (by simp)
theorem arcp (x : Cmd) : Statement (.arcp x) := ofBase rfl (by simp)
theorem ssopn (x : Cmd) : Statement (.ssopn x) := ofBase rfl (by simp)
theorem ssld (x : Cmd) : Statement (.ssld x) := ofBase rfl (by simp)
theorem sssv (x : Cmd) : Statement (.sssv x) := ofBase rfl (by simp)
theorem ssrbk (x : Cmd) : Statement (.ssrbk x) := ofBase rfl (by simp)
theorem ssfrk (x : Cmd) : Statement (.ssfrk x) := ofBase rfl (by simp)
theorem ssqry (x : Cmd) : Statement (.ssqry x) := ofBase rfl (by simp)
theorem oalc (x : Cmd) : Statement (.oalc x) := ofBase rfl (by simp)
theorem ofre (x : Cmd) : Statement (.ofre x) := ofBase rfl (by simp)
theorem oloc (x : Cmd) : Statement (.oloc x) := ofBase rfl (by simp)
theorem opin (x : Cmd) : Statement (.opin x) := ofBase rfl (by simp)
theorem ounp (x : Cmd) : Statement (.ounp x) := ofBase rfl (by simp)
theorem ocol (x : Cmd) : Statement (.ocol x) := ofBase rfl (by simp)
theorem omig (x : Cmd) : Statement (.omig x) := ofBase rfl (by simp)
theorem ocln (x : Cmd) : Statement (.ocln x) := ofBase rfl (by simp)
theorem ored (x : Cmd) : Statement (.ored x) := ofBase rfl (by simp)
theorem obar (x : Cmd) : Statement (.obar x) := ofBase rfl (by simp)
theorem rcomm (x : Cmd) : Statement (.rcomm x) := ofBase rfl (by simp)
theorem rcqry (x : Cmd) : Statement (.rcqry x) := ofBase rfl (by simp)
theorem rcver (x : Cmd) : Statement (.rcver x) := ofBase rfl (by simp)
theorem yield : Statement .yield := ofBase rfl (by simp)
theorem join : Statement .join := ofBase rfl (by simp)
theorem tend : Statement .tend := ofBase rfl (by simp)
theorem tret : Statement .tret := ofBase rfl (by simp)
theorem nop : Statement .nop := ofBase rfl (by simp)
theorem loadReturn : Statement .loadReturn := ofNone rfl
theorem pageWalkDone : Statement .pageWalkDone := ofNone rfl
theorem ibufFill : Statement .ibufFill := ofNone rfl
theorem engineCompletion : Statement .engineCompletion := ofNone rfl
theorem blockingAnswer : Statement .blockingAnswer := ofNone rfl
theorem releaseAcksDone : Statement .releaseAcksDone := ofNone rfl
theorem tendDone : Statement .tendDone := ofNone rfl
theorem syncWordCount : Statement .syncWordCount := ofNone rfl
theorem napWake : Statement .napWake := ofNone rfl
theorem napTimeout : Statement .napTimeout := ofNone rfl
theorem syncto : Statement .syncto := ofNone rfl
theorem trapEntry : Statement .trapEntry := ofNone rfl
theorem handlerPreempt : Statement .handlerPreempt := ofNone rfl
theorem oreq : Statement .oreq := ofNone rfl
theorem ofwd : Statement .ofwd := ofNone rfl
theorem olupd : Statement .olupd := ofNone rfl
theorem orsp : Statement .orsp := ofNone rfl
theorem oabs : Statement .oabs := ofNone rfl
theorem ocon : Statement .ocon := ofNone rfl
theorem regq : Statement .regq := ofNone rfl
theorem rega : Statement .rega := ofNone rfl
theorem malc : Statement .malc := ofNone rfl
theorem mala : Statement .mala := ofNone rfl
theorem mcpy : Statement .mcpy := ofNone rfl
theorem mcpa : Statement .mcpa := ofNone rfl
theorem copyPassEnd : Statement .copyPassEnd := ofNone rfl
theorem regupd : Statement .regupd := ofNone rfl
theorem regack : Statement .regack := ofNone rfl
theorem mact : Statement .mact := ofNone rfl
theorem mrel : Statement .mrel := ofNone rfl
theorem stubCollect : Statement .stubCollect := ofNone rfl
theorem rds : Statement .rds := ofNone rfl
theorem rdo : Statement .rdo := ofNone rfl
theorem upg : Statement .upg := ofNone rfl
theorem wbd : Statement .wbd := ofNone rfl
theorem evc : Statement .evc := ofNone rfl
theorem snps : Statement .snps := ofNone rfl
theorem snpi : Statement .snpi := ofNone rfl
theorem binv : Statement .binv := ofNone rfl
theorem data : Statement .data := ofNone rfl
theorem gnt : Statement .gnt := ofNone rfl
theorem iack : Statement .iack := ofNone rfl
theorem cmp : Statement .cmp := ofNone rfl
theorem drn : Statement .drn := ofNone rfl
theorem l1Writeback : Statement .l1Writeback := ofNone rfl
theorem drainDone : Statement .drainDone := ofNone rfl
theorem rclr : Statement .rclr := ofNone rfl
theorem podDirOreq : Statement .podDirOreq := ofNone rfl
theorem orspAtSwitch : Statement .orspAtSwitch := ofNone rfl
theorem pinv : Statement .pinv := ofNone rfl
theorem piack : Statement .piack := ofNone rfl
theorem psi : Statement .psi := ofNone rfl
theorem psia : Statement .psia := ofNone rfl
theorem psclr : Statement .psclr := ofNone rfl
theorem hostRead : Statement .hostRead := ofNone rfl
theorem hostWrite : Statement .hostWrite := ofNone rfl
theorem bisnpAnswer : Statement .bisnpAnswer := ofNone rfl
theorem hbtoExpiry : Statement .hbtoExpiry := ofNone rfl
theorem frtoExpiry : Statement .frtoExpiry := ofNone rfl
theorem peerTimeout : Statement .peerTimeout := ofNone rfl
theorem packetAgeDiscard : Statement .packetAgeDiscard := ofNone rfl
theorem podMapAdopt : Statement .podMapAdopt := ofNone rfl
theorem epochAnnounce : Statement .epochAnnounce := ofNone rfl
theorem portDown : Statement .portDown := ofNone rfl
theorem flitRetry : Statement .flitRetry := ofNone rfl
theorem collectiveContribution : Statement .collectiveContribution := ofNone rfl
theorem collectiveTableWrite : Statement .collectiveTableWrite := ofNone rfl
theorem rdur : Statement .rdur := ofNone rfl
theorem rdura : Statement .rdura := ofNone rfl
theorem rclose : Statement .rclose := ofNone rfl
theorem rclosa : Statement .rclosa := ofNone rfl
theorem durableAccept : Statement .durableAccept := ofNone rfl
theorem durableWriteback : Statement .durableWriteback := ofNone rfl
theorem settlerSweep : Statement .settlerSweep := ofNone rfl
theorem containmentScan : Statement .containmentScan := ofNone rfl
theorem drst : Statement .drst := ofNone rfl
theorem watchdog : Statement .watchdog := ofNone rfl
theorem wholeDeviceReset : Statement .wholeDeviceReset := ofNone rfl
theorem thermalTrip : Statement .thermalTrip := ofNone rfl
theorem clockAdjust : Statement .clockAdjust := ofNone rfl
theorem tlbinv : Statement .tlbinv := ofNone rfl
theorem tlbinvComplete : Statement .tlbinvComplete := ofNone rfl
theorem lcinv : Statement .lcinv := ofNone rfl
theorem kret : Statement .kret := ofNone rfl
theorem keyRetireComplete : Statement .keyRetireComplete := ofNone rfl
theorem kload : Statement .kload := ofNone rfl
theorem fxopGive : Statement .fxopGive := ofNone rfl
theorem fxopTake : Statement .fxopTake := ofNone rfl
theorem fxbEnable : Statement .fxbEnable := ofNone rfl
theorem rrdEnable : Statement .rrdEnable := ofNone rfl
theorem rrdDisable : Statement .rrdDisable := ofNone rfl
theorem rrdDisableComplete : Statement .rrdDisableComplete := ofNone rfl
theorem rrdSetTpol : Statement .rrdSetTpol := ofNone rfl
theorem kvwWrite : Statement .kvwWrite := ofNone rfl
theorem kvwEffect : Statement .kvwEffect := ofNone rfl
theorem preq : Statement .preq := ofNone rfl
theorem gdbgHalt : Statement .gdbgHalt := ofNone rfl
theorem gdbgResume : Statement .gdbgResume := ofNone rfl
theorem devnumWrite : Statement .devnumWrite := ofNone rfl
theorem tailWrite : Statement .tailWrite := ofNone rfl
theorem rcrtEnable : Statement .rcrtEnable := ofNone rfl
theorem rcrtDisable : Statement .rcrtDisable := ofNone rfl
theorem pfailClear : Statement .pfailClear := ofNone rfl
theorem tableBaseWrite : Statement .tableBaseWrite := ofNone rfl
theorem ringBaseWrite : Statement .ringBaseWrite := ofNone rfl
theorem debugWindowWrite : Statement .debugWindowWrite := ofNone rfl
theorem registerWrite : Statement .registerWrite := ofNone rfl
theorem launchAccept : Statement .launchAccept := ofNone rfl
theorem dependenceWake : Statement .dependenceWake := ofNone rfl
theorem blockPlace : Statement .blockPlace := ofNone rfl
theorem placeBackoff : Statement .placeBackoff := ofNone rfl
theorem storageClearDone : Statement .storageClearDone := ofNone rfl
theorem blockRetire : Statement .blockRetire := ofNone rfl
theorem queue63Release : Statement .queue63Release := ofNone rfl
theorem timeSlice : Statement .timeSlice := ofNone rfl
theorem priorityWait : Statement .priorityWait := ofNone rfl
theorem preemptModeChoice : Statement .preemptModeChoice := ofNone rfl
theorem blockSave : Statement .blockSave := ofNone rfl
theorem blockFlush : Statement .blockFlush := ofNone rfl
theorem blockRestore : Statement .blockRestore := ofNone rfl
theorem stateStoreOp : Statement .stateStoreOp := ofNone rfl
theorem tilePassStart : Statement .tilePassStart := ofNone rfl
theorem weightLatch : Statement .weightLatch := ofNone rfl
theorem peaWalkStart : Statement .peaWalkStart := ofNone rfl
theorem headerReturn : Statement .headerReturn := ofNone rfl
theorem promotionCheck : Statement .promotionCheck := ofNone rfl
theorem regenSeal : Statement .regenSeal := ofNone rfl
theorem regenTimeout : Statement .regenTimeout := ofNone rfl
theorem attnItem : Statement .attnItem := ofNone rfl
theorem tripleReturn : Statement .tripleReturn := ofNone rfl
theorem holdLapse : Statement .holdLapse := ofNone rfl
theorem wayGate : Statement .wayGate := ofNone rfl
theorem wayWakeDone : Statement .wayWakeDone := ofNone rfl
theorem segmentClearDone : Statement .segmentClearDone := ofNone rfl
theorem patrolScrub : Statement .patrolScrub := ofNone rfl
theorem idleEntry : Statement .idleEntry := ofNone rfl
theorem wake : Statement .wake := ofNone rfl
theorem getVersion : Statement .getVersion := ofNone rfl
theorem getCapabilities : Statement .getCapabilities := ofNone rfl
theorem negotiateAlgorithms : Statement .negotiateAlgorithms := ofNone rfl
theorem getDigests : Statement .getDigests := ofNone rfl
theorem getCertificate : Statement .getCertificate := ofNone rfl
theorem challenge : Statement .challenge := ofNone rfl
theorem getMeasurements : Statement .getMeasurements := ofNone rfl
theorem spdmUnsupported : Statement .spdmUnsupported := ofNone rfl
theorem linkTraining : Statement .linkTraining := ofNone rfl
theorem modulePowerOn : Statement .modulePowerOn := ofNone rfl
theorem chunkSend : Statement .chunkSend := ofNone rfl
theorem levelSample : Statement .levelSample := ofNone rfl

end Laws.Encoded

end Sys2Proof
end

