-- ==== Sys2Proof/Laws/State.lean ====
section
/-! SUPPORT. One lemma per field for each update of the state: what an update leaves as it was. -/

namespace Sys2Proof.Machine

@[simp] theorem State.push_timers (s : State) (m : Msg) : (s.push m).timers = s.timers := rfl
@[simp] theorem State.push_cycle (s : State) (m : Msg) : (s.push m).cycle = s.cycle := rfl
@[simp] theorem State.push_free (s : State) (m : Msg) : (s.push m).free = s.free := rfl
@[simp] theorem State.push_issue (s : State) (m : Msg) : (s.push m).issue = s.issue := rfl
@[simp] theorem State.push_msg (s : State) (m : Msg) : (s.push m).msg = s.msg := rfl
@[simp] theorem State.push_gangs (s : State) (m : Msg) : (s.push m).gangs = s.gangs := rfl
@[simp] theorem State.push_cores (s : State) (m : Msg) : (s.push m).cores = s.cores := rfl
@[simp] theorem State.push_mem (s : State) (m : Msg) : (s.push m).mem = s.mem := rfl
@[simp] theorem State.push_lmeta (s : State) (m : Msg) : (s.push m).lmeta = s.lmeta := rfl
@[simp] theorem State.push_coh (s : State) (m : Msg) : (s.push m).coh = s.coh := rfl
@[simp] theorem State.push_dcb (s : State) (m : Msg) : (s.push m).dcb = s.dcb := rfl
@[simp] theorem State.push_fab (s : State) (m : Msg) : (s.push m).fab = s.fab := rfl
@[simp] theorem State.push_rcv (s : State) (m : Msg) : (s.push m).rcv = s.rcv := rfl
@[simp] theorem State.push_sched (s : State) (m : Msg) : (s.push m).sched = s.sched := rfl
@[simp] theorem State.push_eng (s : State) (m : Msg) : (s.push m).eng = s.eng := rfl
@[simp] theorem State.push_host (s : State) (m : Msg) : (s.push m).host = s.host := rfl

@[simp] theorem State.errEvent_pending (s : State) (h : Dcb → Dcb) : (s.errEvent h).pending = s.pending := rfl
@[simp] theorem State.errEvent_timers (s : State) (h : Dcb → Dcb) : (s.errEvent h).timers = s.timers := rfl
@[simp] theorem State.errEvent_cycle (s : State) (h : Dcb → Dcb) : (s.errEvent h).cycle = s.cycle := rfl
@[simp] theorem State.errEvent_free (s : State) (h : Dcb → Dcb) : (s.errEvent h).free = s.free := rfl
@[simp] theorem State.errEvent_issue (s : State) (h : Dcb → Dcb) : (s.errEvent h).issue = s.issue := rfl
@[simp] theorem State.errEvent_msg (s : State) (h : Dcb → Dcb) : (s.errEvent h).msg = s.msg := rfl
@[simp] theorem State.errEvent_gangs (s : State) (h : Dcb → Dcb) : (s.errEvent h).gangs = s.gangs := rfl
@[simp] theorem State.errEvent_cores (s : State) (h : Dcb → Dcb) : (s.errEvent h).cores = s.cores := rfl
@[simp] theorem State.errEvent_mem (s : State) (h : Dcb → Dcb) : (s.errEvent h).mem = s.mem := rfl
@[simp] theorem State.errEvent_lmeta (s : State) (h : Dcb → Dcb) : (s.errEvent h).lmeta = s.lmeta := rfl
@[simp] theorem State.errEvent_coh (s : State) (h : Dcb → Dcb) : (s.errEvent h).coh = s.coh := rfl
@[simp] theorem State.errEvent_fab (s : State) (h : Dcb → Dcb) : (s.errEvent h).fab = s.fab := rfl
@[simp] theorem State.errEvent_rcv (s : State) (h : Dcb → Dcb) : (s.errEvent h).rcv = s.rcv := rfl
@[simp] theorem State.errEvent_sched (s : State) (h : Dcb → Dcb) : (s.errEvent h).sched = s.sched := rfl
@[simp] theorem State.errEvent_eng (s : State) (h : Dcb → Dcb) : (s.errEvent h).eng = s.eng := rfl
@[simp] theorem State.errEvent_host (s : State) (h : Dcb → Dcb) : (s.errEvent h).host = s.host := rfl

@[simp] theorem State.after_pending (s : State) (n : Nat) (m : Msg) : (s.after n m).pending = s.pending := rfl
@[simp] theorem State.after_cycle (s : State) (n : Nat) (m : Msg) : (s.after n m).cycle = s.cycle := rfl
@[simp] theorem State.after_free (s : State) (n : Nat) (m : Msg) : (s.after n m).free = s.free := rfl
@[simp] theorem State.after_issue (s : State) (n : Nat) (m : Msg) : (s.after n m).issue = s.issue := rfl
@[simp] theorem State.after_msg (s : State) (n : Nat) (m : Msg) : (s.after n m).msg = s.msg := rfl
@[simp] theorem State.after_gangs (s : State) (n : Nat) (m : Msg) : (s.after n m).gangs = s.gangs := rfl
@[simp] theorem State.after_cores (s : State) (n : Nat) (m : Msg) : (s.after n m).cores = s.cores := rfl
@[simp] theorem State.after_mem (s : State) (n : Nat) (m : Msg) : (s.after n m).mem = s.mem := rfl
@[simp] theorem State.after_lmeta (s : State) (n : Nat) (m : Msg) : (s.after n m).lmeta = s.lmeta := rfl
@[simp] theorem State.after_coh (s : State) (n : Nat) (m : Msg) : (s.after n m).coh = s.coh := rfl
@[simp] theorem State.after_dcb (s : State) (n : Nat) (m : Msg) : (s.after n m).dcb = s.dcb := rfl
@[simp] theorem State.after_fab (s : State) (n : Nat) (m : Msg) : (s.after n m).fab = s.fab := rfl
@[simp] theorem State.after_rcv (s : State) (n : Nat) (m : Msg) : (s.after n m).rcv = s.rcv := rfl
@[simp] theorem State.after_sched (s : State) (n : Nat) (m : Msg) : (s.after n m).sched = s.sched := rfl
@[simp] theorem State.after_eng (s : State) (n : Nat) (m : Msg) : (s.after n m).eng = s.eng := rfl
@[simp] theorem State.after_host (s : State) (n : Nat) (m : Msg) : (s.after n m).host = s.host := rfl

@[simp] theorem State.putGang_pending (s : State) (k : Nat) (g : Gang) : (s.putGang k g).pending = s.pending := rfl
@[simp] theorem State.putGang_timers (s : State) (k : Nat) (g : Gang) : (s.putGang k g).timers = s.timers := rfl
@[simp] theorem State.putGang_cycle (s : State) (k : Nat) (g : Gang) : (s.putGang k g).cycle = s.cycle := rfl
@[simp] theorem State.putGang_free (s : State) (k : Nat) (g : Gang) : (s.putGang k g).free = s.free := rfl
@[simp] theorem State.putGang_issue (s : State) (k : Nat) (g : Gang) : (s.putGang k g).issue = s.issue := rfl
@[simp] theorem State.putGang_msg (s : State) (k : Nat) (g : Gang) : (s.putGang k g).msg = s.msg := rfl
@[simp] theorem State.putGang_cores (s : State) (k : Nat) (g : Gang) : (s.putGang k g).cores = s.cores := rfl
@[simp] theorem State.putGang_mem (s : State) (k : Nat) (g : Gang) : (s.putGang k g).mem = s.mem := rfl
@[simp] theorem State.putGang_lmeta (s : State) (k : Nat) (g : Gang) : (s.putGang k g).lmeta = s.lmeta := rfl
@[simp] theorem State.putGang_coh (s : State) (k : Nat) (g : Gang) : (s.putGang k g).coh = s.coh := rfl
@[simp] theorem State.putGang_dcb (s : State) (k : Nat) (g : Gang) : (s.putGang k g).dcb = s.dcb := rfl
@[simp] theorem State.putGang_fab (s : State) (k : Nat) (g : Gang) : (s.putGang k g).fab = s.fab := rfl
@[simp] theorem State.putGang_rcv (s : State) (k : Nat) (g : Gang) : (s.putGang k g).rcv = s.rcv := rfl
@[simp] theorem State.putGang_sched (s : State) (k : Nat) (g : Gang) : (s.putGang k g).sched = s.sched := rfl
@[simp] theorem State.putGang_eng (s : State) (k : Nat) (g : Gang) : (s.putGang k g).eng = s.eng := rfl
@[simp] theorem State.putGang_host (s : State) (k : Nat) (g : Gang) : (s.putGang k g).host = s.host := rfl

@[simp] theorem State.putLaunch_pending (s : State) (k : Nat) (l : Launch) : (s.putLaunch k l).pending = s.pending := rfl
@[simp] theorem State.putLaunch_timers (s : State) (k : Nat) (l : Launch) : (s.putLaunch k l).timers = s.timers := rfl
@[simp] theorem State.putLaunch_cycle (s : State) (k : Nat) (l : Launch) : (s.putLaunch k l).cycle = s.cycle := rfl
@[simp] theorem State.putLaunch_free (s : State) (k : Nat) (l : Launch) : (s.putLaunch k l).free = s.free := rfl
@[simp] theorem State.putLaunch_issue (s : State) (k : Nat) (l : Launch) : (s.putLaunch k l).issue = s.issue := rfl
@[simp] theorem State.putLaunch_msg (s : State) (k : Nat) (l : Launch) : (s.putLaunch k l).msg = s.msg := rfl
@[simp] theorem State.putLaunch_gangs (s : State) (k : Nat) (l : Launch) : (s.putLaunch k l).gangs = s.gangs := rfl
@[simp] theorem State.putLaunch_cores (s : State) (k : Nat) (l : Launch) : (s.putLaunch k l).cores = s.cores := rfl
@[simp] theorem State.putLaunch_mem (s : State) (k : Nat) (l : Launch) : (s.putLaunch k l).mem = s.mem := rfl
@[simp] theorem State.putLaunch_lmeta (s : State) (k : Nat) (l : Launch) : (s.putLaunch k l).lmeta = s.lmeta := rfl
@[simp] theorem State.putLaunch_coh (s : State) (k : Nat) (l : Launch) : (s.putLaunch k l).coh = s.coh := rfl
@[simp] theorem State.putLaunch_dcb (s : State) (k : Nat) (l : Launch) : (s.putLaunch k l).dcb = s.dcb := rfl
@[simp] theorem State.putLaunch_fab (s : State) (k : Nat) (l : Launch) : (s.putLaunch k l).fab = s.fab := rfl
@[simp] theorem State.putLaunch_rcv (s : State) (k : Nat) (l : Launch) : (s.putLaunch k l).rcv = s.rcv := rfl
@[simp] theorem State.putLaunch_eng (s : State) (k : Nat) (l : Launch) : (s.putLaunch k l).eng = s.eng := rfl
@[simp] theorem State.putLaunch_host (s : State) (k : Nat) (l : Launch) : (s.putLaunch k l).host = s.host := rfl

@[simp] theorem State.putBlock_pending (s : State) (k : Nat) (b : Block) : (s.putBlock k b).pending = s.pending := rfl
@[simp] theorem State.putBlock_timers (s : State) (k : Nat) (b : Block) : (s.putBlock k b).timers = s.timers := rfl
@[simp] theorem State.putBlock_cycle (s : State) (k : Nat) (b : Block) : (s.putBlock k b).cycle = s.cycle := rfl
@[simp] theorem State.putBlock_free (s : State) (k : Nat) (b : Block) : (s.putBlock k b).free = s.free := rfl
@[simp] theorem State.putBlock_issue (s : State) (k : Nat) (b : Block) : (s.putBlock k b).issue = s.issue := rfl
@[simp] theorem State.putBlock_msg (s : State) (k : Nat) (b : Block) : (s.putBlock k b).msg = s.msg := rfl
@[simp] theorem State.putBlock_gangs (s : State) (k : Nat) (b : Block) : (s.putBlock k b).gangs = s.gangs := rfl
@[simp] theorem State.putBlock_cores (s : State) (k : Nat) (b : Block) : (s.putBlock k b).cores = s.cores := rfl
@[simp] theorem State.putBlock_mem (s : State) (k : Nat) (b : Block) : (s.putBlock k b).mem = s.mem := rfl
@[simp] theorem State.putBlock_lmeta (s : State) (k : Nat) (b : Block) : (s.putBlock k b).lmeta = s.lmeta := rfl
@[simp] theorem State.putBlock_coh (s : State) (k : Nat) (b : Block) : (s.putBlock k b).coh = s.coh := rfl
@[simp] theorem State.putBlock_dcb (s : State) (k : Nat) (b : Block) : (s.putBlock k b).dcb = s.dcb := rfl
@[simp] theorem State.putBlock_fab (s : State) (k : Nat) (b : Block) : (s.putBlock k b).fab = s.fab := rfl
@[simp] theorem State.putBlock_rcv (s : State) (k : Nat) (b : Block) : (s.putBlock k b).rcv = s.rcv := rfl
@[simp] theorem State.putBlock_eng (s : State) (k : Nat) (b : Block) : (s.putBlock k b).eng = s.eng := rfl
@[simp] theorem State.putBlock_host (s : State) (k : Nat) (b : Block) : (s.putBlock k b).host = s.host := rfl

@[simp] theorem State.putCore_pending (s : State) (k : Nat) (c : CoreSt) : (s.putCore k c).pending = s.pending := rfl
@[simp] theorem State.putCore_timers (s : State) (k : Nat) (c : CoreSt) : (s.putCore k c).timers = s.timers := rfl
@[simp] theorem State.putCore_cycle (s : State) (k : Nat) (c : CoreSt) : (s.putCore k c).cycle = s.cycle := rfl
@[simp] theorem State.putCore_free (s : State) (k : Nat) (c : CoreSt) : (s.putCore k c).free = s.free := rfl
@[simp] theorem State.putCore_issue (s : State) (k : Nat) (c : CoreSt) : (s.putCore k c).issue = s.issue := rfl
@[simp] theorem State.putCore_msg (s : State) (k : Nat) (c : CoreSt) : (s.putCore k c).msg = s.msg := rfl
@[simp] theorem State.putCore_gangs (s : State) (k : Nat) (c : CoreSt) : (s.putCore k c).gangs = s.gangs := rfl
@[simp] theorem State.putCore_mem (s : State) (k : Nat) (c : CoreSt) : (s.putCore k c).mem = s.mem := rfl
@[simp] theorem State.putCore_lmeta (s : State) (k : Nat) (c : CoreSt) : (s.putCore k c).lmeta = s.lmeta := rfl
@[simp] theorem State.putCore_coh (s : State) (k : Nat) (c : CoreSt) : (s.putCore k c).coh = s.coh := rfl
@[simp] theorem State.putCore_dcb (s : State) (k : Nat) (c : CoreSt) : (s.putCore k c).dcb = s.dcb := rfl
@[simp] theorem State.putCore_fab (s : State) (k : Nat) (c : CoreSt) : (s.putCore k c).fab = s.fab := rfl
@[simp] theorem State.putCore_rcv (s : State) (k : Nat) (c : CoreSt) : (s.putCore k c).rcv = s.rcv := rfl
@[simp] theorem State.putCore_sched (s : State) (k : Nat) (c : CoreSt) : (s.putCore k c).sched = s.sched := rfl
@[simp] theorem State.putCore_eng (s : State) (k : Nat) (c : CoreSt) : (s.putCore k c).eng = s.eng := rfl
@[simp] theorem State.putCore_host (s : State) (k : Nat) (c : CoreSt) : (s.putCore k c).host = s.host := rfl

@[simp] theorem State.setLm_pending (s : State) (la : Nat) (m : LineMeta) : (s.setLm la m).pending = s.pending := rfl
@[simp] theorem State.setLm_timers (s : State) (la : Nat) (m : LineMeta) : (s.setLm la m).timers = s.timers := rfl
@[simp] theorem State.setLm_cycle (s : State) (la : Nat) (m : LineMeta) : (s.setLm la m).cycle = s.cycle := rfl
@[simp] theorem State.setLm_free (s : State) (la : Nat) (m : LineMeta) : (s.setLm la m).free = s.free := rfl
@[simp] theorem State.setLm_issue (s : State) (la : Nat) (m : LineMeta) : (s.setLm la m).issue = s.issue := rfl
@[simp] theorem State.setLm_msg (s : State) (la : Nat) (m : LineMeta) : (s.setLm la m).msg = s.msg := rfl
@[simp] theorem State.setLm_gangs (s : State) (la : Nat) (m : LineMeta) : (s.setLm la m).gangs = s.gangs := rfl
@[simp] theorem State.setLm_cores (s : State) (la : Nat) (m : LineMeta) : (s.setLm la m).cores = s.cores := rfl
@[simp] theorem State.setLm_mem (s : State) (la : Nat) (m : LineMeta) : (s.setLm la m).mem = s.mem := rfl
@[simp] theorem State.setLm_coh (s : State) (la : Nat) (m : LineMeta) : (s.setLm la m).coh = s.coh := rfl
@[simp] theorem State.setLm_dcb (s : State) (la : Nat) (m : LineMeta) : (s.setLm la m).dcb = s.dcb := rfl
@[simp] theorem State.setLm_fab (s : State) (la : Nat) (m : LineMeta) : (s.setLm la m).fab = s.fab := rfl
@[simp] theorem State.setLm_rcv (s : State) (la : Nat) (m : LineMeta) : (s.setLm la m).rcv = s.rcv := rfl
@[simp] theorem State.setLm_sched (s : State) (la : Nat) (m : LineMeta) : (s.setLm la m).sched = s.sched := rfl
@[simp] theorem State.setLm_eng (s : State) (la : Nat) (m : LineMeta) : (s.setLm la m).eng = s.eng := rfl
@[simp] theorem State.setLm_host (s : State) (la : Nat) (m : LineMeta) : (s.setLm la m).host = s.host := rfl

@[simp] theorem State.dropSl_pending (s : State) (d : Nat) (l : LineId) : (s.dropSl d l).pending = s.pending := rfl
@[simp] theorem State.dropSl_timers (s : State) (d : Nat) (l : LineId) : (s.dropSl d l).timers = s.timers := rfl
@[simp] theorem State.dropSl_cycle (s : State) (d : Nat) (l : LineId) : (s.dropSl d l).cycle = s.cycle := rfl
@[simp] theorem State.dropSl_free (s : State) (d : Nat) (l : LineId) : (s.dropSl d l).free = s.free := rfl
@[simp] theorem State.dropSl_issue (s : State) (d : Nat) (l : LineId) : (s.dropSl d l).issue = s.issue := rfl
@[simp] theorem State.dropSl_msg (s : State) (d : Nat) (l : LineId) : (s.dropSl d l).msg = s.msg := rfl
@[simp] theorem State.dropSl_gangs (s : State) (d : Nat) (l : LineId) : (s.dropSl d l).gangs = s.gangs := rfl
@[simp] theorem State.dropSl_cores (s : State) (d : Nat) (l : LineId) : (s.dropSl d l).cores = s.cores := rfl
@[simp] theorem State.dropSl_mem (s : State) (d : Nat) (l : LineId) : (s.dropSl d l).mem = s.mem := rfl
@[simp] theorem State.dropSl_lmeta (s : State) (d : Nat) (l : LineId) : (s.dropSl d l).lmeta = s.lmeta := rfl
@[simp] theorem State.dropSl_dcb (s : State) (d : Nat) (l : LineId) : (s.dropSl d l).dcb = s.dcb := rfl
@[simp] theorem State.dropSl_fab (s : State) (d : Nat) (l : LineId) : (s.dropSl d l).fab = s.fab := rfl
@[simp] theorem State.dropSl_rcv (s : State) (d : Nat) (l : LineId) : (s.dropSl d l).rcv = s.rcv := rfl
@[simp] theorem State.dropSl_sched (s : State) (d : Nat) (l : LineId) : (s.dropSl d l).sched = s.sched := rfl
@[simp] theorem State.dropSl_eng (s : State) (d : Nat) (l : LineId) : (s.dropSl d l).eng = s.eng := rfl
@[simp] theorem State.dropSl_host (s : State) (d : Nat) (l : LineId) : (s.dropSl d l).host = s.host := rfl

@[simp] theorem State.putSl_pending (s : State) (x : SLine) : (s.putSl x).pending = s.pending := rfl
@[simp] theorem State.putSl_timers (s : State) (x : SLine) : (s.putSl x).timers = s.timers := rfl
@[simp] theorem State.putSl_cycle (s : State) (x : SLine) : (s.putSl x).cycle = s.cycle := rfl
@[simp] theorem State.putSl_free (s : State) (x : SLine) : (s.putSl x).free = s.free := rfl
@[simp] theorem State.putSl_issue (s : State) (x : SLine) : (s.putSl x).issue = s.issue := rfl
@[simp] theorem State.putSl_msg (s : State) (x : SLine) : (s.putSl x).msg = s.msg := rfl
@[simp] theorem State.putSl_gangs (s : State) (x : SLine) : (s.putSl x).gangs = s.gangs := rfl
@[simp] theorem State.putSl_cores (s : State) (x : SLine) : (s.putSl x).cores = s.cores := rfl
@[simp] theorem State.putSl_mem (s : State) (x : SLine) : (s.putSl x).mem = s.mem := rfl
@[simp] theorem State.putSl_lmeta (s : State) (x : SLine) : (s.putSl x).lmeta = s.lmeta := rfl
@[simp] theorem State.putSl_dcb (s : State) (x : SLine) : (s.putSl x).dcb = s.dcb := rfl
@[simp] theorem State.putSl_fab (s : State) (x : SLine) : (s.putSl x).fab = s.fab := rfl
@[simp] theorem State.putSl_rcv (s : State) (x : SLine) : (s.putSl x).rcv = s.rcv := rfl
@[simp] theorem State.putSl_sched (s : State) (x : SLine) : (s.putSl x).sched = s.sched := rfl
@[simp] theorem State.putSl_eng (s : State) (x : SLine) : (s.putSl x).eng = s.eng := rfl
@[simp] theorem State.putSl_host (s : State) (x : SLine) : (s.putSl x).host = s.host := rfl

@[simp] theorem State.putDir_pending (s : State) (e : DirEnt) : (s.putDir e).pending = s.pending := rfl
@[simp] theorem State.putDir_timers (s : State) (e : DirEnt) : (s.putDir e).timers = s.timers := rfl
@[simp] theorem State.putDir_cycle (s : State) (e : DirEnt) : (s.putDir e).cycle = s.cycle := rfl
@[simp] theorem State.putDir_free (s : State) (e : DirEnt) : (s.putDir e).free = s.free := rfl
@[simp] theorem State.putDir_issue (s : State) (e : DirEnt) : (s.putDir e).issue = s.issue := rfl
@[simp] theorem State.putDir_msg (s : State) (e : DirEnt) : (s.putDir e).msg = s.msg := rfl
@[simp] theorem State.putDir_gangs (s : State) (e : DirEnt) : (s.putDir e).gangs = s.gangs := rfl
@[simp] theorem State.putDir_cores (s : State) (e : DirEnt) : (s.putDir e).cores = s.cores := rfl
@[simp] theorem State.putDir_mem (s : State) (e : DirEnt) : (s.putDir e).mem = s.mem := rfl
@[simp] theorem State.putDir_lmeta (s : State) (e : DirEnt) : (s.putDir e).lmeta = s.lmeta := rfl
@[simp] theorem State.putDir_dcb (s : State) (e : DirEnt) : (s.putDir e).dcb = s.dcb := rfl
@[simp] theorem State.putDir_fab (s : State) (e : DirEnt) : (s.putDir e).fab = s.fab := rfl
@[simp] theorem State.putDir_rcv (s : State) (e : DirEnt) : (s.putDir e).rcv = s.rcv := rfl
@[simp] theorem State.putDir_sched (s : State) (e : DirEnt) : (s.putDir e).sched = s.sched := rfl
@[simp] theorem State.putDir_eng (s : State) (e : DirEnt) : (s.putDir e).eng = s.eng := rfl
@[simp] theorem State.putDir_host (s : State) (e : DirEnt) : (s.putDir e).host = s.host := rfl

@[simp] theorem State.sendOut_pending (s : State) (d : Nat) (k : Instr) (a : List Nat) : (s.sendOut d k a).pending = s.pending := rfl
@[simp] theorem State.sendOut_timers (s : State) (d : Nat) (k : Instr) (a : List Nat) : (s.sendOut d k a).timers = s.timers := rfl
@[simp] theorem State.sendOut_cycle (s : State) (d : Nat) (k : Instr) (a : List Nat) : (s.sendOut d k a).cycle = s.cycle := rfl
@[simp] theorem State.sendOut_free (s : State) (d : Nat) (k : Instr) (a : List Nat) : (s.sendOut d k a).free = s.free := rfl
@[simp] theorem State.sendOut_issue (s : State) (d : Nat) (k : Instr) (a : List Nat) : (s.sendOut d k a).issue = s.issue := rfl
@[simp] theorem State.sendOut_msg (s : State) (d : Nat) (k : Instr) (a : List Nat) : (s.sendOut d k a).msg = s.msg := rfl
@[simp] theorem State.sendOut_gangs (s : State) (d : Nat) (k : Instr) (a : List Nat) : (s.sendOut d k a).gangs = s.gangs := rfl
@[simp] theorem State.sendOut_cores (s : State) (d : Nat) (k : Instr) (a : List Nat) : (s.sendOut d k a).cores = s.cores := rfl
@[simp] theorem State.sendOut_mem (s : State) (d : Nat) (k : Instr) (a : List Nat) : (s.sendOut d k a).mem = s.mem := rfl
@[simp] theorem State.sendOut_lmeta (s : State) (d : Nat) (k : Instr) (a : List Nat) : (s.sendOut d k a).lmeta = s.lmeta := rfl
@[simp] theorem State.sendOut_coh (s : State) (d : Nat) (k : Instr) (a : List Nat) : (s.sendOut d k a).coh = s.coh := rfl
@[simp] theorem State.sendOut_dcb (s : State) (d : Nat) (k : Instr) (a : List Nat) : (s.sendOut d k a).dcb = s.dcb := rfl
@[simp] theorem State.sendOut_rcv (s : State) (d : Nat) (k : Instr) (a : List Nat) : (s.sendOut d k a).rcv = s.rcv := rfl
@[simp] theorem State.sendOut_sched (s : State) (d : Nat) (k : Instr) (a : List Nat) : (s.sendOut d k a).sched = s.sched := rfl
@[simp] theorem State.sendOut_eng (s : State) (d : Nat) (k : Instr) (a : List Nat) : (s.sendOut d k a).eng = s.eng := rfl
@[simp] theorem State.sendOut_host (s : State) (d : Nat) (k : Instr) (a : List Nat) : (s.sendOut d k a).host = s.host := rfl

@[simp] theorem State.putRcpt_pending (s : State) (n : Nat) (r : Rcpt) : (s.putRcpt n r).pending = s.pending := rfl
@[simp] theorem State.putRcpt_timers (s : State) (n : Nat) (r : Rcpt) : (s.putRcpt n r).timers = s.timers := rfl
@[simp] theorem State.putRcpt_cycle (s : State) (n : Nat) (r : Rcpt) : (s.putRcpt n r).cycle = s.cycle := rfl
@[simp] theorem State.putRcpt_free (s : State) (n : Nat) (r : Rcpt) : (s.putRcpt n r).free = s.free := rfl
@[simp] theorem State.putRcpt_issue (s : State) (n : Nat) (r : Rcpt) : (s.putRcpt n r).issue = s.issue := rfl
@[simp] theorem State.putRcpt_msg (s : State) (n : Nat) (r : Rcpt) : (s.putRcpt n r).msg = s.msg := rfl
@[simp] theorem State.putRcpt_gangs (s : State) (n : Nat) (r : Rcpt) : (s.putRcpt n r).gangs = s.gangs := rfl
@[simp] theorem State.putRcpt_cores (s : State) (n : Nat) (r : Rcpt) : (s.putRcpt n r).cores = s.cores := rfl
@[simp] theorem State.putRcpt_mem (s : State) (n : Nat) (r : Rcpt) : (s.putRcpt n r).mem = s.mem := rfl
@[simp] theorem State.putRcpt_lmeta (s : State) (n : Nat) (r : Rcpt) : (s.putRcpt n r).lmeta = s.lmeta := rfl
@[simp] theorem State.putRcpt_coh (s : State) (n : Nat) (r : Rcpt) : (s.putRcpt n r).coh = s.coh := rfl
@[simp] theorem State.putRcpt_dcb (s : State) (n : Nat) (r : Rcpt) : (s.putRcpt n r).dcb = s.dcb := rfl
@[simp] theorem State.putRcpt_fab (s : State) (n : Nat) (r : Rcpt) : (s.putRcpt n r).fab = s.fab := rfl
@[simp] theorem State.putRcpt_sched (s : State) (n : Nat) (r : Rcpt) : (s.putRcpt n r).sched = s.sched := rfl
@[simp] theorem State.putRcpt_eng (s : State) (n : Nat) (r : Rcpt) : (s.putRcpt n r).eng = s.eng := rfl
@[simp] theorem State.putRcpt_host (s : State) (n : Nat) (r : Rcpt) : (s.putRcpt n r).host = s.host := rfl

@[simp] theorem State.setRrd_pending (s : State) (n v : Nat) : (s.setRrd n v).pending = s.pending := rfl
@[simp] theorem State.setRrd_timers (s : State) (n v : Nat) : (s.setRrd n v).timers = s.timers := rfl
@[simp] theorem State.setRrd_cycle (s : State) (n v : Nat) : (s.setRrd n v).cycle = s.cycle := rfl
@[simp] theorem State.setRrd_free (s : State) (n v : Nat) : (s.setRrd n v).free = s.free := rfl
@[simp] theorem State.setRrd_issue (s : State) (n v : Nat) : (s.setRrd n v).issue = s.issue := rfl
@[simp] theorem State.setRrd_msg (s : State) (n v : Nat) : (s.setRrd n v).msg = s.msg := rfl
@[simp] theorem State.setRrd_gangs (s : State) (n v : Nat) : (s.setRrd n v).gangs = s.gangs := rfl
@[simp] theorem State.setRrd_cores (s : State) (n v : Nat) : (s.setRrd n v).cores = s.cores := rfl
@[simp] theorem State.setRrd_mem (s : State) (n v : Nat) : (s.setRrd n v).mem = s.mem := rfl
@[simp] theorem State.setRrd_lmeta (s : State) (n v : Nat) : (s.setRrd n v).lmeta = s.lmeta := rfl
@[simp] theorem State.setRrd_coh (s : State) (n v : Nat) : (s.setRrd n v).coh = s.coh := rfl
@[simp] theorem State.setRrd_fab (s : State) (n v : Nat) : (s.setRrd n v).fab = s.fab := rfl
@[simp] theorem State.setRrd_rcv (s : State) (n v : Nat) : (s.setRrd n v).rcv = s.rcv := rfl
@[simp] theorem State.setRrd_sched (s : State) (n v : Nat) : (s.setRrd n v).sched = s.sched := rfl
@[simp] theorem State.setRrd_eng (s : State) (n v : Nat) : (s.setRrd n v).eng = s.eng := rfl
@[simp] theorem State.setRrd_host (s : State) (n v : Nat) : (s.setRrd n v).host = s.host := rfl

@[simp] theorem State.setSlGated_pending (s : State) (i n : Nat) : (s.setSlGated i n).pending = s.pending := rfl
@[simp] theorem State.setSlGated_timers (s : State) (i n : Nat) : (s.setSlGated i n).timers = s.timers := rfl
@[simp] theorem State.setSlGated_cycle (s : State) (i n : Nat) : (s.setSlGated i n).cycle = s.cycle := rfl
@[simp] theorem State.setSlGated_free (s : State) (i n : Nat) : (s.setSlGated i n).free = s.free := rfl
@[simp] theorem State.setSlGated_issue (s : State) (i n : Nat) : (s.setSlGated i n).issue = s.issue := rfl
@[simp] theorem State.setSlGated_msg (s : State) (i n : Nat) : (s.setSlGated i n).msg = s.msg := rfl
@[simp] theorem State.setSlGated_gangs (s : State) (i n : Nat) : (s.setSlGated i n).gangs = s.gangs := rfl
@[simp] theorem State.setSlGated_cores (s : State) (i n : Nat) : (s.setSlGated i n).cores = s.cores := rfl
@[simp] theorem State.setSlGated_mem (s : State) (i n : Nat) : (s.setSlGated i n).mem = s.mem := rfl
@[simp] theorem State.setSlGated_lmeta (s : State) (i n : Nat) : (s.setSlGated i n).lmeta = s.lmeta := rfl
@[simp] theorem State.setSlGated_dcb (s : State) (i n : Nat) : (s.setSlGated i n).dcb = s.dcb := rfl
@[simp] theorem State.setSlGated_fab (s : State) (i n : Nat) : (s.setSlGated i n).fab = s.fab := rfl
@[simp] theorem State.setSlGated_rcv (s : State) (i n : Nat) : (s.setSlGated i n).rcv = s.rcv := rfl
@[simp] theorem State.setSlGated_sched (s : State) (i n : Nat) : (s.setSlGated i n).sched = s.sched := rfl
@[simp] theorem State.setSlGated_eng (s : State) (i n : Nat) : (s.setSlGated i n).eng = s.eng := rfl
@[simp] theorem State.setSlGated_host (s : State) (i n : Nat) : (s.setSlGated i n).host = s.host := rfl

@[simp] theorem State.spdm_pending (s : State) (c v : Nat) : (s.spdm c v).pending = s.pending := rfl
@[simp] theorem State.spdm_timers (s : State) (c v : Nat) : (s.spdm c v).timers = s.timers := rfl
@[simp] theorem State.spdm_cycle (s : State) (c v : Nat) : (s.spdm c v).cycle = s.cycle := rfl
@[simp] theorem State.spdm_free (s : State) (c v : Nat) : (s.spdm c v).free = s.free := rfl
@[simp] theorem State.spdm_issue (s : State) (c v : Nat) : (s.spdm c v).issue = s.issue := rfl
@[simp] theorem State.spdm_msg (s : State) (c v : Nat) : (s.spdm c v).msg = s.msg := rfl
@[simp] theorem State.spdm_gangs (s : State) (c v : Nat) : (s.spdm c v).gangs = s.gangs := rfl
@[simp] theorem State.spdm_cores (s : State) (c v : Nat) : (s.spdm c v).cores = s.cores := rfl
@[simp] theorem State.spdm_mem (s : State) (c v : Nat) : (s.spdm c v).mem = s.mem := rfl
@[simp] theorem State.spdm_lmeta (s : State) (c v : Nat) : (s.spdm c v).lmeta = s.lmeta := rfl
@[simp] theorem State.spdm_coh (s : State) (c v : Nat) : (s.spdm c v).coh = s.coh := rfl
@[simp] theorem State.spdm_dcb (s : State) (c v : Nat) : (s.spdm c v).dcb = s.dcb := rfl
@[simp] theorem State.spdm_fab (s : State) (c v : Nat) : (s.spdm c v).fab = s.fab := rfl
@[simp] theorem State.spdm_rcv (s : State) (c v : Nat) : (s.spdm c v).rcv = s.rcv := rfl
@[simp] theorem State.spdm_sched (s : State) (c v : Nat) : (s.spdm c v).sched = s.sched := rfl
@[simp] theorem State.spdm_eng (s : State) (c v : Nat) : (s.spdm c v).eng = s.eng := rfl

/-! The field an update is for. -/

@[simp] theorem State.push_pending (s : State) (m : Msg) : (s.push m).pending = s.pending ++ [m] := rfl
@[simp] theorem State.after_timers (s : State) (n : Nat) (m : Msg) : (s.after n m).timers = s.timers ++ [(s.cycle + n, m)] := rfl
@[simp] theorem State.putGang_gangs (s : State) (k : Nat) (g : Gang) : (s.putGang k g).gangs = s.gangs.set k g := rfl
@[simp] theorem State.putCore_cores (s : State) (k : Nat) (c : CoreSt) : (s.putCore k c).cores = s.cores.set k c := rfl
@[simp] theorem State.setLm_lmeta (s : State) (la : Nat) (m : LineMeta) : (s.setLm la m).lmeta = s.lmeta.set la m := rfl

end Sys2Proof.Machine
end

