-- ==== Sys2Proof/Tests/Slice0.lean ====
section
/-! SUPPORT. Tests: the checks of WellFormed, the spec's worked encodings, single steps on small states, and for each obligation a
state that meets its hypotheses. -/

namespace Sys2Proof.Tests

open Sys2Proof Sys2Proof.Machine
set_option Elab.async false

/-! ### WellFormed: an ill-formed term for each check -/

theorem test_bad_fieldRange : (Instr.sadd ⟨Modx.none, 0, 64, 0, 0⟩).check = some .fieldRange := by decide
theorem test_bad_oddPair : (Instr.sadd ⟨Modx.none, 2, 3, 0, 0⟩).check = some .oddPair := by decide
theorem test_bad_oddQuad : (Instr.vld ⟨Modx.none, 2, 0, 0, 1, 4, 0⟩).check = some .oddQuad := by decide
theorem test_bad_maskField : (Instr.vcmp ⟨Modx.none, 0, 16, 0, 0, 0⟩).check = some .maskField := by decide
theorem test_bad_typeReserved : (Instr.sfadd ⟨Modx.none, 2, 0, 0, 0⟩).check = some .typeReserved := by decide
theorem test_bad_condition : (Instr.scmp ⟨Modx.none, 0, 0, 0, 0, 6⟩).check = some .conditionReserved := by decide
theorem test_bad_unusedOperand : (Instr.sclz ⟨Modx.none, 0, 0, 0, 1⟩).check = some .unusedOperand := by decide
theorem test_bad_immRange : (Instr.sshlS32Imm ⟨Modx.none, 0, 0, 32⟩).check = some .immRange := by decide
theorem test_bad_modxField : (Instr.sadd ⟨{ Modx.none with mreg := 1 }, 0, 0, 0, 0⟩).check = some .modxField := by decide
theorem test_bad_modxOrder : (Instr.vprf ⟨{ Modx.none with ord := 1 }, 0, 0, 0, 1, 2, 0⟩).check = some .modxOrder := by decide
theorem test_bad_space : (Instr.vprf ⟨Modx.none, 0, 0, 0, 2, 2, 0⟩).check = some .spaceRefused := by decide
theorem test_bad_width : (Instr.vst ⟨Modx.none, 0, 0, 0, 1, 5, 0⟩).check = some .widthRefused := by decide
theorem test_bad_mode : (Instr.sld ⟨Modx.none, 0, 0, 0, 1, 2, 0⟩).check = some .modeRefused := by decide
theorem test_bad_option : (Instr.cpyp ⟨0, 0, 0, true, false⟩).check = some .optionRefused := by decide
theorem test_bad_csr : (Instr.csrr 0 5).check = some .csrNumber := by decide

/-! ### The spec's worked encodings -/

/-- R271: VLD.D.W32.ACQ.DEV v8, [s6 + v3*esz], m2. -/
theorem test_decode_vld : decode [0xFD280028, 0x40818329]
    = .ok ⟨.vld ⟨{ Modx.none with mreg := 2, men := true, ord := 1, scope := 2 }, 8, 6, 3, 1, 2, 1⟩, 0, 2⟩ := by decide
/-- R271: SLI s10, 0x123456, with one IMX. -/
theorem test_decode_sli : decode [0xFC000004, 0x30A23456] = .ok ⟨.sli ⟨10, false, 0x123456⟩, 0, 2⟩ := by decide
/-- R271: BRU far, stall=2, yield. -/
theorem test_decode_bru : decode [0xFC000000, 0xFE280000, 0x78010000] = .ok ⟨.bru 65536, 0x280000, 3⟩ := by decide
/-- Worked encodings of R277 to R297: VMAD, SADD.S64 immediate, SCMP, SETXV, MCNT. -/
theorem test_decode_integer :
    decode [0xFD000780, 0x04A08304] = .ok ⟨.vmad ⟨{ Modx.none with op4 := 7, op4v := true }, 0, 10, 2, 3⟩, 0, 2⟩
    ∧ decode [0x2840BFFD] = .ok ⟨.saddS64Imm ⟨Modx.none, 4, 2, -3⟩, 0, 1⟩
    ∧ decode [0x24114652] = .ok ⟨.scmp ⟨Modx.none, 1, 1, 5, 6, 2⟩, 0, 1⟩
    ∧ decode [0x30040010] = .ok ⟨.setxv 16, 0, 1⟩
    ∧ decode [0x20308004] = .ok ⟨.mcnt ⟨Modx.none, 3, 2, 0⟩, 0, 1⟩ := by decide
/-- R290: VADD.S32 v1, v2, 5, bit by bit. -/
theorem test_decode_vinti : decode [0b000010_000001_000010_0000_0000000101] = .ok ⟨.vaddS32Imm ⟨Modx.none, 1, 2, 5⟩, 0, 1⟩ := by decide
/-- Worked encodings of R298 to R319: VFFMA, VFADD.F64.RTZ, VCVT, VFCMP, VRSUM. -/
theorem test_decode_float :
    decode [0xFD000380, 0x0C404203] = .ok ⟨.vffma ⟨{ Modx.none with op4 := 3, op4v := true }, 0, 4, 1, 2⟩, 0, 2⟩
    ∧ decode [0xFD010000, 0x0C828C40] = .ok ⟨.vfadd ⟨{ Modx.none with rnd := 2 }, 1, 8, 10, 12⟩, 0, 2⟩
    ∧ decode [0x14214019] = .ok ⟨.vcvt ⟨Modx.none, 2, 5, 0, 3, 1⟩, 0, 1⟩
    ∧ decode [0x18304282] = .ok ⟨.vfcmp ⟨Modx.none, 0, 3, 1, 2, 2⟩, 0, 1⟩
    ∧ decode [0x1C6100A9] = .ok ⟨.vrsum ⟨Modx.none, 5, 6, 4, 0⟩, 0, 1⟩ := by decide
/-- R303 and R307, bit by bit: SFADD.F64 s2, s4, s6 and VSIN v1, v2. -/
theorem test_decode_sflt_vsfu :
    decode [0b001011_000010_000100_000110_0_1_000000] = .ok ⟨.sfadd ⟨Modx.none, 1, 2, 4, 6⟩, 0, 1⟩
    ∧ decode [0b000100_000001_000010_000000_00_000100] = .ok ⟨.vsin ⟨Modx.none, 1, 2, 0⟩, 0, 1⟩ := by decide
/-- R320, R325: VST.H.W64, SLDA.D.W32.BLOCK and SSTR.D.W32, whose scope is DEV without a MODX. -/
theorem test_decode_memory :
    decode [0x44A1064D] = .ok ⟨.vst ⟨Modx.none, 10, 4, 6, 2, 3, 1⟩, 0, 1⟩
    ∧ decode [0xFD000024, 0x5432092A] = .ok ⟨.slda ⟨{ Modx.none with ord := 1, scope := 1 }, 3, 8, 9, 1, 2, 2⟩, 0, 2⟩
    ∧ decode [0x5832092A] = .ok ⟨.sstr ⟨{ Modx.none with ord := 2, scope := 2 }, 3, 8, 9, 1, 2, 2⟩, 0, 1⟩ := by decide
/-- R327: VATM.ADD.H.W32 v2, [v4], v3; and SCAS.D.W32 s2, [s4], s3 bit by bit. -/
theorem test_decode_atomics :
    decode [0x5C210341] = .ok ⟨.vatmAdd ⟨Modx.none, 2, 4, 3, 2, false⟩, 0, 1⟩
    ∧ decode [0b011000_000010_000100_000011_001_0_1111] = .ok ⟨.scas ⟨Modx.none, 2, 4, 3, 1, false⟩, 0, 1⟩ := by decide
/-- R329, R332, R335, R336: FENCE.REL.DEV, WAITC cp=0, tl=1, SWINI s2, s3, BARS 7. -/
theorem test_decode_sync :
    decode [0xFD000048, 0x64000000] = .ok ⟨.fence ⟨2, 2, 0⟩, 0, 2⟩
    ∧ decode [0x6BFC07FC] = .ok ⟨.waitc ⟨15, 15, 0, 1, 15, 15⟩, 0, 1⟩
    ∧ decode [0b011011_000000_000010_000011_000000_00] = .ok ⟨.swini 2 3, 0, 1⟩
    ∧ decode [0x70200007] = .ok ⟨.bars 7, 0, 1⟩ := by decide
/-- R341 to R350: branches, JOIN, NAP and tasks. -/
theorem test_decode_control :
    decode [0x7907FFFC] = .ok ⟨.bruNz 3 (-4), 0, 1⟩ ∧ decode [0x7AA80064] = .ok ⟨.call 20 100, 0, 1⟩
    ∧ decode [0x80150000] = .ok ⟨.jmpr 20, 0, 1⟩ ∧ decode [0x7C404020] = .ok ⟨.brv ⟨1, false, 16, 32⟩, 0, 1⟩
    ∧ decode [0x80000000] = .ok ⟨.join, 0, 1⟩ ∧ decode [0x74220500] = .ok ⟨.nap 8 0 20, 0, 1⟩
    ∧ decode [0x84108028] = .ok ⟨.tbegIdem 2 40, 0, 1⟩ := by decide
/-- R355, R359: TRAP 5, TRET, NOP and CSRR s5, 0x021. -/
theorem test_decode_system :
    decode [0x88000005] = .ok ⟨.trap 5, 0, 1⟩ ∧ decode [0x88100000] = .ok ⟨.tret, 0, 1⟩
    ∧ decode [0x88400000] = .ok ⟨.nop, 0, 1⟩ ∧ decode [0x8C014021] = .ok ⟨.csrr 5 0x21, 0, 1⟩ := by decide
/-- R370 to R379: bin, copy and tile commands. -/
theorem test_decode_engine :
    decode [0x94010500] = .ok ⟨.bincl 4 5, 0, 1⟩ ∧ decode [0x90021456] = .ok ⟨.cpy ⟨8, 20, 21, false, true⟩, 0, 1⟩
    ∧ decode [0x90231E01] = .ok ⟨.cpyg ⟨12, 30, 0, true, false⟩, 0, 1⟩ ∧ decode [0x90530000] = .ok ⟨.cprel 12, 0, 1⟩
    ∧ decode [0x98241F00] = .ok ⟨.tmulX4 ⟨16, 31, 0, false, false⟩, 0, 1⟩
    ∧ decode [0x985A2900] = .ok ⟨.trd ⟨40, 41, 0, false, false⟩, 0, 1⟩ := by decide
/-- R383: attention, state store, object, collective and recovery commands. -/
theorem test_decode_commands :
    decode [0x9C051F58] = .ok ⟨.aplnk ⟨20, 31, 22, false, false⟩, 0, 1⟩
    ∧ decode [0x9C241E00] = .ok ⟨.attn ⟨16, 30, 0, false, false⟩, 0, 1⟩
    ∧ decode [0xA0320928] = .ok ⟨.ssrbk ⟨8, 9, 10, false, false⟩, 0, 1⟩
    ∧ decode [0xA4608510] = .ok ⟨.omig ⟨2, 5, 4, false, false⟩, 0, 1⟩
    ∧ decode [0xA8031458] = .ok ⟨.ored ⟨12, 20, 22, false, false⟩, 0, 1⟩
    ∧ decode [0xAC010620] = .ok ⟨.rcomm ⟨4, 6, 8, false, false⟩, 0, 1⟩ := by decide
/-- R256, R258, R268: words that raise ILLEGAL, each by its own name. -/
theorem test_decode_refused :
    decode [0] = .error .zeroWord ∧ decode [0xFC000000] = .error .truncated
    ∧ decode [0xFF000000] = .error .carryKind ∧ decode [0b101100 * 2 ^ 26] = .error .reservedMajor
    ∧ decode [0x2400001D] = .error .reservedFn ∧ decode [0xFD000001] = .error .modxReserved
    ∧ decode [0xFE000001] = .error .hntReserved ∧ decode [0xFC000000, 0x24000000] = .error .imxRefused
    ∧ decode [0xFD000000, 0x70200007] = .error .modxRefused
    ∧ decode [0xFD000000, 0xFC000000, 0x24000000] = .error .carryOrder := by decide

/-! ### Single steps on a small state -/

/-- One gang in slot 0 of core 0, one fragment of all slices at 0x1000, with 64 vector and 64 uniform registers. -/
def base : Gang := Gang.fresh 0 0 0 0 64 64 0x1000 0x8000 false [] 0
def frag0 : Frag := ⟨255, 0, 0, .ready, 0, 0, 0, 0, [], none, none⟩
def iss : Issue := ⟨0, 0, 0x1000, 0x1000, none⟩
/-- The bundle at 0x1000 of gang g is being performed. -/
def st (g : Gang) : State :=
  { State.reset with
    gangs := [(0, g)], issue := some iss
    sched := { Sched.reset with launches := [(0, placedLaunch)], blocks := [(0, placedBlock 0)] } }
def after (o : Out) : State := match o with | .next t => t | _ => State.reset
/-- Uniform register, vector element and mask register of the gang after an instruction. -/
def uAfter (i : Instr) (g : Gang) (n : Nat) : Nat := (((after (exec i (st g))).gang 0).getD base).u n
def vAfter (i : Instr) (g : Gang) (n l : Nat) : Nat := (((after (exec i (st g))).gang 0).getD base).v n l
def mAfter (i : Instr) (g : Gang) (n : Nat) : Nat := ((((after (exec i (st g))).gang 0).getD base).mreg.get n).toNat

/-- Worked values of R278 and R287. -/
theorem test_sdiv : uAfter (.sdiv ⟨Modx.none, 0, 3, 1, 2⟩) ((base.setU 1 0xFFFFFFF9).setU 2 2) 3 = 0xFFFFFFFD := by decide
theorem test_sdiv_min : uAfter (.sdiv ⟨Modx.none, 0, 3, 1, 2⟩) ((base.setU 1 0x80000000).setU 2 0xFFFFFFFF) 3 = 0x80000000 := by decide
theorem test_sshr : uAfter (.sshrS32Imm ⟨Modx.none, 3, 1, 1⟩) (base.setU 1 0xFFFFFFF9) 3 = 0x7FFFFFFC := by decide
theorem test_smulh : uAfter (.smulh ⟨Modx.none, 0, 3, 1, 2⟩) ((base.setU 1 0x80000000).setU 2 2) 3 = 0xFFFFFFFF
    ∧ uAfter (.smulh ⟨Modx.none, 1, 3, 1, 2⟩) ((base.setU 1 0x80000000).setU 2 2) 3 = 1 := by decide
theorem test_vadds : vAfter (.vadds ⟨Modx.none, 0, 3, 1, 2⟩) ((base.setV 1 31 0x7FFFFFFF).setV 2 31 1) 3 31 = 0x7FFFFFFF
    ∧ vAfter (.vadd ⟨Modx.none, 0, 3, 1, 2⟩) ((base.setV 1 31 0x7FFFFFFF).setV 2 31 1) 3 31 = 0x80000000 := by decide
theorem test_scmp : uAfter (.scmp ⟨Modx.none, 0, 3, 1, 2, 2⟩) ((base.setU 1 0xFFFFFFFF).setU 2 1) 3 = 1
    ∧ uAfter (.scmp ⟨Modx.none, 1, 3, 1, 2, 2⟩) ((base.setU 1 0xFFFFFFFF).setU 2 1) 3 = 0 := by decide
/-- A destination that is also a source is read first (R12). -/
theorem test_sadd_self : uAfter (.sadd ⟨Modx.none, 2, 2, 2, 2⟩) ((base.setU 2 0xFFFFFFFF).setU 3 1) 3 = 3 := by decide
/-- R230, R298: 1.0 + 2.0 = 3.0 in F32. -/
theorem test_sfadd : uAfter (.sfadd ⟨Modx.none, 0, 3, 1, 2⟩) ((base.setU 1 0x3F800000).setU 2 0x40000000) 3 = 0x40400000 := by decide
/-- R341: BRU.NZ with disp −4 goes back sixteen bytes. -/
theorem test_bruNz : ((((after (exec (.bruNz 3 (-4)) (st (base.setU 3 1)))).gang 0).getD base).slice 7).pc = 0xFF0 := by decide
/-- R356, R440: TRAP records its cause and asks for the entry; the entry saves the next pc and goes to TVEC. -/
theorem test_trap : .trapEntry 0 ∈ (after (exec (.trap 5) (st base))).pending := by decide
/-- R208: the mask of a VCMP is written for the lanes of act only. -/
theorem test_vcmp : mAfter (.vcmp ⟨{ Modx.none with mreg := 2, men := true }, 0, 1, 1, 2, 0⟩) (base.setM 2 0xF0) 1 = 0xF0 := by decide

/-! ### States that meet the hypotheses of the register instructions' statements -/

theorem issuing_st (g : Gang) (f : Frag) (h : g.frags.get 0 = some f) : Issuing (st g) iss g f := ⟨rfl, rfl, h⟩
/-- A gang with correctable registers, no checked issue and nothing outstanding is clear for registers it reaches. -/
theorem clear_of (s : State) (i : Issue) (g : Gang) (vs us : List Nat)
    (h : (g.badV, g.badU, g.badM, g.badW, g.chk, g.ops) = ([], [], [], false, false, []))
    (hv : ∀ n ∈ vs, n < g.vLim) (hu : ∀ n ∈ us, n < g.uLim) : Clear s i g vs us := by
  simp only [Prod.mk.injEq] at h
  obtain ⟨h1, h2, h3, h4, h5, h6⟩ := h
  refine ⟨⟨h1, h2, h3, h4, by simp [h5], by simp [h5], by simp [h5]⟩, ⟨hv, hu⟩, ?_⟩
  intro ko hk
  simp [h6] at hk

/-- Registers up to the last ones a kernel reaches: v46, v47 and s30, s31 of allotments of 64. -/
theorem wit_registers (vs us : List Nat) (hv : ∀ n ∈ vs, n < 48) (hu : ∀ n ∈ us, n < 32) :
    Issuing (st base) iss base frag0 ∧ Clear (st base) iss base vs us := ⟨issuing_st base _ rfl, clear_of _ _ _ _ _ rfl hv hu⟩
theorem wit_ScalarIntegerResult : let g := base.setU 28 7
    Issuing (st g) iss g frag0 ∧ Clear (st g) iss g [] (regs true 30 ++ regs true 26 ++ regs true 28)
      ∧ tVal 2 (g.uw true 28) ≠ 0 := ⟨issuing_st _ _ rfl, clear_of _ _ _ _ _ rfl (by decide) (by decide), by decide⟩
theorem wit_ScalarIntegerResult_zero : Clear (st base) iss base [] (regs true 30 ++ regs true 26 ++ regs true 28)
    ∧ IntOp.div.divides = true ∧ tVal 2 (base.uw true 28) = 0 := ⟨(wit_registers _ _ (by decide) (by decide)).2, rfl, by decide⟩
theorem wit_ScalarImmediateResult : Clear (st base) iss base [] (regs true 30 ++ regs true 28) ∧ Clear (st base) iss base [] [31, 0] :=
  ⟨(wit_registers _ _ (by decide) (by decide)).2, (wit_registers _ _ (by decide) (by decide)).2⟩
theorem wit_ScalarMoveAndCompareResult :
    Clear (st base) iss base [] (31 :: (regs true 28 ++ regs true 26)) ∧ Clear (st base) iss base [] (regs true 30 ++ regs true 2 ++ regs true 4 ++ [31])
    ∧ Clear (st base) iss base [] (regs true 30 ++ regs true 28) ∧ Clear (st base) iss base [] (regs true 30 ++ regs true 28 ++ regs true 26)
    ∧ Clear (st base) iss base [] (regs true 30) ∧ Clear (st base) iss base [] [31] := by
  refine ⟨?_, ?_, ?_, ?_, ?_, ?_⟩ <;> exact (wit_registers _ _ (by decide) (by decide)).2
theorem wit_VectorIntegerResult : let g := (List.range 32).foldl (fun g l => g.setV 44 l 1) base
    Issuing (st g) iss g frag0 ∧ Clear (st g) iss g (regs true 46 ++ regs true 42 ++ regs true 44) []
      ∧ ¬ ∃ l, l < 32 ∧ bit (g.act frag0 Modx.none) l = true ∧ tVal 2 (g.vw true 44 l) = 0 :=
  ⟨issuing_st _ _ rfl, clear_of _ _ _ _ _ rfl (by decide) (by decide), by decide⟩
theorem wit_VectorMadAndImmediateResult :
    Clear (st base) iss base (regs true 46 ++ regs true 44 ++ regs true 42 ++ regs true 40) []
    ∧ Clear (st base) iss base (regs true 46 ++ regs true 44) [] :=
  ⟨(wit_registers _ _ (by decide) (by decide)).2, (wit_registers _ _ (by decide) (by decide)).2⟩
/-- A pointer with a type below 128 and an identifier, in every lane, moved to the ends of its object. -/
theorem wit_VectorAddressResult : let g := (List.range 32).foldl (fun g l => (g.setV 44 l 0).setV 45 l 0x10) base
    Issuing (st g) iss g frag0 ∧ Clear (st g) iss g (regs true 46 ++ regs true 44 ++ regs false 42) []
      ∧ ∀ l, l < 32 → fld (g.vp 44 l) 56 8 < 128 ∧ fld (g.vp 44 l) 36 20 ≠ 0
        ∧ 0 ≤ (fld (g.vp 44 l) 0 36 : Int) + extIndex 0 (g.vw false 42 l) ∧ (fld (g.vp 44 l) 0 36 : Int) + (2 ^ 36 - 1) < 2 ^ 36 :=
  ⟨issuing_st _ _ rfl, clear_of _ _ _ _ _ rfl (by decide) (by decide), by decide⟩
theorem wit_MaskResult : Clear (st base) iss base [] [] ∧ Clear (st base) iss base [] [31] ∧ Clear (st base) iss base [47] []
    ∧ Clear (st base) iss base (regs true 46 ++ regs true 44) [] ∧ fpxRaised base.fpctl 0 = false := by
  refine ⟨?_, ?_, ?_, ?_, by decide⟩ <;> exact (wit_registers _ _ (by decide) (by decide)).2
theorem wit_MaskToUniformResult : Clear (st base) iss base [] [31] ∧ Clear (st base) iss base [47] [31] := by
  refine ⟨?_, ?_⟩ <;> exact (wit_registers _ _ (by decide) (by decide)).2
theorem wit_VectorMoveResult : Clear (st base) iss base (regs true 46 ++ regs true 44) []
    ∧ Clear (st base) iss base (regs true 46) (regs true 30) ∧ Clear (st base) iss base (regs true 46 ++ regs true 44 ++ regs true 42 ++ regs true 46) []
    ∧ Clear (st base) iss base [47] [] := by
  refine ⟨?_, ?_, ?_, ?_⟩ <;> exact (wit_registers _ _ (by decide) (by decide)).2
theorem wit_LaneGetPutResult : Clear (st base) iss base (regs true 46) (regs true 30 ++ [31]) :=
  (wit_registers _ _ (by decide) (by decide)).2
theorem wit_ShuffleResult : Clear (st base) iss base (regs true 46 ++ regs true 44 ++ [47]) []
    ∧ Clear (st base) iss base (regs true 46 ++ regs true 44) [31] := by
  refine ⟨?_, ?_⟩ <;> exact (wit_registers _ _ (by decide) (by decide)).2
theorem fpx_base (n : Nat) : fpxRaised base.fpctl n = false := by simp [fpxRaised, fpEnables, base, Gang.fresh, fld]
/-- No flag raises FPX with FPCTL zero, whatever the operands. -/
theorem wit_ReductionAndScanResult : Clear (st base) iss base (regs true 46) (regs true 30)
    ∧ Clear (st base) iss base (regs true 46 ++ regs true 44) [] ∧ ∀ n, fpxRaised base.fpctl n = false :=
  ⟨(wit_registers _ _ (by decide) (by decide)).2, (wit_registers _ _ (by decide) (by decide)).2, fpx_base⟩
theorem wit_VectorFloatResult : Clear (st base) iss base (regs true 46 ++ regs true 44 ++ regs true 42 ++ regs true 40) []
    ∧ Clear (st base) iss base (regs true 46 ++ regs true 44) [] ∧ Clear (st base) iss base (regs false 47 ++ regs true 44) []
    ∧ Clear (st base) iss base (regs true 46 ++ regs true 44 ++ [43]) [] ∧ ∀ n, fpxRaised base.fpctl n = false := by
  refine ⟨?_, ?_, ?_, ?_, fpx_base⟩ <;> exact (wit_registers _ _ (by decide) (by decide)).2
theorem wit_ScalarFloatResult : Clear (st base) iss base [] (regs true 30 ++ regs true 28 ++ regs true 26 ++ regs true 24)
    ∧ Clear (st base) iss base [] (31 :: (regs true 28 ++ regs true 26)) ∧ Clear (st base) iss base [] (regs true 30 ++ regs false 31)
    ∧ ∀ n, fpxRaised base.fpctl n = false := by
  refine ⟨?_, ?_, ?_, fpx_base⟩ <;> exact (wit_registers _ _ (by decide) (by decide)).2
theorem wit_SpecialFunctionAndConversionResult : Clear (st base) iss base [47, 46] []
    ∧ Clear (st base) iss base (regs true 46 ++ regs true 44) [] ∧ Clear (st base) iss base [47, 46, 45] [31]
    ∧ Clear (st base) iss base [47, 46, 45, 44] [] ∧ ∀ n, fpxRaised base.fpctl n = false := by
  refine ⟨?_, ?_, ?_, ?_, fpx_base⟩ <;> exact (wit_registers _ _ (by decide) (by decide)).2

/-! ### Memory, control and synchronisation -/

/-- A launch with 8 KiB of shared store, 256 bytes of lane-private storage and four bins; one page at 0x2000 is translated. -/
def launch1 : Launch := { placedLaunch with
  image := List.replicate 52 0 ++ [1, 0, 0, 0, 0, 0, 1, 0, 0, 0, 0, 0] ++ [64, 0, 64, 0] ++ [0, 0x20, 0, 0, 0, 1, 0, 0]
    ++ List.replicate 12 0 ++ [4, 0] ++ List.replicate 166 0 }
def st1 (g : Gang) : State :=
  { st g with
    cores := [(0, { CoreSt.fresh with tlb := [⟨0, 0x2000, 0x1000, 0x2000, 0, false, true, false, true, true⟩] })]
    sched := { Sched.reset with launches := [(0, launch1)], blocks := [(0, placedBlock 0)] } }
def Chk.isOk : Chk → Bool | .ok _ _ => true | _ => false
theorem memReady_of (s : State) (i : Issue) (g : Gang) (f : Frag) (r : MemReq) (hg : g.taskRefuses r = none ∧ g.ops = [])
    (hc : (s.checkAll i g f r).all (fun c => Chk.isOk c.2) = true)
    (h : g.count (if r.kind = 1 then 1 else 0) ≠ 255)
    (ht : s.requests (coreOf i.key) + ((accsOf (s.checkAll i g f r)).map (·.line)).dedup.length ≤ 768) : MemReady s i g f r := by
  refine ⟨hg.1, fun c hm => ?_, fun _ => by simp [Gang.lineOwed, hg.2], h, fun _ _ => by simp [Gang.memOwed, hg.2],
    by simp [Gang.fuseOwed, hg.2], fun _ => ht⟩
  have h1 := List.all_eq_true.mp hc c hm
  revert h1
  cases c.2 <;> simp [Chk.isOk]

/-- The last word of the translated page, and of the block's shared store. -/
def gD : Gang := base.setU 28 0x2FFC
def gH : Gang := base.setU 28 0x1FFC
def opD : MemOp := ⟨Modx.none, 31, 28, 30, 1, 2, 2⟩
theorem wit_MemoryOperationIssues :
    Issuing (st1 gD) iss gD frag0
    ∧ Clear (st1 gD) iss gD (vmemPlan false opD gD frag0).useV (vmemPlan false opD gD frag0).useU
    ∧ MemReady (st1 gD) iss gD frag0 (vmemReq (.vld opD) 0 opD gD frag0)
    ∧ Clear (st1 gD) iss gD [] (smemPlan false opD gD frag0).useU
    ∧ MemReady (st1 gD) iss gD frag0 (smemReq (.sld opD) 0 0 opD gD frag0)
    ∧ MemReady (st1 gD) iss gD frag0 (smemReq (.slda opD) 0 1 opD gD frag0)
    ∧ Clear (st1 gD) iss gD [] (smemPlan true opD gD frag0).useU
    ∧ MemReady (st1 gD) iss gD frag0 (smemReq (.sstr opD) 1 2 opD gD frag0)
    ∧ (let x : MemOp := { opD with m := { Modx.none with ord := 2, scope := 3 } }
       Clear (st1 gD) iss gD (vmemPlan true x gD frag0).useV (vmemPlan true x gD frag0).useU
       ∧ MemReady (st1 gD) iss gD frag0 (vmemReq (.vst x) 1 x gD frag0) ∧ (vmemReq (.vst x) 1 x gD frag0).rel ≠ 0
       ∧ MemReady (st1 gD) iss gD frag0 (smemReq (.sst x) 1 x.m.ord x gD frag0) ∧ (smemReq (.sst x) 1 x.m.ord x gD frag0).rel ≠ 0) := by
  refine ⟨⟨rfl, rfl, rfl⟩, ?_, ?_, ?_, ?_, ?_, ?_, ?_, ?_, ?_, by decide, ?_, by decide⟩
  all_goals first
    | exact clear_of _ _ _ _ _ rfl (by decide) (by decide)
    | exact memReady_of _ _ _ _ _ ⟨rfl, rfl⟩ (by decide) (by decide) (by decide)
theorem wit_MemoryOperationIssues_atomics : let g := (List.range 32).foldl (fun g l => g.setV 46 l 0x2FFC) gD
    let x : AtomOp := ⟨Modx.none, 47, 46, 45, 1, false⟩
    let y : AtomOp := ⟨Modx.none, 31, 28, 30, 1, false⟩
    Clear (st1 g) iss g (vatomPlan true x g frag0).useV [] ∧ MemReady (st1 g) iss g frag0 (vatomReq (.vcas x) 15 x g frag0)
    ∧ Clear (st1 g) iss g [] (satomPlan true y g frag0).useU ∧ MemReady (st1 g) iss g frag0 (satomReq (.satmAdd y) 1 y g frag0) := by
  refine ⟨?_, ?_, ?_, ?_⟩
  all_goals first
    | exact clear_of _ _ _ _ _ rfl (by decide) (by decide)
    | exact memReady_of _ _ _ _ _ ⟨rfl, rfl⟩ (by decide) (by decide) (by decide)
/-- An atomic's and a store's lanes of one word, and a store's at the end of the store. -/
theorem wit_OnCoreStoreWrites : let x : MemOp := { opD with sp := 2 }
    Issuing (st1 gH) iss gH frag0
    ∧ Clear (st1 gH) iss gH [] (smemPlan true x gH frag0).useU ∧ MemReady (st1 gH) iss gH frag0 (smemReq (.sst x) 1 0 x gH frag0)
    ∧ Clear (st1 gH) iss gH (vmemPlan true x gH frag0).useV (vmemPlan true x gH frag0).useU
    ∧ MemReady (st1 gH) iss gH frag0 (vmemReq (.vst x) 1 x gH frag0)
    ∧ (smemReq (.sst x) 1 0 x gH frag0).rel = 0 ∧ (vmemReq (.vst x) 1 x gH frag0).rel = 0 ∧ gH.headOf 1 = none
    ∧ gH.retired = false ∧ (let z : MemOp := { x with mode := 1 }
       accsOf ((st1 gH).checkAll iss gH frag0 (vmemReq (.vst z) 1 z gH frag0))).length = 32 := by
  refine ⟨⟨rfl, rfl, rfl⟩, ?_, ?_, ?_, ?_, rfl, rfl, rfl, rfl, by decide⟩
  all_goals first
    | exact clear_of _ _ _ _ _ rfl (by decide) (by decide)
    | exact memReady_of _ _ _ _ _ ⟨rfl, rfl⟩ (by decide) (by decide) (by decide)
theorem wit_CachedStoreCompletes : ∃ y, MemReady (st1 gD) iss gD frag0 (smemReq (.sst opD) 1 0 opD gD frag0)
    ∧ MemReady (st1 gD) iss gD frag0 (vmemReq (.vst opD) 1 opD gD frag0) ∧ (vmemReq (.vst opD) 1 opD gD frag0).rel = 0
    ∧ gD.task = false ∧ gD.retired = false ∧ gD.headOf 1 = none ∧ accsOf ((st1 gD).checkAll iss gD frag0 (smemReq (.sst opD) 1 0 opD gD frag0)) = [y] :=
  ⟨⟨0, 0x2FFC, ⟨false, 0x5F, 0⟩, 124, 0, 0, none, false, 0⟩, memReady_of _ _ _ _ _ ⟨rfl, rfl⟩ (by decide) (by decide) (by decide), memReady_of _ _ _ _ _ ⟨rfl, rfl⟩ (by decide) (by decide) (by decide),
    rfl, rfl, rfl, rfl, by decide⟩
theorem wit_PrefetchMovesOn : Clear (st1 gD) iss gD (vmemPlan false opD gD frag0).rdV (vmemPlan false opD gD frag0).useU :=
  clear_of _ _ _ _ _ rfl (by decide) (by decide)
/-- A completed load of one word into s31, the oldest of its class. -/
def opL : Op := { Op.blank (.sld opD) 0 0x1000 0 0 false with
  sp := 1, n := 4, dst := 31, scalar := true, act := 0xFFFFFFFF, done := true
  accs := [⟨0, 0x2FFC, ⟨false, 0x5F, 0⟩, 124, 0, 0, some 7, false, 0⟩] }
theorem wit_LoadReturnWrites : let g := { base with ops := [(3, opL)], ctr := [1, 0, 0, 0, 0, 0] }
    g.ops.get 3 = some opL ∧ g.headOf 0 = some (3, opL) ∧ opL.cls = 0 ∧ opL.code = 0 ∧ g.retired = false
    ∧ (∀ a ∈ opL.accs, a.err = 0 ∧ a.bad = false) ∧ ({ g with ops := g.ops.erase 3 } : Gang).headOf 0 = none := by decide
/-- Inside a task whose version holds the line of 0x1000 + 0xF80, of which no byte is written yet. -/
def gV : Gang := { gD with task := true, spec := [⟨⟨false, 0x5F, 0⟩, 0, 0, 0, 0⟩] }
theorem wit_CachedStoreCompletes_task : ∃ y v, MemReady (st1 gV) iss gV frag0 (smemReq (.sst opD) 1 0 opD gV frag0)
    ∧ MemReady (st1 gV) iss gV frag0 (vmemReq (.vst opD) 1 opD gV frag0)
    ∧ (smemReq (.sst opD) 1 0 opD gV frag0).sp < 2 ∧ gV.task = true ∧ gV.headOf 1 = none ∧ gV.retired = false
    ∧ accsOf ((st1 gV).checkAll iss gV frag0 (smemReq (.sst opD) 1 0 opD gV frag0)) = [y]
    ∧ gV.spec.find? (fun z => z.line.same y.line) = some v ∧ v ∈ gV.spec ∧ v.line.same y.line = true
    ∧ Clear (st1 gV) iss gV [] (smemPlan true opD gV frag0).useU :=
  ⟨⟨0, 0x2FFC, ⟨false, 0x5F, 0⟩, 124, 0, 0, none, false, 0⟩, ⟨⟨false, 0x5F, 0⟩, 0, 0, 0, 0⟩,
    memReady_of _ _ _ _ _ ⟨rfl, rfl⟩ (by decide) (by decide) (by decide), memReady_of _ _ _ _ _ ⟨rfl, rfl⟩ (by decide) (by decide) (by decide),
    by decide, rfl, rfl, rfl, by decide, by decide, by decide, by decide, clear_of _ _ _ _ _ rfl (by decide) (by decide)⟩

theorem clear_base (g : Gang) (us : List Nat) (h : (g.badV, g.badU, g.badM, g.badW, g.chk, g.ops) = ([], [], [], false, false, []))
    (hu : ∀ n ∈ us, n < g.uLim) : Clear (st g) iss g [] us := clear_of _ _ _ _ _ h (by simp) hu

theorem wit_WindowBaseSet : Issuing (st base) iss base frag0 ∧ base.badW = false ∧ 40 < base.vLim ∧ 24 < base.uLim ∧ base.vLim ≤ 48 ∧ base.uLim ≤ 32 :=
  ⟨⟨rfl, rfl, rfl⟩, by decide⟩
theorem wit_BranchesGoToTheirTargets : let g := (base.setU 31 1).setU 28 0x2000
    Issuing (st g) iss g frag0 ∧ g.liveUnf ≠ 0 ∧ Clear (st g) iss g [] [] ∧ Clear (st g) iss g [] [31] ∧ Clear (st g) iss g [] [30, 31]
    ∧ g.u 31 ≠ 0 ∧ g.u 30 = 0 ∧ g.up 28 % 4 = 0 ∧ g.up 28 ≠ 0 ∧ g.up 26 = 0 := by
  refine ⟨⟨rfl, rfl, rfl⟩, by decide, ?_, ?_, ?_, by decide, by decide, by decide, by decide, by decide⟩ <;> exact clear_base _ _ rfl (by decide)
/-- Slices with fifteen entries on their stacks, divided by m1. -/
theorem wit_BrvDividesSlices : let g := { base.setM 1 0x11111111 with slices := List.replicate 8 ⟨0x1000, 15, List.replicate 15 ⟨0, 0, 0⟩⟩ }
    Issuing (st g) iss g frag0 ∧ Clear (st g) iss g [] [] ∧ g.liveUnf ≠ 0
    ∧ ∀ n, n < 8 → fld (g.mask frag0 1) (4 * n) 4 &&& g.sliceActive n (g.slice n) ≠ 0 ∧ (g.slice n).stk.length < 16 :=
  ⟨⟨rfl, rfl, rfl⟩, clear_base _ _ rfl (by decide), by decide, by decide⟩
/-- Slice 0 merges at the JOIN, slice 1 swaps to waiting lanes, slice 2 passes an entry of another point, slice 3 has none. -/
theorem wit_JoinReconverges : let g := { base with slices :=
        [⟨0x1000, 1, [⟨0x1000, 14, 0x1000⟩]⟩, ⟨0x1000, 1, [⟨0x2000, 14, 0x1000⟩]⟩, ⟨0x1000, 15, [⟨0, 0, 0x3000⟩]⟩] ++ List.replicate 5 ⟨0x1000, 15, []⟩ }
    Issuing (st g) iss g frag0 ∧ Clear (st g) iss g [] [] ∧ g.liveUnf ≠ 0 ∧ 14 &&& fld g.liveUnf 4 4 ≠ 0 :=
  ⟨⟨rfl, rfl, rfl⟩, clear_base _ _ rfl (by decide), by decide, by decide⟩
theorem wit_RegangFuses : let f : Frag := { frag0 with slices := 15 }
    let g := { base with frags := [(0, f), (1, { frag0 with slices := 240, wait := .regang 255 0x1004 })] }
    Issuing (st g) iss g f ∧ Clear (st g) iss g [] [] ∧ andNot (g.fragSlices f) 255 = 0 ∧ f.slices &&& 255 &&& g.aliveSlices ≠ 0
    ∧ (∀ kf ∈ g.regangFrags 255, kf.1 ≠ 0 → kf.2.wait = .regang 255 0x1004 ∧ kf.2.xv = f.xv ∧ kf.2.xs = f.xs)
    ∧ (g.frags.map (·.1)).Nodup := by
  refine ⟨⟨rfl, rfl, rfl⟩, clear_base _ _ rfl (by decide), ?_⟩
  decide
theorem wit_SystemInstructionsMoveOn : let g := { base with tmask := 0 }
    Issuing (st g) iss g frag0 ∧ Clear (st g) iss g [] [31] ∧ bit g.skipBrk 0 = false ∧ bit g.tmask cBRKPT = false :=
  ⟨⟨rfl, rfl, rfl⟩, clear_base _ _ rfl (by decide), by decide, by decide⟩
theorem wit_TrapAndBreakAskForEntry : Clear (st base) iss base [] [] ∧ base.hm = false ∧ base.retired = false ∧ base.halted = false
    ∧ base.entryDue = false ∧ bit base.tmask cTRAPI = true ∧ bit base.tmask cBRKPT = true ∧ bit base.skipBrk 0 = false :=
  ⟨clear_base _ _ rfl (by decide), by decide⟩
theorem wit_Csr : Issuing (st base) iss base frag0 ∧ Clear (st base) iss base [] [31] ∧ Clear (st base) iss base [] (regs true 30)
    ∧ base.retired = false := ⟨⟨rfl, rfl, rfl⟩, clear_base _ _ rfl (by decide), clear_base _ _ rfl (by decide), rfl⟩
theorem wit_TasksBeginAbortEnd : let g := { base with task := true }
    Clear (st base) iss base [] [31] ∧ base.task = false ∧ base.taskable = true
    ∧ Issuing (st g) iss g frag0 ∧ Clear (st g) iss g [] [] ∧ g.memOwed false = false ∧ g.memOwed true = false ∧ g.hm = false ∧ g.taskable = true
    ∧ base.Unawaited ((List.range 32).map frag0.ur) :=
  ⟨clear_base _ _ rfl (by decide), by decide, by decide, ⟨rfl, rfl, rfl⟩, clear_base _ _ rfl (by decide), by decide, by decide, by decide, by decide,
    by unfold Gang.Unawaited; decide⟩
/-- A handler that aborts the program's task. -/
theorem wit_TasksBeginAbortEnd_handler : let g := { base with task := true, hm := true, shadow := some ⟨base.slices, [(0, frag0)], [(0, 0x3000)]⟩ }
    Issuing (st g) iss g frag0 ∧ Clear (st g) iss g [] [] ∧ g.task = true ∧ g.memOwed false = false ∧ g.hm = true :=
  ⟨⟨rfl, rfl, rfl⟩, clear_base _ _ rfl (by decide), by decide⟩
theorem wit_TretReturns : let x : Shadow := ⟨base.slices, [(0, frag0)], [(0, 0x3000)]⟩
    let g := { base with hm := true, shadow := some x }
    Issuing (st g) iss g frag0 ∧ Clear (st g) iss g [] [] ∧ g.taskable = true ∧ g.liveUnf ≠ 0 ∧ g.retired = false
    ∧ x.frags.find? (fun kf => bit kf.2.slices 7) = some (0, frag0) ∧ x.tfpc.get 0 = some 0x3000 ∧ g.sliceAlive 7 = true :=
  ⟨⟨rfl, rfl, rfl⟩, clear_base _ _ rfl (by decide), by decide⟩
/-- The handler returns with an enabled cause pending. -/
theorem wit_TretReturns_pending : let g := { base with hm := true, shadow := some ⟨base.slices, [(0, frag0)], [(0, 0x3000)]⟩, tcause := 2 ^ cPAGEF }
    Issuing (st g) iss g frag0 ∧ Clear (st g) iss g [] [] ∧ g.taskable = true ∧ g.liveUnf ≠ 0 ∧ g.retired = false
    ∧ g.tcause &&& g.tmask ≠ 0 ∧ g.halted = false ∧ g.entryDue = false :=
  ⟨⟨rfl, rfl, rfl⟩, clear_base _ _ rfl (by decide), by decide⟩
/-- A recorder that is off, one of the gang's launch and one of another launch, which is on. -/
def recs : List Recorder := (List.replicate 14 Recorder.fresh) ++ [{ Recorder.fresh with en := true }, { Recorder.fresh with en := true, owner := 1 }]
def stR (g : Gang) : State := { st g with cores := [(0, { CoreSt.fresh with recs := recs })] }
theorem wit_CsrReadValue : let g := { base with deadsrc := true }
    Issuing (stR g) iss g frag0 ∧ (stR g).block g.blk = some (placedBlock 0) ∧ Clear (stR g) iss g [] [31]
    ∧ (stR g).recorder 0 13 = Recorder.fresh ∧ ((stR g).recorder 0 15).en = true :=
  ⟨⟨rfl, rfl, rfl⟩, by decide, clear_of _ _ _ _ _ rfl (by decide) (by decide), by decide, by decide⟩
/-- TFPC of fragment 0 in a handler; LRCFG values of recorders that are off, and on for this launch. -/
theorem wit_CsrWriteValue : let g := { (base.setU 31 0xC0100200).setU 30 (2 ^ 31) with hm := true, shadow := some ⟨base.slices, [(0, frag0)], [(0, 0x3000)]⟩ }
    Issuing (stR g) iss g frag0 ∧ Clear (stR g) iss g [] (regs true 30) ∧ Clear (stR g) iss g [] [31]
    ∧ ((stR g).core (coreOf 0)).recs.length = 16 ∧ ((stR g).recorder 0 13).en = false ∧ ((stR g).recorder 0 14).owner = g.launch
    ∧ (∀ r ∈ [13, 14], let o := (stR g).csrRead 0 g (0x100 + 8 * r)
        ∀ w ∈ [g.u 31, o ||| g.u 30, andNot o (g.u 31)], fld w 16 8 ≤ 16 ∧ fld w 8 8 ≤ 2) :=
  ⟨⟨rfl, rfl, rfl⟩, clear_of _ _ _ _ _ rfl (by decide) (by decide), clear_of _ _ _ _ _ rfl (by decide) (by decide), by decide, by decide,
    by decide, by decide⟩
/-- Values that a register refuses: read-only bits of GSTAT, an event above 16, a filter above 2, a recorder of another launch. -/
theorem wit_CsrRefusalsAndMasks : let g := { base.setU 31 0x110302 with deadsrc := true }
    Issuing (stR g) iss g frag0 ∧ Clear (stR g) iss g [] [31] ∧ Clear (stR g) iss g [] (regs true 30) ∧ g.shadow = none ∧ g.retired = false
    ∧ (g.u 31 ^^^ g.gstat) &&& 0xFF1A ≠ 0 ∧ ((g.gstat ||| g.u 31) ^^^ g.gstat) &&& 0xFF1A ≠ 0
    ∧ 16 < fld (g.u 31) 16 8 ∧ 2 < fld ((stR g).csrRead 0 g (0x100 + 8 * 13) ||| g.u 31) 8 8
    ∧ ((stR g).recorder 0 15).en = true ∧ ((stR g).recorder 0 15).owner ≠ g.launch :=
  ⟨⟨rfl, rfl, rfl⟩, clear_of _ _ _ _ _ rfl (by decide) (by decide), clear_of _ _ _ _ _ rfl (by decide) (by decide), by decide⟩
/-- GSTAT written without a change of its read-only fields, and with them cleared by CSRC of bits that are 0. -/
theorem wit_CsrRefusalsAndMasks_status : ∀ p ∈ [0x100, 0x160], let g := { base.setU 31 p with deadsrc := true, peerlost := true }
    (g.u 31 ^^^ g.gstat) &&& 0xFF1A = 0 ∧ ((g.gstat ||| g.u 31) ^^^ g.gstat) &&& 0xFF1A = 0
    ∧ (andNot ({ g with sreg := (g.setU 31 0x60).sreg } : Gang).gstat 0x60 ^^^ g.gstat) &&& 0xFF1A = 0 ∧ bit 0x60 6 = true ∧ bit 0x60 5 = true := by decide
/-- The last word of the shared store, which reads 0: equal to the expected s30, and different from 1. -/
theorem wit_NapReadsItsWord : Clear (st1 gH) iss gH [] [28, 29, 30, 31]
    ∧ (st1 gH).checkAcc 0 gH frag0 (napSpace 2) 4 0 0 (formAddr (napSpace 2) (gH.up 28) 0) = .ok ⟨false, 0, 0⟩ 0x1FFC ∧ napSpace 2 = 2
    ∧ ((st1 gH).onRead 0 0 0x1FFC 4) = (0, false) ∧ gH.u 30 = 0 ∧ (gH.setU 30 1).u 30 ≠ 0 ∧ gH.fuseOwed = false :=
  ⟨clear_of _ _ _ _ _ rfl (by decide) (by decide), by decide⟩
/-- The last word of a .D page, of an object held here, and of one that another device holds. -/
theorem wit_NapReadsItsWord_line : Clear (st1 gD) iss gD [] [28, 29, 30, 31]
    ∧ (st1 gD).checkAcc 0 gD frag0 (napSpace 0) 4 0 0 (formAddr (napSpace 0) (gD.up 28) 0) = .ok ⟨false, 0x5F, 0⟩ 124 ∧ napSpace 0 = 1
    ∧ (st1 gD).txn ⟨false, 0x5F, 0⟩ = none ∧ (st1 gD).coh.retiring ≠ some 0 ∧ ((st1 gD).dirOf ⟨false, 0x5F, 0⟩).hhi ≠ 2
    ∧ (st1 gD).coh.lines = [] ∧ gD.fuseOwed = false ∧ lineGet ((st1 gD).lineNow ⟨false, 0x5F, 0⟩).1 124 4 = 0 ∧ ((st1 gD).lineNow ⟨false, 0x5F, 0⟩).2 = false :=
  ⟨clear_of _ _ _ _ _ rfl (by decide) (by decide), by decide +kernel⟩
/-- The entry of object 16: 64 KiB in one extent at 0x100000. -/
def objEntry : Nat := identPtr 16 + 65536 * 256 ^ 8 + 256 ^ 21 + (0x100000 + 16) * 256 ^ 64
/-- A pointer to the start of object 16, in s28. -/
def gO : Gang := (base.setU 28 0).setU 29 0x100
theorem wit_NapReadsItsWord_object : Clear (st1 gO) iss gO [] [28, 29, 30, 31]
    ∧ (st1 gO).checkAcc 0 gO frag0 (napSpace 1) 4 0 0 (formAddr (napSpace 1) (gO.up 28) 0) = .ok ⟨true, 16 * 2 ^ 29, 0x3FF⟩ 0 ∧ napSpace 1 = 0
    ∧ (LineId.mk true (16 * 2 ^ 29) 0x3FF).ident = 16 ∧ (st1 gO).objHere 16 = false
    ∧ (let s : State := { st1 gO with dcb := { Dcb.reset with otb := 10 }, mem := Mem.store [] (256 * 16) 256 objEntry }
       let l := s.objLineOf 16 0
       s.objHere 16 = true ∧ s.ownerChk 16 0 = none ∧ s.txn l = none ∧ (s.dirOf l).hlo ≠ 2 ∧ s.coh.retiring ≠ some l.key
       ∧ s.coh.lines = [] ∧ (s.lineNow l).2 = false) :=
  ⟨clear_of _ _ _ _ _ rfl (by decide) (by decide), by decide +kernel⟩

/-- Groups of gang 0: one of its block, one of the launch, at the last phase before the counter wraps, and one whose phase word is
uncorrectable. -/
def st2 (g : Gang) : State :=
  { st1 g with sched := { Sched.reset with
      launches := [(0, { launch1 with groups := [⟨[0], 0xFFFFFFFF, false, true, [], false⟩, ⟨[0], 0, false, false, [], false⟩, ⟨[0], 0, false, false, [], true⟩] })], blocks := [(0, placedBlock 0)] } }
/-- A FENCE that acts (release at the device), one of no scope, and one in a task. -/
theorem wit_FenceReleasesAndAcquires : Issuing (st base) iss base frag0 ∧ Clear (st base) iss base [] [] ∧ base.task = false
    ∧ base.memOwed true = false ∧ base.memOwed false = false ∧ (st base).scopeActs base 2 = true ∧ (st base).scopeActs base 0 = false
    ∧ ({ base with task := true } : Gang).task = true :=
  ⟨⟨rfl, rfl, rfl⟩, clear_base _ _ rfl (by decide), by decide⟩
/-- A counter at its threshold, and one above it. -/
theorem wit_WaitcComparesCounters : let g := { base with ctr := [14, 0, 0, 0, 0, 0] }
    Issuing (st g) iss g frag0 ∧ Clear (st g) iss g [] []
    ∧ (∀ ct ∈ [(0, 14), (1, 0), (2, 15), (3, 15), (4, 15), (5, 15)], ct.2 = 15 ∨ g.count ct.1 ≤ ct.2)
    ∧ ¬ ∀ ct ∈ [(0, 13), (1, 0), (2, 15), (3, 15), (4, 15), (5, 15)], ct.2 = 15 ∨ g.count ct.1 ≤ ct.2 :=
  ⟨⟨rfl, rfl, rfl⟩, clear_base _ _ rfl (by decide), by decide, by decide⟩
/-- The last sync word of the shared store: TARGET at its largest, so that one more goes past it; generation 0. -/
theorem wit_SyncWordsWork : let g := (base.setU 28 0x1FF0).setU 29 0xFFFFFFFF
    let s := st1 g
    Issuing s iss g frag0 ∧ Clear s iss g [] [28, 29] ∧ Clear s iss g [] [28, 29, 31] ∧ g.up 28 % 16 = 0 ∧ g.fuseOwed = false
    ∧ (∃ p, s.swPlace g 0 (g.u 28) = .ok p ∧ s.clearing p.1 p.2 = false ∧ (s.onRead p.1 0 p.2 16).2 = false
        ∧ s.swRead p.1 p.2 = (0, 0, 0, 0)) ∧ 0 + g.u 29 < 2 ^ 32 ∧ 0 < 0 + g.u 29 ∧ (0 : Nat) ≠ g.u 29 ∧ 0 = g.u 30
    ∧ (∃ p, (s.swWrite 0 0x1FF0 (0, 1, 0, 0)).swPlace g 0 (g.u 28) = .ok p
        ∧ (s.swWrite 0 0x1FF0 (0, 1, 0, 0)).swRead p.1 p.2 = (0, 1, 0, 0)) ∧ 2 ^ 32 ≤ 1 + g.u 29
    ∧ (g.setU 28 0x1FF4).u 28 % 16 ≠ 0 := by
  refine ⟨⟨rfl, rfl, rfl⟩, ?_, ?_, by decide, by decide, ⟨(0, 0x1FF0), by decide⟩, by decide, by decide, by decide, by decide, ⟨(0, 0x1FF0), by decide⟩,
    by decide, by decide⟩ <;> exact clear_of _ _ _ _ _ rfl (by decide) (by decide)
/-- Phases on both sides of the wrap: the phase before the present one has passed, the present one has not. -/
theorem wit_BarriersArriveAndWait : let g := (base.setU 30 0xFFFFFFFE).setU 31 0xFFFFFFFF
    let s := st2 g
    Issuing s iss g frag0 ∧ Clear s iss g [] [30, 31]
    ∧ s.groupOf g 0 = some ⟨[0], 0xFFFFFFFF, false, true, [], false⟩ ∧ s.groupOf g 1 = some ⟨[0], 0, false, false, [], false⟩ ∧ s.groupOf g 2 = some ⟨[0], 0, false, false, [], true⟩ ∧ s.groupOf g 3 = none
    ∧ andNot (g.fragSlices frag0) ((⟨[0], 0xFFFFFFFF, false, true, [], false⟩ : Group).arrivedMask g.g) ≠ 0
    ∧ s.scopeActs g 1 = false ∧ s.scopeActs g 2 = true ∧ g.memOwed true = false
    ∧ frag0.barsAt 0 0x1000 = none ∧ andNot (g.fragSlices frag0) ((⟨[0], 0, false, false, [(0, 255)], false⟩ : Group).arrivedMask g.g) = 0
    ∧ phasePassed 0xFFFFFFFF (g.u 30) = true ∧ phasePassed 0xFFFFFFFF (g.u 31) = false ∧ phasePassed 0 (g.u 31) = true
    ∧ frag0.bars = none ∧ ∃ f : Frag, f.barsAt 0 0x1000 = some 0xFFFFFFFE ∧ phasePassed 0xFFFFFFFF 0xFFFFFFFE = true :=
  ⟨⟨rfl, rfl, rfl⟩, clear_of _ _ _ _ _ rfl (by decide) (by decide), by decide, by decide, by decide, by decide, by decide, by decide, by decide,
    by decide, by decide, by decide, by decide, by decide, by decide, rfl,
    ⟨{ frag0 with bars := some (0, 0xFFFFFFFE, 0x1000) }, rfl, by decide⟩⟩
/-- A launch on four cores with room in every store: 64 KiB of A, 1 MiB of C, 128 KiB of W. -/
def launch3 : Launch := { placedLaunch with
  image := List.replicate 52 0 ++ [1, 0, 0, 0, 0, 0, 1, 0, 0x11, 0, 0, 0] ++ [64, 0, 64, 0] ++ [0, 0x20, 0, 0, 0, 1, 0, 0]
    ++ [0, 0, 1, 0, 0, 0, 16, 0, 0, 0, 2, 0] ++ [4, 0] ++ List.replicate 166 0 }
def st3 (g : Gang) : State := { st g with sched := { Sched.reset with launches := [(0, launch3)], blocks := [(0, placedBlock 0)] } }
/-- The gang whose registers s2 on hold a descriptor; its status register is s31, its sync word the last of the shared store. -/
def desc (ws : List Nat) : Gang := ws.zipIdx.foldl (fun g w => g.setU (w.2 + 2) w.1) (base.setU 28 0x1FF0)
def xCmd : Cmd := ⟨2, 31, 28, false, false⟩
theorem cmdReady_of (cls n : Nat) (x : Cmd) (check : State → Issue → Gang → List Nat → EngChecks) (g : Gang)
    (hc : ((check (st3 g) iss g (g.descOf frag0 n x)).1 ++ (check (st3 g) iss g (g.descOf frag0 n x)).2).all (· == none) = true)
    (h : (x.hold, g.ops, g.ctr) = (false, [], [0, 0, 0, 0, 0, 0])) (hs : ((st3 g).swPlace g 0 (g.u (frag0.ur x.c))).toOption.isSome = true)
    (ht : (st3 g).tileCount 0 < 32) (ha : g.active frag0 ≠ 0) : CmdReady (st3 g) iss g frag0 cls n x check := by
  simp only [Prod.mk.injEq] at h
  have hm := List.all_eq_true.mp hc
  refine ⟨ha, fun c h1 => by simpa using hm c (by simp [h1]), fun c h1 => by simpa using hm c (by simp [h1]), fun _ => ?_, ?_, by simp [h.1], fun _ => ht, by simp [Gang.memOwed, h.2.1]⟩
  · revert hs
    show _ → ∃ p, (st3 g).swPlace g 0 (g.u (frag0.ur x.c)) = .ok p
    cases (st3 g).swPlace g 0 (g.u (frag0.ur x.c)) <;> simp [Except.toOption]
  · rcases cls with _ | _ | _ | _ | _ | _ | n <;> simp [Gang.count, h.2.2]
/-- The copies: sixteen bytes to the last of the shared store; four rows backwards from its end; a gather through
indices at its end; planes of 256 elements to the A-store; quantised rows to the W-store. -/
theorem wit_CopyCommandIssues :
(let g := desc [0, 0, 0x1FF0, 0, 0x22, 16]; Issuing (st3 g) iss g frag0 ∧ Clear (st3 g) iss g [] ((cmdPlan 6 xCmd (desc []) frag0).useU)
      ∧ CmdReady (st3 g) iss g frag0 2 6 xCmd (copyCheck .flat false))
    ∧ (let g := desc [0x1FF0, 0, 0, 0, 0x22, 16, 4, 0xFFFFFFF0, 16]; Issuing (st3 g) iss g frag0 ∧ Clear (st3 g) iss g [] ((cmdPlan 9 xCmd (desc []) frag0).useU)
      ∧ CmdReady (st3 g) iss g frag0 2 9 xCmd (copyCheck .rows false))
    ∧ (let g := desc [0, 0, 0x1F00, 0, 0x22, 16, 4, 16, 16, 0x1FF0]; Issuing (st3 g) iss g frag0 ∧ Clear (st3 g) iss g [] ((cmdPlan 10 xCmd (desc []) frag0).useU)
      ∧ CmdReady (st3 g) iss g frag0 2 10 xCmd (copyCheck .gather false))
    ∧ (let g := desc [0, 0, 0, 0, 0x42, 2, 256, 256, 0]; Issuing (st3 g) iss g frag0 ∧ Clear (st3 g) iss g [] ((cmdPlan 9 xCmd (desc []) frag0).useU)
      ∧ CmdReady (st3 g) iss g frag0 2 9 xCmd (copyCheck .planes false))
    ∧ (let g := desc [0, 0, 0, 0, 0x40072, 2, 256, 512, 0]; Issuing (st3 g) iss g frag0 ∧ Clear (st3 g) iss g [] ((cmdPlan 9 xCmd (desc []) frag0).useU)
      ∧ CmdReady (st3 g) iss g frag0 2 9 xCmd (copyCheck .quant false)) := by
  refine ⟨⟨⟨rfl, rfl, rfl⟩, ?_, ?_⟩, ⟨⟨rfl, rfl, rfl⟩, ?_, ?_⟩, ⟨⟨rfl, rfl, rfl⟩, ?_, ?_⟩, ⟨⟨rfl, rfl, rfl⟩, ?_, ?_⟩, ⟨⟨rfl, rfl, rfl⟩, ?_, ?_⟩⟩
  all_goals first
    | exact clear_of _ _ _ _ _ rfl (by decide) (by decide)
    | (refine cmdReady_of _ _ _ _ _ ?_ rfl ?_ ?_ ?_ <;> decide)
/-- The tile commands on the last rows of the C-store. -/
theorem wit_TileCommandIssues :
(let g := desc [0, 0]; Issuing (st3 g) iss g frag0 ∧ Clear (st3 g) iss g [] ((cmdPlan 2 xCmd (desc []) frag0).useU)
      ∧ CmdReady (st3 g) iss g frag0 3 2 xCmd (twldCheck))
    ∧ (let g := desc [0, 256, 4, 1020, 0]; Issuing (st3 g) iss g frag0 ∧ Clear (st3 g) iss g [] ((cmdPlan 5 xCmd (desc []) frag0).useU)
      ∧ CmdReady (st3 g) iss g frag0 3 5 xCmd (tmulCheck false false false))
    ∧ (let g := desc [0, 256, 4, 1020, 0]; Issuing (st3 g) iss g frag0 ∧ Clear (st3 g) iss g [] ((cmdPlan 5 xCmd (desc []) frag0).useU)
      ∧ CmdReady (st3 g) iss g frag0 3 5 xCmd (tmulCheck false true false))
    ∧ (let g := desc [0, 256, 4, 1020, 0, 0]; Issuing (st3 g) iss g frag0 ∧ Clear (st3 g) iss g [] ((cmdPlan 6 xCmd (desc []) frag0).useU)
      ∧ CmdReady (st3 g) iss g frag0 3 6 xCmd (tmulCheck false false true))
    ∧ (let g := desc [1020, 4]; Issuing (st3 g) iss g frag0 ∧ Clear (st3 g) iss g [] ((cmdPlan 2 xCmd (desc []) frag0).useU)
      ∧ CmdReady (st3 g) iss g frag0 3 2 xCmd (tzeroCheck))
    ∧ (let g := desc [0x1000, 0, 1020, 4, 0x2008000, 0, 1024, 0, 0]; Issuing (st3 g) iss g frag0 ∧ Clear (st3 g) iss g [] ((cmdPlan 9 xCmd (desc []) frag0).useU)
      ∧ CmdReady (st3 g) iss g frag0 3 9 xCmd (trdCheck)) := by
  refine ⟨⟨⟨rfl, rfl, rfl⟩, ?_, ?_⟩, ⟨⟨rfl, rfl, rfl⟩, ?_, ?_⟩, ⟨⟨rfl, rfl, rfl⟩, ?_, ?_⟩, ⟨⟨rfl, rfl, rfl⟩, ?_, ?_⟩, ⟨⟨rfl, rfl, rfl⟩, ?_, ?_⟩, ⟨⟨rfl, rfl, rfl⟩, ?_, ?_⟩⟩
  all_goals first
    | exact clear_of _ _ _ _ _ rfl (by decide) (by decide)
    | (refine cmdReady_of _ _ _ _ _ ?_ rfl ?_ ?_ ?_ <;> decide)
/-- The attention and state-store commands at the last values of their ranges. -/
theorem wit_AttentionAndStateCommandIssues :
(let g := desc [0]; Issuing (st3 g) iss g frag0 ∧ Clear (st3 g) iss g [] ((cmdPlan 6 xCmd (desc []) frag0).useU ++ [28, 29])
      ∧ CmdReady (st3 g) iss g frag0 4 6 { xCmd with sync := false, hold := false } (noCheck))
    ∧ (let g := desc [0, 0, 4]; Issuing (st3 g) iss g frag0 ∧ Clear (st3 g) iss g [] ((cmdPlan 3 xCmd (desc []) frag0).useU ++ [28, 29])
      ∧ CmdReady (st3 g) iss g frag0 4 3 { xCmd with sync := false, hold := false } (aprefCheck))
    ∧ (let g := desc [0, 0, 1008, 1008, 15, 0, 0, 65536]; Issuing (st3 g) iss g frag0 ∧ Clear (st3 g) iss g [] ((cmdPlan 8 xCmd (desc []) frag0).useU ++ [28, 29])
      ∧ CmdReady (st3 g) iss g frag0 4 8 { xCmd with sync := false, hold := false } (attnCheck))
    ∧ (let g := desc [0, 512, 1020, 4]; Issuing (st3 g) iss g frag0 ∧ Clear (st3 g) iss g [] ((cmdPlan 4 xCmd (desc []) frag0).useU ++ [28, 29])
      ∧ CmdReady (st3 g) iss g frag0 4 4 { xCmd with sync := false, hold := false } (mergeCheck 3))
    ∧ (let g := desc [0, 1020, 4]; Issuing (st3 g) iss g frag0 ∧ Clear (st3 g) iss g [] ((cmdPlan 3 xCmd (desc []) frag0).useU ++ [28, 29])
      ∧ CmdReady (st3 g) iss g frag0 4 3 { xCmd with sync := false, hold := false } (mergeCheck 2))
    ∧ (let g := desc [0, 16]; Issuing (st3 g) iss g frag0 ∧ Clear (st3 g) iss g [] ((cmdPlan 6 xCmd (desc []) frag0).useU ++ [28, 29])
      ∧ CmdReady (st3 g) iss g frag0 5 6 { xCmd with sync := false, hold := false } (ssopnCheck))
    ∧ (let g := desc [0x1000FFFF, 0, 128, 0]; Issuing (st3 g) iss g frag0 ∧ Clear (st3 g) iss g [] ((cmdPlan 4 xCmd (desc []) frag0).useU ++ [28, 29])
      ∧ CmdReady (st3 g) iss g frag0 5 4 { xCmd with sync := false, hold := false } (ssdataCheck false))
    ∧ (let g := desc [0x1000FFFF, 0, 128, 0]; Issuing (st3 g) iss g frag0 ∧ Clear (st3 g) iss g [] ((cmdPlan 4 xCmd (desc []) frag0).useU ++ [28, 29])
      ∧ CmdReady (st3 g) iss g frag0 5 4 { xCmd with sync := false, hold := false } (ssdataCheck true))
    ∧ (let g := desc [65535]; Issuing (st3 g) iss g frag0 ∧ Clear (st3 g) iss g [] ((cmdPlan 2 xCmd (desc []) frag0).useU ++ [28, 29])
      ∧ CmdReady (st3 g) iss g frag0 5 2 { xCmd with sync := false, hold := false } (ssslotCheck))
    ∧ (let g := desc [65535, 0]; Issuing (st3 g) iss g frag0 ∧ Clear (st3 g) iss g [] ((cmdPlan 3 xCmd (desc []) frag0).useU ++ [28, 29])
      ∧ CmdReady (st3 g) iss g frag0 5 3 { xCmd with sync := false, hold := false } (ssfrkCheck)) := by
  refine ⟨⟨⟨rfl, rfl, rfl⟩, ?_, ?_⟩, ⟨⟨rfl, rfl, rfl⟩, ?_, ?_⟩, ⟨⟨rfl, rfl, rfl⟩, ?_, ?_⟩, ⟨⟨rfl, rfl, rfl⟩, ?_, ?_⟩, ⟨⟨rfl, rfl, rfl⟩, ?_, ?_⟩, ⟨⟨rfl, rfl, rfl⟩, ?_, ?_⟩, ⟨⟨rfl, rfl, rfl⟩, ?_, ?_⟩, ⟨⟨rfl, rfl, rfl⟩, ?_, ?_⟩, ⟨⟨rfl, rfl, rfl⟩, ?_, ?_⟩, ⟨⟨rfl, rfl, rfl⟩, ?_, ?_⟩⟩
  all_goals first
    | exact clear_of _ _ _ _ _ rfl (by decide) (by decide)
    | (refine cmdReady_of _ _ _ _ _ ?_ rfl ?_ ?_ ?_ <;> decide)
/-- A command at a sync word, and a copy whose source is misaligned. -/
theorem wit_EngineCommandFails : let g := desc [2, 0, 0x1FF0, 0, 0x22, 16]
    (∃ b, xCmd.sync = false ∧ firstFail ((copyCheck .flat false (st3 g) iss g (g.descOf frag0 6 xCmd)).1
        ++ (copyCheck .flat false (st3 g) iss g (g.descOf frag0 6 xCmd)).2) = some b)
    ∧ ((st3 g).swPlace g 0 (g.u (frag0.ur xCmd.c))).toOption.isSome = true := ⟨⟨(2, eALIGN, 0, 2), by decide⟩, by decide⟩
/-- Four bins: a run that ends at the last of them and one that goes past it; lanes that count the last bin. -/
theorem wit_BinsCount : let g := (List.range 32).foldl (fun g l => g.setV 46 l 3) ((base.setU 29 4).setU 30 5)
    Issuing (st3 g) iss g frag0 ∧ Clear (st3 g) iss g [] [28, 29] ∧ Clear (st3 g) iss g [] [28, 30] ∧ Clear (st3 g) iss g [46, 47] []
    ∧ (st3 g).nbins g = 4 ∧ g.u 28 + g.u 29 = 4 ∧ g.u 28 + g.u 30 = 5
    ∧ ∀ l, l < 32 → bit (g.active frag0) l = true → g.v (frag0.vr 46) l < (st3 g).nbins g := by
  refine ⟨⟨rfl, rfl, rfl⟩, ?_, ?_, ?_, by decide, by decide, by decide, by decide⟩ <;> exact clear_of _ _ _ _ _ rfl (by decide) (by decide)
/-- A held copy of bin 3 whose register 5 is to be patched, and one of bin 0. -/
def opHeld (b : Nat) : Op := { Op.blank (.cpy { xCmd with hold := true }) 0 0x1000 2 0 false with
  desc := [0, 0, 0, 0, 0x22, 16], held := true, bin := b, n := 5, stReg := 31 }
theorem wit_CprelReleasesHeld : let g := { base.setU 28 3 with ops := [(0, opHeld 3), (1, opHeld 0)], ctr := [0, 0, 2, 0, 0, 0] }
    Issuing (st3 g) iss g frag0 ∧ Clear (st3 g) iss g [] [28] ∧ g.u 28 < (st3 g).nbins g ∧ g.memOwed true = false
    ∧ (g.ops.map (·.1)).Nodup ∧ (st3 g).tileCount 0
      + (g.ops.filter (fun ko => ko.2.held && ko.2.bin == g.u 28 && ko.2.cls == 3)).length ≤ 32 ∧ g.ops.get 0 = some (opHeld 3) ∧ (opHeld 3).held = true ∧ (opHeld 3).bin = g.u 28
    ∧ g.ops.get 1 = some (opHeld 0) ∧ (opHeld 0).bin ≠ g.u 28 :=
  ⟨⟨rfl, rfl, rfl⟩, ⟨⟨rfl, rfl, rfl, rfl, by decide, by decide, by decide⟩, ⟨by decide, by decide⟩, by unfold Gang.Unawaited; decide⟩, by decide⟩
/-- A pointer of the last type below 128 and the last identifier; region 63 enabled; a gang with no active lane. -/
theorem wit_SystemInstructionBlocks : let g := ((base.setU 2 0).setU 3 0x7FFFFFFF).setU 4 63
    let s : State := { st3 g with dcb := { Dcb.reset with rrd := List.replicate 63 0 ++ [1] } }
    Issuing s iss g frag0 ∧ (∀ xs ∈ [[2, 3, 4, 5, 31, 28, 29], 2 :: 31 :: (List.range 16).map (12 + ·)], Clear s iss g [] (xs.map frag0.ur))
    ∧ g.active frag0 ≠ 0 ∧ g.memOwed true = false ∧ g.task = false ∧ ptrCheck s iss g [g.u 2, g.u 3] = none
    ∧ regionCheck s iss g [g.u 4] = none ∧ ¬ (fld (g.u 4) 2 2 = 1 ∧ Config.ddrSize = 0)
    ∧ g.active { frag0 with slices := 0 } = 0 := by
  refine ⟨⟨rfl, rfl, rfl⟩, ?_, by decide, by decide, by decide, by decide, by decide, by decide, by decide⟩
  intro xs hx
  fin_cases hx <;> exact clear_of _ _ _ _ _ rfl (by decide) (by decide)
theorem wit_SystemInstructionChecks : let g := { ((base.setU 2 0).setU 3 0x80000010).setU 4 64 with task := true }
    Issuing (st3 g) iss g frag0 ∧ g.active frag0 ≠ 0 ∧ Clear (st3 g) iss g [] [2, 3, 4, 31, 28, 29]
    ∧ Clear (st3 g) iss g [] ((List.range 16).map (12 + ·)) ∧ 128 ≤ (g.u 2 + g.u 3 * 2 ^ 32) / 2 ^ 56 % 256
    ∧ ((base.setU 3 0x7F00000F).u 2 + (base.setU 3 0x7F00000F).u 3 * 2 ^ 32) / 2 ^ 36 % 2 ^ 20 = 0 ∧ 64 ≤ g.u 4 ∧ g.task = true := by
  refine ⟨⟨rfl, rfl, rfl⟩, by decide, ?_, ?_, by decide, by decide, by decide, by decide⟩ <;> exact clear_of _ _ _ _ _ rfl (by decide) (by decide)

/-! ### States that meet the hypotheses of the events' statements -/

/-- The machine after reset, about to act on a message. -/
def ms (m : Msg) : State := { State.reset with msg := some m }
/-- Line 5 of device memory, and a copy of it in die k. -/
def line5 : LineId := ⟨false, 5, 0⟩
def copy5 (k : Nat) (st : Moesi) : SLine := ⟨k, line5, st, 7, false, 0, false, []⟩
/-- The same with copies, a directory entry and transactions. -/
def msC (m : Msg) (xs : List SLine) (es : List DirEnt) (ts : List Txn) : State :=
  { ms m with coh := { Coh.reset with lines := xs, dir := es, busy := ts } }
/-- Sixteen entries of the directory set of line 5 that another die than the home holds. -/
def fullSet : List DirEnt :=
  (List.range 16).map (fun j => ⟨⟨false, 5 + 129 * (j + 1) * 2 ^ 22, 0⟩, 15, none, false, 0, 0⟩)
/-- Die 3 asks for line 5: a transaction is open; the set is full; the line is unshared; another die owns it. -/
theorem wit_CoherenceRequestsServed :
    ((3 : Nat) < 4 ∧ (ms (.rds line5 3)).counted line5 = false)
    ∧ (∀ m ∈ [Msg.rds line5 3, .rdo line5 3 2, .upg line5 3 2],
        (msC m [] [] [⟨line5, 0, 1, 1, none, false⟩]).msg = some m ∧ ((msC m [] [] [⟨line5, 0, 1, 1, none, false⟩]).txn line5).isSome = true)
    ∧ (let s := ms (.rds line5 3); s.txn line5 = none ∧ s.coh.queue = [] ∧ s.dirFull line5 3 = false ∧ (s.dirOf line5).hlo = 0
        ∧ (s.dirOf line5).hhi = 0 ∧ (s.dirOf line5).ps = false ∧ s.slSt 3 line5 = .i ∧ (s.dirOf line5).own = none)
    ∧ (let s := ms (.rdo line5 3 2); s.txn line5 = none ∧ s.dirFull line5 3 = false ∧ (s.dirOf line5).others 3 = [])
    ∧ (∀ m ∈ [Msg.rds line5 3, .rdo line5 3 2], let s := msC m [copy5 1 .m] [⟨line5, 2, some 1, false, 0, 0⟩] []
        s.txn line5 = none ∧ s.dirFull line5 3 = false ∧ (s.dirOf line5).hlo = 0 ∧ (s.dirOf line5).own = some 1
        ∧ (s.dirOf line5).hhi = 0 ∧ (s.dirOf line5).ps = false ∧ 1 ∈ (s.dirOf line5).others 3)
    ∧ (∀ xs ∈ [[copy5 3 .s], []], let s := msC (.upg line5 3 2) xs [⟨line5, 8, none, false, 0, 0⟩] []
        s.txn line5 = none ∧ s.dirFull line5 3 = false ∧ (s.dirOf line5).hlo = 0 ∧ (s.dirOf line5).hhi = 0 ∧ (s.dirOf line5).ps = false
        ∧ s.slSt 3 line5 = (if xs = [] then .i else .s) ∧ bit (s.dirOf line5).pres 3 = true ∧ (s.dirOf line5).others 3 = []) := by decide +kernel
theorem wit_CoherenceRequestsServed_full : let d := (State.reset.homeDie line5 + 1) % 4
    ∀ m ∈ [Msg.rds line5 d, .rdo line5 d 0, .upg line5 d 0], let s := msC m [] fullSet []
      s.msg = some m ∧ s.txn line5 = none ∧ s.coh.queue = [] ∧ s.dirFull line5 d = true ∧ d < 4 := by decide +kernel
theorem wit_SnoopsAnswered :
    (∀ m ∈ [Msg.snps line5 3 7, .snps line5 3 8, .snpi line5 3 0, .binv line5 3], ∀ st ∈ [Moesi.m, .o, .e, .s],
      let s := msC m [copy5 3 st] [] [⟨line5, 1, 0, 1, none, false⟩]
      s.msg = some m ∧ s.sl 3 line5 = some (copy5 3 st) ∧ (copy5 3 st).slots = [] ∧ (copy5 3 st).st ≠ .i ∧ (copy5 3 st).st ≠ .wb
      ∧ s.txn line5 = some ⟨line5, 1, 0, 1, none, false⟩)
    ∧ (∀ m ∈ [Msg.snps line5 3 7, .snpi line5 3 7, .binv line5 3], let x : SLine := { copy5 3 .s with slots := [(63, 255)] }
      let s := msC m [x] [] []
      s.msg = some m ∧ s.sl 3 line5 = some x ∧ (63, 255) ∈ x.slots)
    ∧ ∀ m ∈ [Msg.snps line5 3 7, .snpi line5 3 0, .binv line5 3, .evc line5 3], (ms m).msg = some m ∧ (ms m).slSt 3 line5 = .i := by decide
theorem wit_CoherenceAnswersTaken :
    ((3 : Nat) < 4 ∧ (ms (.data line5 3 9 true .m)).slSt 3 line5 = .i)
    ∧ (let s := msC (.data line5 3 9 true .s) [copy5 3 .o] [] []; s.slSt 3 line5 = .o)
    ∧ (let s := msC (.gnt line5 3) [copy5 3 .o] [] []; s.sl 3 line5 = some (copy5 3 .o) ∧ (copy5 3 .o).st = .o)
    ∧ (∀ n ∈ [2, 1], ∀ kind ∈ [1, 3], let x : Txn := ⟨line5, kind, 3, n, some (7, false), false⟩
        let s := msC (.iack line5 1 false) [] [] [x]
        s.txn line5 = some x ∧ x.die < 4 ∧ x.left = n ∧ x.kind = kind ∧ s.coh.queue = [])
    ∧ (msC (.cmp line5 3) [copy5 3 .m] [] [⟨line5, 1, 3, 0, none, true⟩]).coh.queue = []
    ∧ (let d := State.reset.homeDie line5
       (let s := msC (.wbd line5 d 7 false) [copy5 d .wb] [⟨line5, 2 ^ d, some d, false, 0, 0⟩] []
        s.slSt d line5 = .wb ∧ s.txn line5 = none ∧ s.homeDie line5 = d ∧ d < 4)
       ∧ let k := (d + 1) % 4
         let s := msC (.wbd line5 k 7 false) [copy5 k .wb] [⟨line5, 2 ^ k, some k, false, 0, 0⟩] []
         s.slSt k line5 = .wb ∧ s.txn line5 = none ∧ s.homeDie line5 ≠ k ∧ k < 4)
    ∧ (let s := msC (.wbd line5 3 7 false) [] [] [⟨line5, 3, 4, 2, none, false⟩]
       s.slSt 3 line5 ≠ .wb ∧ s.txn line5 = some ⟨line5, 3, 4, 2, none, false⟩) := by decide
/-- An object table of 2^10 entries at 0 with an entry of object 16. -/
def sObj (e : Nat) (m : Msg) : State := { ms m with dcb := { Dcb.reset with otb := 10 }, mem := Mem.store [] (256 * 16) 256 e }
theorem wit_DrainsComplete :
    (let d : Drain := ⟨5, 1, 0, [(640, 3)], false, false⟩
     let s (m : Msg) : State := { ms m with coh := { Coh.reset with drains := [(2, d)] } }
     (s (.drn line5 0 5 1)).drainCovers 5 1 = true ∧ (s (.drn line5 0 5 2)).drainCovers 5 2 = false
     ∧ (s (.drainDone 2)).coh.drains.get 2 = some d ∧ d.lost = false)
    ∧ (ms (.rclr 3 63 255)).msg = some (.rclr 3 63 255)
    ∧ (let s := msC (.l1Writeback 0 line5 9 1 false 0) [copy5 (State.reset.homeDie line5) .e] [] []
       let wd := s.writeDie (dieOf 0) line5
       (1 : Nat) ≠ 0 ∧ line5.obj = false ∧ s.wbOlder 0 line5 0 = false ∧ s.splitAt line5 1 = false ∧ s.canWrite wd line5 1 = true ∧ s.coh.wbw = []
       ∧ (s.sl wd line5).isSome = true) := by decide +kernel
/-- Object 16 here without an extent, and at no device known here. -/
theorem wit_DrainsComplete_object : let l : LineId := ⟨true, 16 * 2 ^ 29, 0x3FF⟩
    (let s0 := sObj (identPtr 16) (.l1Writeback 0 l 9 1 false 0)
     let s : State := { s0 with fab := { Fab.reset with loc := [⟨16, 0, 0, false, false⟩] } }
     (s.lookHere 16).2 = true ∧ s.lineAsked l = false ∧ (((s.lookHere 16).1.otcFill 16 l.off).ownerChk 16 0).isSome = true ∧ s.wbOlder 0 l 0 = false ∧ l.ident = 16 ∧ l.off = 0)
    ∧ (let s := ms (.l1Writeback 0 l 9 1 false 0); (s.lookHere 16).2 = false ∧ s.wbOlder 0 l 0 = false) := by decide +kernel
theorem wit_HostRequestsServed :
    (let s : State := msC (.hostRead 640 true 1) [] [] [⟨hostLine 640, 0, 1, 1, none, false⟩]
     s.host.down = false ∧ populated 640 = true ∧ (s.txn (hostLine 640)).isSome = true)
    ∧ (let s := ms (.hostRead 704 false 1); s.host.down = false ∧ populated 704 = true ∧ s.txn (hostLine 704) = none ∧ s.coh.queue = []
       ∧ s.dirFull (hostLine 704) (hostDie (hostHalf 704) 1) = false
       ∧ (s.dirOf (hostLine 704)).pres = 0 ∧ (s.dirOf (hostLine 704)).own = none ∧ (s.dirOf (hostLine 704)).ps = false)
    ∧ (let s := ms (.hostWrite 704 9 (2 ^ 64 - 1)); s.host.down = false ∧ populated 704 = true ∧ (s.dirOf (hostLine 704)).hhi ≠ 2 ∧ s.isQuiet = true
       ∧ hostHalf 704 = 1 ∧ s.regionOf (704 / 128 * 128) = none)
    ∧ (let s := msC (.hostWrite 704 9 (2 ^ 64 - 1)) [] [⟨line5, 0, none, false, 0, 2⟩] []; hostLine 704 = line5 ∧ (s.dirOf (hostLine 704)).hhi = 2)
    ∧ (∀ m ∈ [Msg.bisnpAnswer line5 1 none, .hbtoExpiry line5 1 0], ∀ ts ∈ [[], [(⟨line5, 3, 4, 2, none, false⟩ : Txn)]], let b : BiSnp := ⟨line5, 1, true, 0⟩
       let s : State := { msC m [] [⟨line5, 0, none, false, 0, 2⟩] ts with host := { HostSt.reset with bisnp := [b] } }
       s.msg = some m ∧ s.txn line5 = ts.head? ∧ s.host.bisnp.find? (fun b => b.line == line5 && b.half == 1) = some b
       ∧ s.host.bisnp.find? (fun b => b.line == line5 && b.half == 1 && b.sent == 0) = some b ∧ (1 : Nat) < 2
       ∧ s.regionOf (line5.name * 128) = none) := by decide +kernel

/-- The machine with gang g in slot 0 of core 0, its launch and block, about to act on a message. -/
def msG (m : Msg) (g : Gang) : State := { st3 g with issue := none, msg := some m }
/-- A translation of the page at 0x2000 that may be executed. -/
def page2 : TlbEnt := ⟨0, 0x2000, 0x1000, 0x2000, 0, false, true, true, true, true⟩
theorem wit_WalksAndFetchesReturn :
    let g : Gang := { base with frags := [(0, { frag0 with wait := .walk 0x2FFC })] }
    let r : WalkReq := ⟨0, 0, 0, 0, 0, 0x2FFC, 1⟩
    let s : State := { msG (.pageWalkDone r) g with coh := { Coh.reset with dtlb := [(0, page2)] } }
    let s' := msG (.pageWalkDone r) g
    (s.isQuiet = true ∧ s.gang 0 = some g ∧ g.frags.get 0 = some { frag0 with wait := .walk 0x2FFC }
      ∧ (s.dieTranslate (dieOf r.core) r.asid r.root r.va r.kind).2.toOption = some page2)
    ∧ (s'.isQuiet = true ∧ (s'.dieTranslate (dieOf r.core) r.asid r.root r.va r.kind).2.toOption = none)
    ∧ (let s : State := { msG (.ibufFill 0 0 0x2FFC) base with cores := [(0, { CoreSt.fresh with tlb := [page2] })] }
       s.isQuiet = true ∧ s.gang 0 = some base ∧ (s.core 0).tlb.find? (fun t => t.serves (s.space base).1 0x2FFC 2) = some page2
       ∧ s.physChk page2 0x2FFC 0 = .ok (physLine 0x2FFC 0) 124 ∧ (s.lineNow (physLine 0x2FFC 0)).2 = false ∧ (s.core 0).ibuf.length < 1024)
    ∧ ((msG (.ibufFill 0 0 (2 ^ 57)) base).gang 0 = some base ∧ base.frags.get 0 = some frag0) := by decide +kernel
/-- A fence's operation that waits for its release to be acknowledged. -/
def opFence (rel : Nat) : Op := { Op.blank (.fence ⟨3, 2, 0⟩) 0 0x1000 6 0 false with rel := rel, phase := 1 }
theorem wit_ReleasesAndSyncWordsFinish :
    (∀ rel ∈ [3, 4], let g : Gang := { base with ops := [(9, opFence rel)] }
      (msG (.releaseAcksDone 0 9) g).gang 0 = some g ∧ g.ops.get 9 = some (opFence rel) ∧ (opFence rel).what = .fence ⟨3, 2, 0⟩
      ∧ (opFence rel).rel = rel ∧ (opFence rel).flags = 0 ∧ g.retired = false)
    ∧ (let w : ObjWait := ⟨⟨16, 0, .write 1 1 false, 0, 0, 0, 0, 0, false⟩, 1, 0, .gangOp 0 3, 0, 0, 0, false⟩
       let s : State := { msG (.releaseAcksDone 0 9) { base with ops := [(9, opFence 4)] } with fab := { Fab.reset with reqs := [(0, w)] } }
       s.remoteOwed 0 9 = true)
    ∧ (let g : Gang := { base with task := true, ops := [(9, { Op.blank .tend 0 0x1000 6 0 false with phase := 1 })] }
       (msG (.tendDone 0 9) g).gang 0 = some g ∧ g.ops.has 9 = true ∧ g.retired = false)
    ∧ (∀ b ∈ [15, 16], let s := (msG (.syncWordCount 0 0x1FF0 b 0 9) base).swWrite 0 0x1FF0 (16, 16, 0, 0xFFFFFFFF)
       s.swRead 0 0x1FF0 = (16, 16, 0, 0xFFFFFFFF) ∧ s.clearing 0 0x1FF0 = false ∧ 0 + b < 2 ^ 32) := by decide +kernel
/-- A NAP that waits for the last word of the shared store to differ from v. -/
def opNap (v : Nat) : Op := { Op.blank (.nap 28 2 2) 0 0x1000 8 0 false with
  sp := 2, dst := 31, desc := [v], accs := [⟨0, 0x1FFC, ⟨false, 0, 0⟩, 0x1FFC, 0, 0, none, false, 0⟩] }
theorem wit_TimeoutsAndWakes :
    (∀ v ∈ [0, 1], ∀ m ∈ [Msg.napWake 0 0 9, .napTimeout 0 0 9],
      let g : Gang := { base with frags := [(0, { frag0 with wait := .nap 9 })], ops := [(9, opNap v)] }
      let s := msG m g
      s.msg = some m ∧ s.gang 0 = some g ∧ s.napOp 0 0 9 = some (opNap v) ∧ (opNap v).sp = 2
      ∧ (opNap v).accs.head? = some ⟨0, 0x1FFC, ⟨false, 0, 0⟩, 0x1FFC, 0, 0, none, false, 0⟩
      ∧ s.onRead 0 0 0x1FFC 4 = (0, false) ∧ (opNap v).desc.getD 0 0 = v)
    ∧ (∀ t ∈ [some 0, some 1], ∀ w ∈ [Wait.bar 0 0xFFFFFFFF, .sync 0 0x1FF0 0, .blocked 5, .waitc ⟨15, 15, 0, 15, 15, 15⟩],
       let f : Frag := { frag0 with wait := w, timed := t }
       ∀ what ∈ [Instr.bars 0, .ored xCmd, .obar xCmd],
       let g : Gang := { base with frags := [(0, f)], ops := [(5, { Op.blank what 0 0x1000 6 0 false with phase := 1 }), (6, opHeld 0)], ctr := [0, 0, 1, 0, 0, 0] }
       let s := msG (.syncto 0 0 0) g
       s.gang 0 = some g ∧ g.frags.get 0 = some f ∧ g.shadow = none ∧ g.retired = false ∧ (f.timed = some 0 ∨ f.timed ≠ some 0)
       ∧ (g.ops.get 5).map Op.what = some what ∧ g.waitsHeld ⟨15, 15, 0, 15, 15, 15⟩ = true)
    ∧ (∀ c ∈ [0, 2 ^ cPREEMPT], let g : Gang := { base with hm := true, tcause := c, hentry := 5 }
       let l : Launch := { launch3 with image := List.replicate 96 0 ++ List.replicate 160 1 }
       let s : State := { msG (.handlerPreempt 0 5) g with sched := { Sched.reset with launches := [(0, l)] } }
       s.gang 0 = some g ∧ g.hm = true ∧ g.hentry = 5 ∧ g.retired = false ∧ bit g.tcause cSLICE = false
       ∧ (bit g.tcause cPREEMPT = decide (c ≠ 0)) ∧ s.launch g.launch = some l ∧ l.savb ≠ 0 ∧ launch3.savb = 0) := by decide +kernel
theorem wit_TrapEntryTakesException :
    (∀ g ∈ [{ base with tcause := 2 ^ cTRAPI, tmask := 2 ^ cTRAPI }, { base with tcause := 2 ^ cTRAPI, tmask := 2 ^ cTRAPI, tvec := 0 },
            { base with tcause := 2 ^ cHALTREQ, tmask := 2 ^ cHALTREQ }],
      let s := msG (.trapEntry 0) g
      s.isQuiet = true ∧ s.gang 0 = some g ∧ (∀ ko ∈ g.ops, ko.2.what ≠ .tend) ∧ (s.block g.blk).isSome = true ∧ g.hm = false
      ∧ g.halted = false ∧ g.retired = false ∧ g.tcause &&& g.tmask ≠ 0 ∧ g.entryRec (lowestClass (g.tcause &&& g.tmask)) = none ∧ 32 ≤ g.asz)
    ∧ lowestClass (2 ^ cTRAPI) ≠ 3 ∧ base.tvec ≠ 0 ∧ lowestClass (2 ^ cHALTREQ) = 3 := by decide +kernel

/-- A gang with one operation outstanding. -/
def gOp (o : Nat) (x : Op) (ctr : List Nat := [0, 0, 0, 0, 0, 0]) : Gang := { base with ops := [(o, x)], ctr := ctr }
theorem wit_CompletionsWriteStatus :
    (∀ code ∈ [0, 1, 2, 3, 4, 10], let x : Op := { Op.blank (.ssqry xCmd) 0 0x1000 5 0 false with code := code,  phase := 3, stReg := 31, res := [28, 29], out := [0xFFFFFFFF, 0] }
     let g := gOp 9 x [0, 0, 0, 0, 0, 1]
     let s := msG (.engineCompletion 0 9) g
     s.gang 0 = some g ∧ g.ops.get 9 = some x ∧ g.retired = false ∧ x.stReg ∉ x.res ∧ x.res.Nodup ∧ x.code = code ∧ g.hm = false ∧ s.cmdReqs 0 9 = false
     ∧ g.ops.find? (fun ko => ko.2.cls == x.cls) = some (9, x) ∧ ({ g with ops := g.ops.erase 9 } : Gang).headOf x.cls = none)
    ∧ (let x : Op := { Op.blank (.oalc xCmd) 0 0x1000 6 0 false with phase := 4, stReg := 31, res := [28, 29], out := [1, 2], code := 255 }
       let g := gOp 9 x
       (msG (.blockingAnswer 0 9) g).gang 0 = some g ∧ g.ops.get 9 = some x ∧ g.retired = false ∧ x.stReg ∉ x.res ∧ x.res.Nodup ∧ x.errSub = 0
       ∧ x.code ≠ 11 ∧ x.code ≠ 13 ∧ g.hm = false ∧ coreOf 0 < 256) := by decide
theorem wit_TileCommandsPerformed :
    (let s := msG (.tilePassStart 0) base; s.isQuiet = true ∧ s.tileNext 0 = none)
    ∧ (let x : Op := { Op.blank (.twld xCmd) 0 0x1000 3 0 false with phase := 2, desc := [98304, 0] }
       let s : State := { msG (.tilePassStart 0) (gOp 9 x) with eng := { Eng.reset with tileQ := [(0, 0, 9)] } }
       s.isQuiet = true ∧ s.tileNext 0 = some (0, 0, 9))
    ∧    (let x : Op := { Op.blank (.tzero xCmd) 0 0x1000 3 0 false with phase := 2, desc := [1020, 4] }
     let s : State := { msG (.tilePassStart 0) (gOp 9 x) with eng := { Eng.reset with tileQ := [(0, 0, 9)] } }
     s.isQuiet = true ∧ s.gang 0 = some (gOp 9 x) ∧ (gOp 9 x).ops.get 9 = some x ∧ s.block (gOp 9 x).blk = some (placedBlock 0)
     ∧ s.tileNext 0 = some (0, 0, 9) ∧ s.launch (gOp 9 x).launch = some launch3)
    ∧ (let x : Op := { Op.blank (.twld xCmd) 0 0x1000 3 0 false with phase := 2, desc := [98304, 0] }
       let s : State := { msG (.weightLatch 0 9) (gOp 9 x) with eng := { Eng.reset with tileQ := [(0, 0, 9)] } }
       s.isQuiet = true ∧ s.gang 0 = some (gOp 9 x) ∧ (gOp 9 x).ops.get 9 = some x ∧ s.block (gOp 9 x).blk = some (placedBlock 0)
       ∧ s.tileReady (s.eng.tileQ.takeWhile (fun p => p != (0, 0, 9))) (0, 0, 9) = true
       ∧ s.firstBad 0 3 (0 + 98304) (imageBytes (tcwFmt 0)) = none) := by decide +kernel
/-- A block on a rectangle of two by two cores whose sets hold plane format 2, and the passes of the last rows of the C-store; TMUL.X4 has
513 rows less one in its two rows of cores. -/
def sTile (x : Op) : State :=
  let b : Block := { placedBlock 0 with cores := [0, 1, 8, 9], aBase := [0, 0, 0, 0], cBase := [0, 0, 0, 0] }
  { msG (.tilePassStart 0) (gOp 9 x) with
    sched := { Sched.reset with launches := [(0, launch3)], blocks := [(0, b)] }
    cores := [0, 1, 8, 9].map (fun c => (c, { CoreSt.fresh with sets := [⟨some 0, 2, 0, []⟩] })), eng := { Eng.reset with tileQ := [(0, 0, 9)] } }
theorem wit_TilePassResults : ∀ w ∈ [(Instr.tmul xCmd, [0, 256, 4, 1020, 2, 0]), (.tmuls xCmd, [0, 256, 4, 1020, 2, 0]), (.tmulX4 xCmd, [0, 256, 512, 768, 2])],
    let x : Op := { Op.blank w.1 0 0x1000 3 0 false with phase := 2, desc := w.2 }
    let s := sTile x
    s.isQuiet = true ∧ s.gang 0 = some (gOp 9 x) ∧ (gOp 9 x).ops.get 9 = some x ∧ (s.block 0).isSome = true ∧ s.launch 0 = some launch3
    ∧ s.tileNext 0 = some (0, 0, 9) ∧ s.eng.residueBad = [] ∧ ∀ b, b ∈ s.block 0 →
      ((x.passes b launch3 0).map (·.core)).Nodup ∧ (x.passes b launch3 0).length = (if w.2.length = 5 then 4 else 1)
      ∧ ∀ p ∈ x.passes b launch3 0, p.setBad s 0 = false ∧ (s.core p.core).badWord = [] ∧ (s.core p.actCore).badWord = [] ∧ p.rows ≠ 0 := by
  decide +kernel
/-- A TRD of four rows of 256 codes of one byte, the last of them first in the A-store, with its row maxima at the end of the shared store. -/
theorem wit_TilePassResults_read : let x : Op := { Op.blank (.trd xCmd) 0 0x1000 3 0 false with
      phase := 2, desc := [0xFF00, 0, 1020, 4, 0x40024FF, 0, 0xFFFFFF00, 0, 0x1FF0] }
    let s := sTile x
    let d (n : Nat) := x.desc.getD n 0
    s.tileNext 0 = some (0, 0, 9) ∧ (s.core 0).badWord = [] ∧ rcwDsp (d 4) = 4 ∧ rcwRmax (d 4) = true ∧ rcwNcol (d 4) * ofmtSize (rcwOfmt (d 4)) = 256
    ∧ (∀ i, i < d 3 → 0 ≤ ((d 0 + 2 ^ 32 * d 1 : Nat) : Int) + i * sextN 32 (d 6)
        ∧ ((d 0 + 2 ^ 32 * d 1 : Nat) : Int) + i * sextN 32 (d 6) + 256 ≤ launch3.aBytes ∧ launch3.aBytes ≤ 2 ^ 32)
    ∧ (256 : Int) ≤ - sextN 32 (d 6) ∧ d 8 + 4 * d 3 ≤ 2 ^ 32
    ∧ ∀ g ∈ s.gang 0, ∀ i, i < d 3 → s.hPlace g 0 (d 8 + 4 * i) = .ok (0, 0x1FF0 + 4 * i) ∧ s.clearing 0 (0x1FF0 + 4 * i) = false := by decide +kernel
theorem wit_ClosedSlotIsBad :
    ∀ w ∈ [Instr.ssld xCmd, .sssv xCmd, .ssrbk xCmd, .ssfrk xCmd, .ssqry xCmd],
      let x : Op := { Op.blank w 0 0x1000 5 0 false with phase := 2, desc := [65535, 1], res := if w = .sssv xCmd then [] else [28, 29] }
      let g := gOp 9 x [0, 0, 0, 0, 0, 1]
      let s := msG (.stateStoreOp 0 9) g
      s.isQuiet = true ∧ s.gang 0 = some g ∧ g.ops.get 9 = some x ∧ s.clsEarlier 0 9 5 = false ∧ s.ssBusy 0 9 = false ∧ x.cls = 5 ∧ x.bin = 0
      ∧ x.phase = 2 ∧ x.code = 0
      ∧ s.cmdReqs 0 9 = false ∧ (s.physRead 0 (s.slotAddr (65535 % 2 ^ 16)) 256).2 = false
      ∧ byteField (s.physRead 0 (s.slotAddr (65535 % 2 ^ 16)) 256).1 14 1 = 0 := by decide +kernel

/-- A page of another device's object whose 129 lines, all zero, have been fetched. -/
def ptrA : Nat := 16 * 2 ^ 36
def opA : Op := { Op.blank (.attn xCmd) 0 0x1000 4 0 false with
  phase := 2, desc := [0, 16, 0, 1008, 0, 0, 0, 1], fetched := (List.range 129).map (fun j => (16 * 2 ^ 29 + j, 0)) }
def walkA (st : Nat) : PeaWalk := ⟨0, 9, false, [⟨0, ptrA, st, 0⟩], 0, 1, 1, 0, 0, [none], [], 0, true⟩
def sWalk (m : Msg) (st : Nat) : State :=
  { msG m (gOp 9 opA) with eng := { Eng.reset with walks := [(0, walkA st)] } }
/-- An engine's read meets a fetched line that holds zero. -/
def FetchedZero (x : EngX) (base : Nat) (disp : Int) : Prop :=
  ∃ a ident o, engAddr 0 base disp = (a, none) ∧ x.st.engPlace x.key 0 a 0 = (x.st, .remote ident o)
    ∧ x.fetched.get (ident * 2 ^ 29 + o / 128) = some 0
theorem read_of (x : EngX) (n base : Nat) (disp : Int) (hx : x.ok = true) (ho : x.outs = []) (h : FetchedZero x base disp) :
    x.read 0 n base disp = (x, 0, false) := by
  obtain ⟨a, ident, o, ha, hp, hf⟩ := h
  have hz : ∀ n, 0 / 2 ^ n = 0 := fun _ => Nat.zero_div _
  have hw : ∀ o d, x.written ident o d = d := fun o d => by simp [EngX.written, ho]
  unfold EngX.read
  simp only [hx, ha, hp, hf, hz, hw, lineGet, bit]
  simp
theorem readBytes_of (x : EngX) (n base : Nat) (disp : Int) (hx : x.ok = true) (ho : x.outs = [])
    (h : ∀ j, j < (n + 3) / 4 → FetchedZero x base (disp + 4 * j)) : x.readBytes 0 n base disp = (x, 0, none) := by
  unfold EngX.readBytes
  have h' : ∀ j ∈ List.range ((n + 3) / 4), FetchedZero x base (disp + 4 * j) := fun j hj => h j (List.mem_range.mp hj)
  generalize List.range ((n + 3) / 4) = js at h'
  induction js with
  | nil => rfl
  | cons j js ih =>
    rw [List.foldl_cons]
    simp only [read_of _ _ _ _ hx ho (h' j (by simp))]
    simpa using ih fun j hj => h' j (by simp [hj])
/-- Pages whose bytes are all zero have the CRC zero. -/
theorem crc64_zero (n : Nat) : crc64 (byteList n 0) = 0 := by
  have h : ∀ bs : List Nat, (∀ b ∈ bs, b = 0) → bs.foldl (fun c b => crc64Bit (crc64Bit (crc64Bit (crc64Bit (crc64Bit (crc64Bit (crc64Bit (crc64Bit
      (c ^^^ (b * 2 ^ 56)))))))))) 0 = 0 := by
    intro bs hb
    induction bs with
    | nil => rfl
    | cons b bs ih =>
      rw [List.foldl_cons, hb b (by simp)]
      exact ih fun b' hm => hb b' (by simp [hm])
  refine h _ fun b hb => ?_
  simp only [byteList, List.mem_map] at hb
  obtain ⟨i, _, rfl⟩ := hb
  simp [lineByte]
/-- A die whose 256 walks are taken. -/
theorem wit_AttentionWalksGoOn_queued : let s : State := { msG (.peaWalkStart 0 9) (gOp 9 opA) with
      eng := { Eng.reset with walks := (List.range 256).map (fun w => (w, { walkA 0 with op := 8 })) } }
    s.op 0 9 = some opA ∧ s.clsEarlier 0 9 4 = false ∧ s.eng.walks.find? (fun w => w.2.g == 0 && w.2.op == 9) = none
    ∧ 256 ≤ (s.eng.walks.filter (fun w => dieOf (coreOf w.2.g) == dieOf (coreOf 0))).length := by decide +kernel
theorem wit_AttentionWalksGoOn_start : let s := msG (.peaWalkStart 0 9) (gOp 9 opA)
    s.op 0 9 = some opA ∧ opA.phase = 2 ∧ s.clsEarlier 0 9 4 = false ∧ s.eng.walks.find? (fun w => w.2.g == 0 && w.2.op == 9) = none
    ∧ (s.eng.walks.filter (fun w => dieOf (coreOf w.2.g) == dieOf (coreOf 0))).length < 256 := by decide
theorem wit_AttentionWalksGoOn_pages :
    (∀ st ∈ [0, 1, 2], ∀ m ∈ [Msg.headerReturn 0 0, .promotionCheck 0 0, .attnItem 0 0], let s := sWalk m st
      s.isQuiet = true ∧ s.walkOf 0 = some (walkA st) ∧ (walkA st).page 0 = some ⟨0, ptrA, st, 0⟩ ∧ s.op 0 9 = some opA
      ∧ 0 < (walkA st).idx ∧ (walkA st).apref = false ∧ 0 < (walkA st).merged + 64)
    ∧ Config.ddrSize ≠ 0 ∧ pageBad ptrA 0 = false ∧ hdrAbsent 0 = false ∧ hdrDemoted 0 = false ∧ hdrTag 0 = 0 := by decide
theorem fetchedZero_page (s : State) (h5 : s.lookHere 16 = (s, false)) (h6 : s.gang 0 = some (gOp 9 opA)) (k : Nat) (h : k < 16512) :
    FetchedZero (s.engX 0 opA.fetched) ptrA (k : Int) := by
  have ha : engAddr 0 ptrA (k : Int) = (ptrA + k, none) := by
    have hw : wrapN 36 (k : Int) = k := by simp only [wrapN]; omega
    have h1 : ¬ (128 ≤ fld ptrA 56 8 ∨ fld ptrA 36 20 = 0) := by decide
    have h2 : ptrA % 2 ^ 36 = 0 := by decide
    have h3 : ptrA / 2 ^ 36 * 2 ^ 36 = ptrA := by decide
    have h4 : ¬ ((k : Int) < 0 ∨ ((2 ^ 36 : Nat) : Int) ≤ k) := by omega
    simp only [engAddr, formAddr, h1, h2, h3, Nat.cast_zero, Int.zero_add, hw, h4, if_true, if_false, true_or]
  have h1 : fld (ptrA + k) 56 8 = 0 := by simp only [fld, ptrA]; omega
  have h2 : fld (ptrA + k) 36 20 = 16 := by simp only [fld, ptrA]; omega
  have h3 : (ptrA + k) / 2 ^ 36 = 16 := by simp only [ptrA]; omega
  have h4 : (ptrA + k) % 2 ^ 36 = k := by simp only [ptrA]; omega
  refine ⟨ptrA + k, 16, k, ha, ?_, ?_⟩
  · have h7 : ¬ (128 ≤ 0 ∨ 16 = 0) := by decide
    simp only [State.engX, State.engPlace, h6, h1, h2, h3, h4, h5, h7, if_false, if_true, Bool.not_false]
  · have hf : ∀ j, j < 129 → opA.fetched.get (16 * 2 ^ 29 + j) = some 0 := by decide +kernel
    exact hf (k / 128) (by omega)
/-- An object of which this device knows nothing is not here. -/
theorem lookHere_none (s : State) (ident : Nat) (h : s.locGet ident = none) (h' : s.objHere ident = false) : s.lookHere ident = (s, false) := by
  simp [State.lookHere, h, h']
theorem readBytes_page (s : State) (k n : Nat) (h5 : s.lookHere 16 = (s, false)) (h6 : s.gang 0 = some (gOp 9 opA))
    (hx : (s.engX 0 opA.fetched).ok = true) (hn : k + (n + 3) / 4 * 4 ≤ 16512) :
    (s.engX 0 opA.fetched).readBytes 0 n ptrA k = (s.engX 0 opA.fetched, 0, none) :=
  readBytes_of _ _ _ _ hx rfl fun j hj => by
    have h := fetchedZero_page s h5 h6 (k + 4 * j) (by omega)
    push_cast at h
    exact h
/-- The header of the page, and its keys and values, whose CRC is the TAG of its header. -/
theorem wit_AttentionWalksGoOn_reads : let x := (sWalk (.headerReturn 0 0) 0).engX 0 opA.fetched
    x.readBytes 0 128 (ptrA / 128 * 128) 0 = (x, 0, none) ∧ x.readBytes 0 16384 ptrA 128 = (x, 0, none)
    ∧ x.again = false ∧ x.needs = [] ∧ x.bad = none ∧ crc64 (byteList 16384 0) = hdrTag 0 := by
  have h := lookHere_none (sWalk (.headerReturn 0 0) 0) 16 (by decide +kernel) (by decide +kernel)
  exact ⟨readBytes_page _ 0 128 h rfl rfl (by decide), readBytes_page _ 128 16384 h rfl rfl (by decide), rfl, rfl, rfl,
    (crc64_zero _).trans (by decide)⟩
/-- A walk whose page is an object's here: with a malformed header, a demoted page, and sound with four other lines of its set HELD or its
own. -/
def heldSet : List SLine := (List.range 4).map (fun y => ⟨1, ⟨false, (32 ^^^ y) * 2 ^ 21 + y * 2 ^ 28, 0⟩, .s, 0, false, 0, true, []⟩)
def heldPage : List SLine := (List.range 129).map (fun j => let l := objLine 16 (128 * j) 0; ⟨State.reset.homeDie l, l, .s, 0, false, 0, true, []⟩)
def sPage (hdr : Nat) (ls : List SLine) : State := { sWalk (.headerReturn 0 0) 0 with
  dcb := { Dcb.reset with otb := 10 }, mem := Mem.store (Mem.store [] (256 * 16) 256 objEntry) 0x100000 128 hdr
  fab := { Fab.reset with loc := [⟨16, 0, 0, false, false⟩] }, coh := { Coh.reset with lines := ls } }
theorem wit_AttentionWalksGoOn_here :
    ∀ h ∈ [(33 * 256 ^ 12, heldSet), (32 * 256 ^ 14, heldSet), (0, heldSet), (0, heldPage)], let r := ((sPage h.1 h.2).engX 0 []).readBytes 0 128 ptrA 0
      (sPage h.1 h.2).isQuiet = true ∧ r.2 = (h.1, none) ∧ r.1.again = false ∧ r.1.needs = [] ∧ r.1.bad = none
      ∧ (pageBad ptrA h.1 = decide (h.1 = 33 * 256 ^ 12)) ∧ (hdrDemoted h.1 = decide (h.1 = 32 * 256 ^ 14)) ∧ hdrAbsent h.1 = false
      ∧ r.1.st.objHere 16 = true ∧ ((r.1.st.holdPage ptrA).isSome = decide (h.2 = heldPage)) := by decide +kernel
/-- A demoted page of an object that this device has by its table and another by its locator, so that its lines are fetched. -/
def sProm : State := { sPage 0 heldPage with fab := { Fab.reset with loc := [⟨16, 1, 0, false, false⟩] } }
theorem wit_AttentionWalksGoOn_promoted : let x := sProm.engX 0 opA.fetched
    x.readBytes 0 16384 ptrA 128 = (x, 0, none) ∧ x.again = false ∧ x.needs = [] ∧ x.bad = none ∧ crc64 (byteList 16384 0) = hdrTag 0
    ∧ x.st.objHere (ptrA / 2 ^ 36) = true ∧ (x.st.holdPage ptrA).isSome = true :=
  ⟨readBytes_page _ 128 16384 rfl rfl rfl (by decide), rfl, rfl, rfl, (crc64_zero _).trans (by decide), by decide +kernel, by decide +kernel⟩
/-- A regeneration that the walk has joined, with the lines fetched for its seal; of a page of another device, and of one here. -/
def regenA (ended : Bool) (fetched : Tab Nat) : Regen := ⟨ptrA, 0, 0, true, none, 1, [0], 0, ended, fetched⟩
def sRegen (m : Msg) (r : Regen) : State := { sWalk m 3 with
  eng := { Eng.reset with walks := [(0, walkA 3)], regens := [r] }, cycle := 2 ^ 24 + 1 }
theorem wit_RegenerationsEnd :
    (∀ e ∈ [true, false], ∀ m ∈ [Msg.regenSeal ptrA, .regenTimeout ptrA], let s := sRegen m (regenA e opA.fetched)
      s.msg = some m ∧ s.eng.regens.find? (fun r => r.ptr == ptrA) = some (regenA e opA.fetched) ∧ s.isQuiet = true
      ∧ s.dirtyCores (ptrA / 2 ^ 36) = [] ∧ (regenA e []).ended = e ∧ (regenA e []).enq = true ∧ (regenA e []).start + s.dcb.regto ≤ s.cycle
      ∧ (regenA e []).joined = [0] ∧ s.walkOf 0 = some (walkA 3) ∧ (walkA 3).apref = false
      ∧ (walkA 3).pages.find? (fun q => q.ptr == ptrA && q.st == 3) = some ⟨0, ptrA, 3, 0⟩)
    ∧ (let s := sRegen (.regenSeal ptrA) (regenA true opA.fetched); s.sealLines opA.fetched ptrA = some (.ok (List.replicate 129 0)))
    ∧ (let f := (16 * 2 ^ 29 + 128, 2 ^ 1025) :: (List.range 128).map (fun j => (16 * 2 ^ 29 + j, 0))
       (sRegen (.regenSeal ptrA) (regenA true f)).sealLines f ptrA = some (.error ())) := by decide +kernel
/-- The seal of a page here whose bytes are zero. -/
theorem sealPage_zero (s : State) (h : s.objHere (ptrA / 2 ^ 36) = true) : let l := s.objLineOf (ptrA / 2 ^ 36) (ptrA % 2 ^ 36)
    s.sealPage ptrA (List.replicate 129 0) = (s.noteWrite l).lineSet l 0 (s.lineNow l).2 := by
  have hk : (List.replicate 129 0).tail.foldr (fun v a => v + 2 ^ 1024 * a) 0 = 0 := by decide +kernel
  have hl : linePut (linePut 0 14 2 (andNot (byteField 0 14 2) 16)) 28 8 0 = 0 := by decide
  have hh : (List.replicate 129 0).headD 0 = 0 := rfl
  simp only [State.sealPage, h, if_true, hk, hh, crc64_zero, hl]
def sSeal : State := { sPage 0 heldPage with
  msg := some (.regenSeal ptrA), eng := { Eng.reset with walks := [(0, walkA 3)], regens := [regenA true []] } }
theorem wit_RegenerationsEnd_here : sSeal.sealLines [] ptrA = some (.ok (List.replicate 129 0)) ∧ sSeal.dirtyCores (ptrA / 2 ^ 36) = []
    ∧ (let s1 := sSeal.sealPage ptrA (List.replicate 129 0)
       let s2 := ({ s1 with eng := { s1.eng with regens := s1.eng.regens.filter (fun q => q.ptr != ptrA) } } : State).unfetch (walkA 3) ptrA
       s2.objHere (ptrA / 2 ^ 36) = true ∧ (s2.holdPage ptrA).isSome = true) := by
  rw [sealPage_zero sSeal (by decide +kernel)]
  decide +kernel
/-- A core holds bytes of the page's object that are not written back. -/
theorem wit_RegenerationsEnd_dirty : let s : State := { sRegen (.regenSeal ptrA) (regenA true []) with
      cores := [(0, { CoreSt.fresh with l1 := [⟨⟨true, 16 * 2 ^ 29, 0⟩, 0, 1, 1, false, false⟩] })] }
    s.isQuiet = true ∧ s.dirtyCores (ptrA / 2 ^ 36) ≠ [] := by decide +kernel
theorem wit_ContributionsReduce :
    (∀ ds ∈ [[1, 0], [0]], let s : State := { ms (.collectiveContribution 3 9 0 0 5 0 7) with fab := { Fab.reset with colTab := [(3, ds)] } }
      s.fab.colTab.get 3 = some ds ∧ 0 ∈ ds ∧ s.fab.colDone.find? (fun d => d.cid == 3 && d.seq == 9) = none
      ∧ s.fab.colOpen.find? (fun c => c.cid == 3 && c.seq == 9) = none ∧ (s.fab.colOpen.filter (fun c => s.sameUnit 3 9 c.cid c.seq)).length < 64
      ∧ 0 ∉ s.fab.dead ∧ (ds = [0] ∨ ∃ d ∈ ds, d ≠ 0 ∧ d ∉ s.fab.dead))
    ∧ (∀ m ∈ [Msg.collectiveContribution 3 9 3 0 5 0 7, .collectiveContribution 3 9 0 6 5 0 7, .collectiveContribution 3 9 0 0 5 2 7],
        (ms m).msg = some m)
    ∧ (let c : Coll := ⟨3, 9, 0, 0, false, [(1, 0, 5, 7)]⟩
       let s : State := { ms (.collectiveContribution 3 9 0 0 5 0 7) with fab := { Fab.reset with colTab := [(3, [1, 0])], colOpen := [c] } }
       s.fab.colOpen.find? (fun c => c.cid == 3 && c.seq == 9) = some c ∧ ∃ g ∈ c.got, g.2.1 = 0 ∧ g.2.2.2 = 7)
    ∧ (ms (.collectiveTableWrite 3 [1, 0])).msg = some (.collectiveTableWrite 3 [1, 0]) := by decide

/-! ### Objects, fabric, recovery -/

/-- Device 5 with object, registry and stub tables of 2^10 entries, resident object 16 of 65536 bytes in phase ph, object 17
only in the registry, and stub 3 live and collectable. -/
def tabMem (ph : Nat) : Mem :=
  Mem.store (Mem.store (Mem.store [] (256 * 16) 256 (oteNew 16 65536 0 0 0 0 [(2 ^ 20, 16)] ph)) (0x40000 + 32 * 17) 32 (regEntry 17 9 3 1 0))
    (0x50000 + 32 * 3) 32 (stubEntry 18 9 1 3 0)
def sTab (m : Msg) (ph : Nat) (f : Fab) : State := { ms m with
  dcb := { Dcb.reset with otb := 10, rgb := 0x40000 + 10, stb := 0x50000 + 10, devnum := 0x85, fpst := 2 ^ 18 - 1 }, mem := tabMem ph, fab := f, cycle := 2 ^ 30 }
theorem tab_up (m : Msg) (ph : Nat) (f : Fab) (h : ∀ q ∈ f.peersIn, ∀ n ∈ q.2.planes, n.2 < 18) : (sTab m ph f).PortsUp :=
  ⟨fun p hp => (show ∀ p, p < 18 → bit (2 ^ 18 - 1) p = true by decide) p hp, h⟩
def migA (ph : Nat) (dirty todo : List Nat) : Mig := ⟨16, 9, none, ph, 0, dirty, todo, [], 1, [], 3, 0, 0, none, []⟩
theorem partyOk_iff (s : State) (m : Mig) :
    PartyOk s m ↔ s.mig m.ident = some m ∧ (∀ y ∈ s.party m, s.mig y.ident = some y) ∧ (s.party m).Nodup :=
  ⟨fun h => ⟨h.self, h.members, h.once⟩, fun h => ⟨h.1, h.2.1, h.2.2⟩⟩
/-- A party of one. -/
theorem partyOk_one (s : State) (m : Mig) (h : s.mig m.ident = some m) (h' : s.party m = [m]) : PartyOk s m :=
  ⟨h, fun y hy => by rw [h'] at hy; rw [List.mem_singleton.mp hy]; exact h, by rw [h']; exact List.nodup_singleton _⟩
theorem wit_ObjectMovesProceed_source :
    (∀ p ∈ [(1, [], [15]), (2, [], [15]), (1, [15], []), (0, [], []), (3, [], [])], let m := migA p.1 p.2.1 p.2.2
      ∀ q ∈ [Msg.chunkSend 16, .copyPassEnd 16, .mala 16 0, .mala 16 5, .mcpa 16 15, .regack 16],
      let s := sTab q 1 { Fab.reset with migs := [(16, m)] }
      s.isQuiet = true ∧ s.mig m.ident = some m ∧ s.party m = [m] ∧ m.ident = 16 ∧ s.fab.frees.get 16 = none)
    ∧ (sTab (.mala 16 0) 1 Fab.reset).oteFind 16 = some (16, oteNew 16 65536 0 0 0 0 [(2 ^ 20, 16)] 1) := by decide +kernel
/-- A pass of a move of one object that ends with 257 dirty chunks. -/
theorem wit_ObjectMovesProceed_again : let m := migA 1 (List.range 257) []
    let s := sTab (.copyPassEnd 16) 1 { Fab.reset with migs := [(16, m)] }
    s.isQuiet = true ∧ PartyOk s m ∧ s.party m = [m] ∧ m.todo = [] ∧ 256 < m.dirty.length ∧ m.pass < 8 :=
  ⟨by decide +kernel, partyOk_one _ _ rfl rfl, rfl, rfl, by simp [migA], by decide⟩
/-- A group's move: a member whose registry has answered, or whose pass is over, beside one of which neither holds. -/
theorem wit_ObjectMovesProceed_group :
    ∀ p ∈ [(1, [15]), (3, [])], let m : Mig := { migA p.1 [] [] with group := some 4 }
      let y : Mig := { migA p.1 [] p.2 with group := some 4, ident := 19 }
      ∀ q ∈ [Msg.copyPassEnd 16, .regack 16], let s := sTab q 1 { Fab.reset with migs := [(16, m), (19, y)] }
      s.isQuiet = true ∧ PartyOk s m ∧ s.party m = [m, y] ∧ y ≠ m ∧ (y.todo ≠ [] ∨ y.ack = 0) := by
  simp only [partyOk_iff]
  decide +kernel
/-- A line of the chunk is on its way to memory; an OFRE waits for its registry. -/
theorem wit_ObjectMovesProceed_waits :
    (sTab (.chunkSend 16) 1 { Fab.reset with migs := [(16, migA 1 [] [15])] }).chunkInflight 16 15 = false ∧
    (let s : State := { sTab (.chunkSend 16) 1 { Fab.reset with migs := [(16, migA 1 [] [15])] } with
        rcv := { Rcv.reset with inflight := [(0, (2 ^ 20 + 65536 - 128) / 128, 9, 0, false)] } }
     s.chunkInflight 16 15 = true ∧ s.isQuiet = true) := by decide +kernel
/-- An OFRE that waits for its registry, or for devices. -/
def freeA (reg : Bool) (left : List Nat) (more : List ObjReq := []) : FreeWait := ⟨⟨16, 0, .free, 5, 7, 0, 5, 4, false⟩, 16, reg, left, more⟩
theorem wit_ObjectMovesProceed_frees :
    (∀ p ∈ [(false, []), (true, []), (true, [9, 10])], let s := sTab (.regack 16) 0 { Fab.reset with frees := [(16, freeA p.1 [])], members := p.2 }
      s.isQuiet = true ∧ s.fab.frees.get 16 = some (freeA p.1 []) ∧ s.freeDevs 16 = p.2)
    ∧ (sTab (.regack 16) 0 { Fab.reset with frees := [(16, freeA true [])], members := [9] }).PortsUp :=
  ⟨by decide +kernel, tab_up _ _ _ (by decide)⟩
theorem wit_ObjectMovesProceed_up : ∀ m ph, (sTab m ph { Fab.reset with inbound := [(16, [⟨16, 0, .read, 9, 7, 0, 9, 4, false⟩])] }).PortsUp :=
  fun m ph => tab_up m ph _ (by decide)
theorem wit_ObjectMovesProceed_destination :
    (∀ q ∈ [Msg.malc 16 65536 0 0 0 9 4, .mcpy 16 15 9 4 [] [] [], .regupd 17 9 4 9 4, .regupd 19 9 4 9 4, .mact 16 4 0 9 4, .mrel 16 9 4],
      let s := sTab q 4 { Fab.reset with inbound := [(16, [⟨16, 0, .read, 9, 7, 0, 9, 4, false⟩])] }
      s.isQuiet = true ∧ s.devSet = true ∧ s.chunkHeld 16 = false
      ∧ ∀ s1 ∈ [(s.notePlane 9 4 (16 * 2 ^ 29)).accept 9 4, (s.notePlane 9 4 (16 * 2 ^ 29 + 32 * 15)).accept 9 4, (s.notePlane 9 4 (17 * 2 ^ 29)).accept 9 4,
          (s.notePlane 9 4 (19 * 2 ^ 29)).accept 9 4, s.accept 9 4],
        s1.2 = true ∧ (s1.1.regFind 17).isSome = true ∧ s1.1.regFind 19 = none ∧ (s1.1.oteFind 16).any (fun e => otePhase e.2 == 4) = true)
    ∧ (let s := sTab (.malc 16 65536 0 0 0 9 4) 4 Fab.reset; (((s.notePlane 9 4 (16 * 2 ^ 29)).accept 9 4).1.takeMalc 16 65536 0 0 0).2 ≠ 0)
    ∧ (let s0 := sTab (.malc 18 65536 0 0 0 9 4) 4 Fab.reset
       let s := ({ s0 with dcb := { s0.dcb with fxb := 0x70001 } } : State).fxPush 0 16 0x100000
       s.msg = some (.malc 18 65536 0 0 0 9 4) ∧ s.isQuiet = true ∧ s.devSet = true ∧ ((s.notePlane 9 4 (18 * 2 ^ 29)).accept 9 4).2 = true
       ∧ (((s.notePlane 9 4 (18 * 2 ^ 29)).accept 9 4).1.takeMalc 18 65536 0 0 0).2 = 0)
    ∧ (∀ q ∈ [Msg.malc 16 65536 0 0 0 9 4, .mcpy 16 15 9 4 [] [] [], .regupd 17 9 4 9 4, .mact 16 4 0 9 4, .mrel 16 9 4],
      let s := sTab q 4 { Fab.reset with peersIn := [(9, ⟨5, [4, 5], [], [], [], []⟩)] }
      s.isQuiet = true ∧ s.devSet = true ∧ ∀ x ∈ [16 * 2 ^ 29, 16 * 2 ^ 29 + 32 * 15, 17 * 2 ^ 29], ((s.notePlane 9 4 x).accept 9 4).2 = false ∧ (s.accept 9 4).2 = false)
    ∧ (∀ c ∈ [2 ^ 30, 2 ^ 30 - 1], let s : State := { sTab (.stubCollect 3) 0 Fab.reset with cycle := c }
       let fl := byteField (s.entAt s.dcb.stb 32 3) 10 1
       10 ≤ tabK s.dcb.stb ∧ 3 < 2 ^ tabK s.dcb.stb ∧ bit fl 0 = true ∧ bit fl 1 = true ∧ s.dcb.stci ≠ 0
       ∧ decide (s.dcb.stci ≤ s.cycle - byteField (s.entAt s.dcb.stb 32 3) 16 8) = decide (c = 2 ^ 30))
    ∧ (let s := sTab (.stubCollect 2) 0 Fab.reset; bit (byteField (s.entAt s.dcb.stb 32 2) 10 1) 0 = false) := by decide +kernel
/-- The die's durable queue has no room for a chunk of an object of a region. -/
theorem wit_ObjectMovesProceed_held : let s0 := sTab (.mcpy 16 15 9 4 [] [] []) 0 Fab.reset
    let s : State := { s0 with
      mem := Mem.store s0.mem (256 * 16) 256 (oteNew 16 65536 2 0 0 0 [(2 ^ 20, 16)] 4)
      rcv := { Rcv.reset with dq := List.replicate 8192 (0, 0, 0, 0, false) } }
    s.isQuiet = true ∧ s.chunkHeld 16 = true := by decide +kernel
/-- A read of this device (tag 7) and of device 9 for the last line of object 16, and one for object 20, which is not here. -/
def reqA (ident src : Nat) : ObjReq := ⟨ident, 65408, .read, src, 7, 0, src, 4, false⟩
def waitA (stage : Nat) (c : Cont := .gangOp 0 9) : ObjWait := ⟨reqA 17 5, 9, 2, c, 0, stage, 0, false⟩
theorem wit_ObjectRequestsAnswered_serve :
    (∀ r ∈ [reqA 16 5, reqA 16 9, reqA 20 9], ∀ q ∈ [Msg.oreq r, .ofwd r], let s := sTab q 0 Fab.reset
      s.msg = some q ∧ s.isQuiet = true ∧ s.devSet = true ∧ s.behind r = false ∧ r.taken = false
      ∧ ((s.notePlane r.via r.seq r.name).accept r.via r.seq).2 = true)
    ∧ (∀ src ∈ [5, 9], let s := sTab (.oreq (reqA 16 src)) 0 Fab.reset
       let s1 := ((s.notePlane src 4 (reqA 16 src).name).accept src 4).1
       let s2 := (s1.countReq 16 65408 src).1.otcFill 16 65408
       (reqA 16 src).op = .read ∧ (src = 5 ↔ src = s.devNum) ∧ s1.oteFind 16 = some (16, oteNew 16 65536 0 0 0 0 [(2 ^ 20, 16)] 0)
       ∧ otePhase (oteNew 16 65536 0 0 0 0 [(2 ^ 20, 16)] 0) = 0
       ∧ s2.ownerChk 16 65408 = none ∧ s2.coh.retiring = none ∧ s2.dirFull (s2.objLineOf 16 65408) 8 = false
       ∧ s1.planeIn src 4 (reqA 16 src).name = s1.planeFor (reqA 16 src).name)
    ∧ (let s := sTab (.oreq (reqA 20 9)) 0 Fab.reset
       let s1 := ((s.notePlane 9 4 (reqA 20 9).name).accept 9 4).1
       s1.oteFind 20 = none ∧ s1.stubFind 20 = none) := by decide +kernel
theorem wit_ObjectRequestsAnswered_up : ∀ m, (sTab m 0 Fab.reset).PortsUp := fun m => tab_up m _ _ (by decide)
/-- An OPIN waits for the answer to its request. -/
def opPin : Op := { Op.blank (.opin xCmd) 0 0x1000 6 0 false with phase := 2 }
def sAsk (m : Msg) (w : ObjWait) : State := { sTab m 0 { Fab.reset with reqs := [(7, w)] } with gangs := [(0, gOp 9 opPin)] }
theorem wit_ObjectRequestsAnswered_answers :
    (sTab (.olupd 17 9 3) 0 Fab.reset).locGet 17 = none
    ∧ (sTab (.olupd 17 9 3) 0 { Fab.reset with loc := [⟨17, 6, 2, true, false⟩] }).locGet 17 = some ⟨17, 6, 2, true, false⟩
    ∧ (∀ code ∈ [0, 1, 257, 515], let p : ObjRsp := ⟨7, code, 1, false, [], 9, 3, false⟩
       let w : ObjWait := { waitA 0 (.blocking 0 9) with req := { reqA 17 5 with op := .pin true } }
       let s := sAsk (.orsp p) w
       s.fab.reqs.get p.tag = some w ∧ s.op 0 9 = some opPin ∧ opPin.need = [] ∧ w.req.op.reads = false ∧ p.code ≠ 0x13 ∧ p.code ≠ 256
       ∧ s.fab.reqs.get 8 = none)
    ∧ (∀ q ∈ [Msg.oabs 7, .ocon 7], ∀ w ∈ [waitA 1, waitA 0, waitA 0 (.prefetch 0 1)], let s := sAsk q w
       s.fab.reqs.get 7 = some w ∧ s.fab.reqs.get 8 = none ∧ w.tries ≠ 3
       ∧ (w.stage ≠ 0 ∨ (w.stage = 0 ∧ w.orders = true) ∨ (w.stage = 0 ∧ w.orders = false)))
    ∧ ((waitA 0).orders = true ∧ (waitA 0 (.prefetch 0 1)).orders = false)
    ∧ (∀ src ∈ [9, 5], let s := sTab (.regq 17 src 2 4) 0 Fab.reset
       s.devSet = true ∧ ((s.accept src 4).1.regFind 17).isSome = true ∧ (s.accept src 4).1.regFind 19 = none)
    ∧ (∀ st ∈ [0, 1, 2], ∀ own ∈ [5, 9], let s := sAsk (.rega 17 own 3 st 7) (waitA 1 (.blocking 0 9))
       s.fab.reqs.get 7 = some (waitA 1 (.blocking 0 9)) ∧ (waitA 1 (.blocking 0 9)).stage = 1 ∧ (waitA 1 (.blocking 0 9)).req.ident = 17
       ∧ s.failed own = false ∧ s.op 0 9 = some opPin ∧ s.heldBack 7 (waitA 1) own = false)
    ∧ (let s := sTab (.rega 17 9 3 1 7) 0 { Fab.reset with reqs := [(6, waitA 1), (7, waitA 1)], dead := [9] }
       s.failed 9 = true ∧ s.heldBack 7 (waitA 1) 9 = true ∧ (waitA 0).stage ≠ 1) := by decide +kernel
/-- The name of the line read, its directory entry with two sharers, and a write that waits for it. -/
def nameA : Nat := 16 * 2 ^ 29 + 65408 / 128
def podA (shr : List Nat) (msc : Option Nat) (cur : Option (ObjReq × Nat)) (psi : Option Nat) (left : Nat) : PodEnt :=
  ⟨nameA, 5, 0, shr, msc, cur, psi, left, []⟩
def writeA : ObjReq := { reqA 16 5 with op := .write 1 1 false }
def sPod (m : Msg) (es : List PodEnt) : State := sTab m 0 { Fab.reset with pod := es }
theorem wit_PodDirectoryWorks_requests :
    ((reqA 16 5).name = nameA ∧ writeA.name = nameA ∧ (reqA 16 5).op.reads = true ∧ writeA.op.reads = false)
    ∧ (∀ r ∈ [reqA 16 5, writeA, { reqA 16 5 with op := .pin true }], let s := sPod (.podDirOreq r 5) []
        s.podOf r.name = none ∧ (s.podPeers r.name).length < 16)
    ∧ (let far (j : Nat) : PodEnt := { podA [9] none none none 0 with name := nameA + (j + 1) * 2 ^ 38 }
       let s := sPod (.podDirOreq writeA 5) ((List.range 400).map far)
       s.podOf nameA = none ∧ 16 ≤ (s.podPeers nameA).length)
    ∧ (∀ r ∈ [reqA 16 5, writeA], ∀ e ∈ [podA [5, 9] (some 1) none none 0, podA [] none none none 0, podA [5] none (some (reqA 16 9, 5)) none 0],
        let s := sPod (.podDirOreq r 5) [e]
        s.podOf r.name = some e ∧ e.busyWith r.src r.tag = false ∧ e.wait = [] ∧ (e.cur = none ↔ e.left = 0 ∧ e.shr ≠ [5])) := by decide +kernel
theorem wit_PodDirectoryWorks_answers :
    (∀ es ∈ [[], [podA [9] none (some (reqA 16 5, 5)) none 0]], let p : ObjRsp := ⟨7, 0, 1, false, [], 5, 3, false⟩
       let s := sPod (.orspAtSwitch nameA p 5 false) es
       p.code = 0 ∧ p.poison = false ∧ s.fab.epochWait = false ∧ (s.podPeers nameA).length < 16
       ∧ p.owner = s.devNum ∧ s.dirFull (s.objLineOf 16 65408) 8 = false
       ∧ (let e := (s.podOf nameA).getD ⟨nameA, 5, 3, [], none, none, none, 0, []⟩
          (e.busyWith 5 7 = true ∨ e.cur = none) ∧ e.psi = none))
    ∧ (∀ e ∈ [podA [9] none (some (writeA, 5)) none 0, podA [] none (some (writeA, 5)) none 0],
       let s := sPod (.orspAtSwitch nameA ⟨7, 0, 1, false, [], 5, 3, false⟩ 5 true) [e]
       s.podOf nameA = some e ∧ e.busyWith 5 7 = true)
    ∧ (∀ e ∈ [podA [5] none none none 0, podA [5, 9] none (some (writeA, 5)) none 2, podA [9] none (some (writeA, 5)) none 1,
        podA [9] none none (some 5) 1, podA [9] none none (some 255) 1], let s := sPod (.piack nameA 9) [e]
       s.podOf nameA = some e ∧ freeIdent nameA = none ∧ (e.left = 0 ∨ 9 ∈ e.shr))
    ∧ (∀ es ∈ [[], [podA [9] none none (some 5) 1], [podA [5, 9] none none none 0]], let s := sPod (.psi nameA 5) es
       s.podOf nameA = es.head? ∧ s.portUp (s.planeFor nameA) = true)
    ∧ (∀ name ∈ [nameA, freeName 16], (sPod (.pinv name) []).devSet = true ∧ freeIdent name = if name = nameA then none else some 16)
    ∧ (∀ w ∈ [freeA true [], freeA false [9], freeA false [9, 10]], let s := sTab (.piack (freeName 16) 9) 0 { Fab.reset with frees := [(16, w)] }
       s.fab.frees.get 16 = some w ∧ (w.reg = true ∨ 9 ∈ w.left))
    ∧ (let s := sPod (.psia nameA) []
       s.txn (s.objLineOf (nameA / 2 ^ 29) (nameA % 2 ^ 29 * 128)) = none ∧ s.mig (nameA / 2 ^ 29) = none) := by decide +kernel
theorem wit_LinksAndPodMap :
    (let u : Nat × Nat × OutMsg := (4, 0, ⟨9, .oabs, [7], 4, 0⟩)
     ∀ q ∈ [(Msg.frtoExpiry 9 4, 28000), (.peerTimeout 9, 2799999), (.peerTimeout 9, 2800000)],
       let s : State := { sTab q.1 0 { Fab.reset with peersOut := [(9, ⟨5, [u], []⟩)] } with cycle := q.2 }
       s.fab.peersOut.get 9 = some ⟨5, [u], []⟩ ∧ (s.peerOut 9).unacked.find? (fun u => u.1 == 4) = some u ∧ u.2.2.kind ≠ .oreq ∧ u.2.2.kind ≠ .collectiveContribution
       ∧ (s.peerOut 9).unacked.find? (fun u => u.1 == 3) = none
       ∧ s.isQuiet = true ∧ s.fab.reqs = [] ∧ s.fab.frees = [] ∧ s.fab.migs = [] ∧ s.rcv.commits = []
       ∧ (q.2 = 2800000 ↔ (((s.fab.peersOut.get 9).map (·.unacked)).getD []).any (fun u => decide (u.2.1 + s.dcb.pto ≤ s.cycle)) = true)
       ∧ (q.2 ≠ 2800000 ↔ (((s.fab.peersOut.get 9).map (·.unacked)).getD []).all (fun u => decide (s.cycle < u.2.1 + s.dcb.pto)) = true))
    ∧ (let u : Nat × Nat × OutMsg := (4, 0, ⟨9, .oreq, [17, 65408, 7], 4, 0⟩)
       let s := sTab (.frtoExpiry 9 4) 0 { Fab.reset with peersOut := [(9, ⟨5, [u], []⟩)], reqs := [(7, waitA 0)] }
       (s.peerOut 9).unacked.find? (fun u => u.1 == 4) = some u ∧ s.fab.reqs.get (u.2.2.args.getD 2 0) = some (waitA 0))
    ∧ (let u : Nat × Nat × OutMsg := (4, 0, ⟨255, .collectiveContribution, [3, 1, 0, 0, 6, 5], 4, 0⟩)
       let s := sTab (.frtoExpiry 255 4) 0 { Fab.reset with peersOut := [(255, ⟨5, [u], []⟩)] }
       (s.peerOut 255).unacked.find? (fun u => u.1 == 4) = some u ∧ u.2.2.kind = .collectiveContribution)
    ∧ ((((sTab (.peerTimeout 9) 0 Fab.reset).fab.peersOut.get 9).map (·.unacked)).getD [] = [])
    ∧ (let s := sTab (.orsp ⟨7, 0, 1, false, [], 9, 3, false⟩) 0 { Fab.reset with reqs := [(7, waitA 0 (.prefetch 0 1))], epochWait := true }
       s.fab.epochWait = true ∧ s.fab.reqs = [(7, waitA 0 (.prefetch 0 1))] ∧ s.gangs = [])
    ∧ (0 < Config.nport ∧ (ms (.linkTraining 0)).fab.mapDev = []
       ∧ (let s : State := { ms (.linkTraining 0) with fab := { Fab.reset with mapDev := [9] } }; s.fab.mapDev.getD 0 s.devNum ≠ s.devNum))
    ∧ (let s (n : Nat) : State := { ms (.flitRetry 0 false false) with fab := { Fab.reset with retries := SMap.put [] 0 (BitVec.ofNat 32 n) } }
       ((s 15).fab.retries.get 0).toNat = 15 ∧ ((s 14).fab.retries.get 0).toNat < 15) := by decide +kernel

/-- A region of 1 GiB at 1 GiB under entry 63, its RCPT at open point 3, line 2^23 + 1 of it with data 9 on its way. -/
def rrdA (en : Nat) : Nat := en + 2 ^ 16 + 2 ^ 32
def rcptA : Rcpt := ⟨2, 3, 7, 0, [1, 2, 3, 4], [5, 6, 7, 8], 0, 0, 0⟩
def lineA : Nat := 2 ^ 23 + 1
def comA (step left : Nat) (awaited : List Nat) (region : Nat := 63) : Commit := ⟨region, 0, 9, 7, step, left, awaited, 3, false, false, 0⟩
/-- The RCOMM of gang 0. -/
def opComm : Op := { Op.blank (.rcomm xCmd) 0 0x1000 6 0 false with phase := 2, res := [28, 29], stReg := 31 }
def sRec (m : Msg) (en : Nat) (c : Commit) (fl dq : Nat) : State := { ms m with
  gangs := [(0, gOp 9 opComm)]
  dcb := { Dcb.reset with rrd := List.replicate 63 0 ++ [rrdA en], devnum := 0x85, fpst := 2 ^ 18 - 1 }
  rcv := { Rcv.reset with rcpt := [(63, rcptA)], commits := [(7, c)]
                          inflight := List.replicate fl (0, lineA, 9, 0, false)
                          dq := List.replicate dq (ioDieOf (lineA * 128), lineA, 9, 3, false) } }
theorem wit_CommitsProceed_queues :
    (∀ dq ∈ [0, 1], let s := sRec (.durableAccept (ioDieOf (lineA * 128))) 1 (comA 1 0 []) 1 dq
     s.rcv.inflight = [(0, lineA, 9, 0, false)] ∧ s.regionOf (lineA * 128) = some 63 ∧ s.scanning 63 = false
     ∧ (s.rcv.dq.filter (fun q => q.1 == ioDieOf (lineA * 128))).length < 8192 ∧ (s.pointsOf lineA).isSome = true ∧ s.pointsOf 1 = none)
    ∧ (let s := sRec (.durableAccept 0) 1 (comA 1 0 []) 0 0; ∀ e ∈ s.rcv.inflight, ioDieOf (e.2.1 * 128) ≠ 0)
    ∧ (∀ dq ∈ [0, 1], let s := sRec (.durableWriteback (ioDieOf (lineA * 128))) 1 (comA 1 0 []) 0 dq
       s.rcv.dq.find? (fun e => e.1 == ioDieOf (lineA * 128)) = if dq = 0 then none else some (ioDieOf (lineA * 128), lineA, 9, 3, false)) := by
  refine ⟨?_, ?_, ?_⟩ <;> decide +kernel
/-- A durable queue of 8 192 lines. -/
theorem wit_CommitsProceed_full : let s := sRec (.durableAccept (ioDieOf (lineA * 128))) 1 (comA 1 0 []) 1 8192
    8192 ≤ (s.rcv.dq.filter (fun q => q.1 == ioDieOf (lineA * 128))).length := by decide +kernel
theorem wit_CommitsProceed_waits :
    (∀ fl ∈ [1, 0], ∀ src ∈ [5, 9], let s := sRec (.rdur 7 src) 1 (comA 1 0 []) fl 0
       s.rcv.inflight.isEmpty = decide (fl = 0) ∧ (src == 5) = (src == s.devNum) ∧ s.devSet = true
       ∧ s.portUp (s.rdurPlane 7 src) = true)
    ∧ (∀ c ∈ [comA 2 0 [], comA 1 0 [5, 9], comA 1 0 [9], comA 1 0 [9] 64], ∀ lost ∈ [true, false], let s := sRec (.rdura 7 9 lost) 1 c 0 0
       s.rcv.commits.get 7 = some c ∧ (c.step ≠ 1 ∨ 9 ∈ c.awaited) ∧ s.op 0 9 = some opComm ∧ bit opComm.flags 4 = false ∧ c.peer = false
       ∧ c.lost = false ∧ s.rcv.rcpt.get 63 = some rcptA ∧ rcptA.sweep < 65532 ∧ s.rcv.order = [])
    ∧ (sRec (.rclose 63 3 1) 1 (comA 2 2 []) 0 0).rcv.rcpt.get 63 = some rcptA := by
  refine ⟨?_, ?_, ?_⟩ <;> decide +kernel
theorem wit_CommitsProceed_close :
    (∀ n ∈ [2, 1], let s := sRec (.rclosa 63 3 1 6) 1 (comA 2 n []) 0 0
       s.rcv.rcpt.get 63 = some rcptA ∧ (comA 2 n []).left = n ∧ s.op 0 9 = some opComm
       ∧ s.rcv.commits.find? (fun kc => kc.2.region == 63 && kc.2.step == 2 && kc.2.point == 3) = some (7, comA 2 n [])
       ∧ s.rcv.commits.get 7 = some (comA 2 n []))
    ∧ (let s := sRec (.settlerSweep 63 1) 1 (comA 2 2 []) 0 0; s.rcv.rcpt.get 63 = some rcptA ∧ rrdBusy (s.rrd 63) = false) := by
  decide +kernel
theorem wit_RegionsAndDieResets :
    (∀ m ∈ [Msg.drst (2 ^ 3), .watchdog 3, .containmentScan 3], ∀ d ∈ [0, 0x80], let s : State := { ms m with dcb := { Dcb.reset with drst := d } }
      bit s.dcb.drst (4 + 3) = decide (d ≠ 0) ∧ s.isQuiet = true ∧ s.rcv.closing = [])
    ∧ (let s : State := { ms (.containmentScan 3) with rcv := { Rcv.reset with closing := [(63, 1)] } }; s.rcv.closing ≠ [])
    ∧ (let s := sRec (.rrdEnable 63 (rrdA 1)) 0 (comA 2 2 []) 0 0
       63 < s.dcb.rrd.length ∧ rrdBusy (s.rrd 63) = false ∧ rrdEn (s.rrd 63) = false ∧ bit (rrdA 1) 0 = true ∧ s.mayEnable 63 (rrdA 1) = true
       ∧ s.isQuiet = true)
    ∧ (let s : State := { sRec (.rrdEnable 63 (rrdA 1)) 4 (comA 2 2 []) 0 0 with coh := { Coh.reset with busy := [⟨line5, 0, 1, 1, none, false⟩] } }
       s.rrd 63 = rrdFields (rrdA 1) + 3 ∧ s.isQuiet = false ∧ rrdBusy (s.rrd 63) = true ∧ s.rrd 63 ≠ rrdFields (rrdA 9) + 3)
    ∧ (let s := sRec (.rrdDisable 63 (rrdA 0)) 1 (comA 2 2 []) 0 0
       rrdBusy (s.rrd 63) = false ∧ rrdEn (s.rrd 63) = true ∧ bit (rrdA 0) 0 = false ∧ sameRange (s.rrd 63) (rrdA 0) = true)
    ∧ (let s := sRec (.rrdSetTpol 63 (rrdA 9)) 1 (comA 2 2 []) 0 0
       rrdBusy (s.rrd 63) = false ∧ rrdEn (s.rrd 63) = bit (rrdA 9) 0 ∧ sameRange (s.rrd 63) (rrdA 9) = true)
    ∧ (let s := sRec (.rrdDisableComplete 63) 5 (comA 2 2 []) 0 0
       63 < s.dcb.rrd.length ∧ rrdBusy (s.rrd 63) = true ∧ s.regionOwed 63 = true)
    ∧ (let s := sRec (.rrdDisableComplete 63) 5 (comA 2 2 [] 62) 0 0
       rrdBusy (s.rrd 63) = true ∧ s.regionOwed 63 = false) := by
  refine ⟨?_, ?_, ?_, ?_, ?_, ?_, ?_, ?_⟩ <;> decide +kernel

/-! ### Dispatchers -/

/-- Device 5 with queue 0 of 16 records at 0x60000, its head record `image` after a wrapped head index. -/
def sQueue (m : Msg) (image : List Nat) : State := { ms m with
  mem := Mem.store [] (0x60000 + 256 * 15) 256 (packBytes (image.zipIdx.map (fun b => (b.2, b.1))))
  dcb := { Dcb.reset with devnum := 0x85, lqcfg := (0x60000 + 1) :: List.replicate 63 0, lqptr := 0xFFFFFFFF :: List.replicate 63 0 } }
/-- What the check of queue 0's head record and its dependences answer: 3 where the record is refused. -/
def headSays (s : State) : Nat := match s.checkHead 0 with | (s1, .ok l) => (s1.depsState l).2 | _ => 3
def imageDep : List Nat := placedImage.take 128 ++ [0, 0x20, 0, 0, 0, 0, 0, 0, 5, 0, 0, 0, 1] ++ List.replicate 115 0
theorem wit_LaunchAccept :
    (let s := ms .launchAccept; s.devSet = false)
    ∧ (∀ p ∈ [(List.replicate 256 0, true), (placedImage, false), (imageDep, false), (placedImage.set 97 1, false)], let s := sQueue .launchAccept p.1
       s.devSet = true ∧ s.queueOrder = [0] ∧ .launchAccept ∉ s.pending ∧ s.coh.retiring = none ∧ s.isQuiet = true
       ∧ (s.headLaunch 0).badRec = p.2 ∧ 0 < s.dcb.lqptr.length ∧ s.sched.heads.get 0 = none ∧ s.sched.q63 = false)
    ∧ headSays (sQueue .launchAccept placedImage) = 1
    ∧ headSays { sQueue .launchAccept imageDep with coh := { Coh.reset with dtlb := [(0, page2)] } } = 0 := by
  refine ⟨?_, ?_, ?_, ?_⟩ <;> decide +kernel
/-- A dependence whose word no page holds, and a save area smaller than the launch's state. -/
theorem wit_LaunchAccept_refused :
    headSays (sQueue .launchAccept imageDep) = 2 ∧ headSays (sQueue .launchAccept (placedImage.set 97 1)) = 3 := by decide +kernel
/-- A launch of one block that is to be placed; one whose rectangle no die holds. -/
def launch4 (rect : Nat) : Launch := { placedLaunch with placed := 0, image := placedImage.set 60 rect }
def sPlace (l : Launch) (pend : List Msg) : State := { ms (.blockPlace 0) with
  pending := pend, sched := { Sched.reset with launches := [(0, l), (1, { launch4 0 with queue := 1 })] } }
theorem wit_BlockPlace :
    (∀ l ∈ [launch4 0, launch4 0xFF, { launch4 0 with saved := [0] }], let s := sPlace l []
      s.launch 0 = some l ∧ l.backoff = false ∧ l.hasWork = true ∧ s.defers 0 l = false ∧ s.yields 0 l = false ∧ s.coh.retiring = none
      ∧ s.isQuiet = true)
    ∧ (let l := launch4 0
       let s : State := { sPlace l [.blockPlace 1] with dcb := { Dcb.reset with lqcfg := [0, 14] } }
       s.launch 0 = some l ∧ s.defers 0 l = true)
    ∧ ({ launch4 0 with backoff := true } : Launch).backoff = true
    ∧ (∀ p ∈ [(launch4 0, true), (launch4 0xFF, false)], let s := sPlace p.1 []
       p.1.saved = [] ∧ (s.readConst p.1).2 = some [] ∧ (let s1 := (s.readConst p.1).1
         (s1.findAll s1.useOf p.1 (decide (0 < p.1.done)) (s1.rectsNow p.1) p.1.nextBlocks []).isSome = p.2)) := by
  refine ⟨?_, ?_, ?_, ?_⟩ <;> decide +kernel
theorem wit_BlockRetire :
    (let s : State := { ms (.placeBackoff 0) with sched := { Sched.reset with launches := [(0, { launch4 0 with backoff := true })] } }
     s.launch 0 = some { launch4 0 with backoff := true } ∧ (launch4 0).hasWork = true)
    ∧ (∀ ds ∈ [[], [1]], let b : Block := { placedBlock 0 with drains := ds }
       let s : State := { msG (.blockRetire 0) { base with retired := true } with
         sched := { Sched.reset with launches := [(0, placedLaunch)], blocks := [(0, b)] } }
       s.block 0 = some b ∧ s.blockOver b = true ∧ (∀ d ∈ b.drains, s.coh.drains.has d = false) ∧ (∀ c ∈ b.cores, s.writesOwed c = false)
       ∧ s.coh.retiring = none ∧ s.isQuiet = true ∧ s.launch b.launch = some placedLaunch)
    ∧ (let s : State := { msG (.blockRetire 0) base with sched := { Sched.reset with launches := [(0, placedLaunch)], blocks := [(0, placedBlock 0)] } }
       s.block 0 = some (placedBlock 0) ∧ s.blockOver (placedBlock 0) = false)
    ∧ (let s : State := { ms .queue63Release with sched := { Sched.reset with q63 := true } }
       s.dcb.rcrt.all (fun v => !rcrtEn v) = true ∧ s.qEmpty 63 = true ∧ (∀ kl ∈ s.sched.launches, kl.2.regen = none))
    ∧ (let s : State := { ms .queue63Release with dcb := { Dcb.reset with rcrt := List.replicate 15 0 ++ [1] } }
       s.dcb.rcrt.any rcrtEn = true) := by decide +kernel
/-- A launch with a time slice of 2^16 cycles and a save area, and one of higher PRIO that has waited 2^20 cycles. -/
def launch5 : Launch := { placedLaunch with image := (placedImage.set 90 16).set 97 1 }
def launch6 : Launch := { launch4 0 with image := placedImage.set 61 7, waiting := some 0 }
def sSlice (m : Msg) (b : Block) (g : Gang) (cyc : Nat) : State := { msG m g with
  cycle := cyc, sched := { Sched.reset with launches := [(0, launch5), (1, launch6)], blocks := [(0, b)] } }
theorem wit_TimeSlice :
    (∀ c ∈ [65535, 65536], let b := placedBlock 0
      let s := sSlice (.timeSlice 0 0) b base c
      s.msg = some (.timeSlice 0 (max b.since b.noneAt)) ∧ s.block 0 = some b ∧ s.launch b.launch = some launch5
      ∧ launch5.tsl ≠ 0 ∧ b.mode ≠ 4 ∧ b.asked = 0 ∧ 1 ≠ max b.since b.noneAt
      ∧ decide (max b.since b.noneAt + 2 ^ launch5.tsl ≤ s.cycle) = decide (c = 65536)
      ∧ s.waiting.any (fun kl => decide (launch5.prio ≤ kl.2.prio)) = true)
    ∧ (∀ n ∈ [1, 2], let b : Block := { placedBlock 0 with asked := 3 }
       let g : Gang := { base with asked := n }
       let s := sSlice (.preemptModeChoice 0) b g 65536
       s.block 0 = some b ∧ s.launch b.launch = some launch5
       ∧ ((s.together 0 b launch5).flatMap (fun kb => kb.2.gangs.filterMap s.gang)).filter (fun g => !g.retired) = [g] ∧ b.asked ≠ 0 ∧ b.mode = 0 ∧ g.halted = false
       ∧ g.asked = n)
    ∧ (∀ m ∈ [(Msg.blockSave 0, 3), (.blockFlush 0, 2)], ∀ ops ∈ [[], [(9, Op.blank (.vld opD) 0 0x1000 0 0 false)]], ∀ ds ∈ [[], [1]],
       let b : Block := { placedBlock 0 with asked := 3, mode := m.2, drains := ds }
       let g : Gang := { base with ops := ops }
       let s := sSlice m.1 b g 65536
       s.block 0 = some b ∧ s.launch b.launch = some launch5 ∧ b.mode = m.2 ∧ (∀ k ∈ b.gangs, s.gang k = some g) ∧ b.gangs ≠ []
       ∧ g.retired = false ∧ g.saveOwed = !ops.isEmpty ∧ (∀ d ∈ b.drains, s.coh.drains.has d = false)
       ∧ (∀ c ∈ b.cores, s.writesOwed c = false) ∧ s.coh.retiring = none ∧ s.isQuiet = true) := by
  refine ⟨?_, ?_, ?_⟩ <;> decide +kernel
theorem wit_PriorityWaitAndRestore :
    (∀ c ∈ [2 ^ 20 - 1, 2 ^ 20], let b := placedBlock 0
      let s := sSlice (.priorityWait 1) b base c
      s.launch 1 = some launch6 ∧ launch6.waiting = some 0 ∧ launch6.hasWork = true ∧ s.cycle = c
      ∧ (s.victims launch6).any (fun kb => kb.2.asked == 2 && kb.2.mode != 4) = false
      ∧ s.victim ((s.victims launch6).filter (fun kb => kb.2.asked == 0 || (kb.2.mode == 4 && decide (kb.2.noneAt + 2 ^ 20 ≤ s.cycle)))) = some 0
      ∧ s.block 0 = some b ∧ ∀ kb ∈ s.sched.blocks, s.block kb.1 = some kb.2)
    ∧ (let l := { launch4 0 with saved := [0] }
       let s : State := { ms (.blockRestore 0 0) with sched := { Sched.reset with
         launches := [(0, l)], saved := [⟨0, 0, true, [32768], [[]], [[]], [[]], [[]], [[]], [[]], []⟩] } }
       s.launch 0 = some l ∧ 0 ∈ l.saved ∧ 1 ∉ l.saved ∧ l.backoff = false ∧ (∀ kb ∈ s.sched.blocks, kb.2.launch = 0 → kb.2.mode ≠ 2 ∧ kb.2.mode ≠ 3) ∧ s.coh.retiring = none ∧ s.isQuiet = true
       ∧ (s.findAll s.useOf l (decide (0 < l.done)) (s.rectsNow l) (s.savedBlocks 0 0 l) []).isSome = true) := by decide +kernel

/-! ### Host, power, and the step -/

def sDcb (m : Msg) (d : Dcb) : State := { ms m with dcb := d }
theorem wit_HostOperationsProceed :
    (∀ v ∈ [0, 1], let s := sDcb (.tlbinv 0x101) { Dcb.reset with tlbinv := v }; bit s.dcb.tlbinv 0 = decide (v = 1) ∧ bit 0x101 0 = true)
    ∧ (∀ ds ∈ [[], [(6, (⟨0, 0, 1, [], false, false⟩ : Drain))], [(5, ⟨0, 0, 1, [], false, false⟩)]],
      let s : State := { ms (.tlbinvComplete 0 5) with coh := { Coh.reset with drains := ds } }
      decide (∀ kd ∈ s.coh.drains, 5 < kd.1) = !ds.any (fun kd => kd.1 == 5))
    ∧ (ms (.tlbinvComplete 0 5)).gangs.any (fun kg => kg.2.ops.any (fun ko => !ko.2.held && ko.2.cls != 8 && decide (ko.2.issued ≤ 0) && !ko.2.atAgent)) = false
    ∧ (let s := msG (.tlbinvComplete 0 5) (gOp 9 { opL with done := false })
       s.gangs.any (fun kg => kg.2.ops.any (fun ko => !ko.2.held && ko.2.cls != 8 && decide (ko.2.issued ≤ 0) && !ko.2.atAgent)) = true)
    ∧ (bit 1 0 = true ∧ bit 0 0 = false)
    ∧ (∀ v ∈ [0, 1], let s := sDcb (.kret (0x3FE * 4096 + 1)) { Dcb.reset with kret := v }
       bit s.dcb.kret 0 = decide (v = 1) ∧ fld (0x3FE * 4096 + 1) 12 10 = 0x3FE ∧ bit (0x3FE * 4096 + 1) 0 = true)
    ∧ (let s := sDcb .keyRetireComplete { Dcb.reset with kret := 0x3FE * 4096 + 1 }
       bit s.dcb.kret 0 = true ∧ s.coh.drains = [] ∧ (∀ kc ∈ s.cores, s.writesOwed kc.1 = false) ∧ s.isQuiet = true
       ∧ s.keyUsed 0x3FE = false ∧ (∀ kc ∈ s.cores, kc.2.keyDirty 0x3FE = false) ∧ bit Dcb.reset.kret 0 = false)
    ∧ (let s : State := { ms .keyRetireComplete with coh := { Coh.reset with drains := [(0, ⟨0, 0, 1, [], false, false⟩)] } }; s.coh.drains ≠ []) := by
  refine ⟨?_, ?_, ?_, ?_, ?_, ?_, ?_, ?_⟩ <;> decide
theorem wit_HostOperationsProceed_keys :
    (∀ p ∈ [(0x3FF, false), (0x3FE, true), (0x3FD, false)], let v := p.1 * 4096 + 1
      let s := sDcb (.kload v) { Dcb.reset with keys := [(0x3FE, (1, 2))] }
      bit v 0 = true ∧ fld v 12 10 = p.1 ∧ s.dcb.keys.has p.1 = p.2 ∧ s.coh.retiring ≠ some p.1)
    ∧ (∀ n ∈ [63], (sDcb (.kvwWrite n 1) Dcb.reset).dcb.kvwNew.length = 64 ∧ n < 64)
    ∧ (let s := sDcb (.kvwEffect 63) { Dcb.reset with kvwNew := List.replicate 63 none ++ [some 1] }
       s.isQuiet = true ∧ s.dcb.kvwNew[63]? = some (some 1) ∧ 63 < s.dcb.kvw.length) := by decide
/-- Pool 0, class 16: the last extent of the stacks' memory, with the pools at 0x70000. -/
def fxV (op : Nat) : Nat := op * 2 ^ 62 + (Config.hbmSize - 2 ^ 16) + 16 * 16 + 1
theorem wit_HostOperationsProceed_pools :
    (∀ op ∈ [(1, Msg.fxopGive), (2, .fxopTake)], ∀ hi ∈ [0, 2 ^ 64], ∀ e ∈ [0, 0x70001], let v := fxV op.1 + hi
      let s := sDcb (op.2 v) { Dcb.reset with fxb := e, fxop := if hi = 0 then 0 else fxV op.1 }
      s.isQuiet = true ∧ bit v 0 = true ∧ (bit v 64 = true ∨ bit s.dcb.fxop 0 = false) ∧ fld v 62 2 = op.1 ∧ s.fxEn = decide (e ≠ 0) ∧ fxArgs v = true
      ∧ fld v 16 30 * 2 ^ 16 % 2 ^ fld v 4 6 = 0
      ∧ (if bit v 64 = true then s else s.fxBusy v).poolHolds (fld v 55 7) (fld v 16 30 * 2 ^ 16) (2 ^ fld v 4 6) = true)
    ∧ fxArgs (fxV 2 - 16) = false
    ∧ (let s := sDcb (.fxopTake (fxV 2)) { Dcb.reset with fxb := 0x70001 }; ((s.fxBusy (fxV 2)).fxGet 0 16).isNone = true)
    ∧ (let s := (sDcb (.fxopTake (fxV 2)) { Dcb.reset with fxb := 0x70001 }).fxPush 0 16 0x100000
       ((s.fxBusy (fxV 2)).fxGet 0 16).isSome = true ∧ s.isQuiet = true)
    ∧ (∀ f ∈ [0, (State.reset.fxBusy (fxV 1)).dcb.fxop, 1], let s : State := { sDcb (.fxopGive (fxV 1)) { Dcb.reset with fxop := f } with
         coh := { Coh.reset with busy := [⟨line5, 0, 1, 1, none, false⟩] } }
       s.isQuiet = false ∧ bit (fxV 1) 64 = false ∧ (bit s.dcb.fxop 0 = decide (f ≠ 0)))
    ∧ (let s := sDcb (.fxbEnable 0x80001) { Dcb.reset with fxb := 0x70001 }
       bit s.dcb.fxb 0 = true ∧ fld (keepBits 0x80001 [(45, 12), (0, 0)]) 12 34 ≠ fld s.dcb.fxb 12 34 ∧ bit Dcb.reset.fxb 0 = false
       ∧ fld 0x70001 12 34 = fld s.dcb.fxb 12 34 ∧ bit 0x70001 0 = true) := by
  refine ⟨?_, ?_, ?_, ?_, ?_, ?_⟩ <;> decide +kernel
theorem wit_HostRegistersWritten :
    (∀ a ∈ [0, 1], let b : Block := { placedBlock 0 with asked := a }
      let s : State := { msG (.preq 0) base with sched := { Sched.reset with launches := [(0, placedLaunch)], blocks := [(0, b)] } }
      s.sched.blocks.find? (fun kb => kb.2.b == fld 0 40 24 && (match s.launch kb.2.launch with
        | some l => l.queue == fld 0 32 6 && l.index == fld 0 0 32 | none => false)) = some (0, b)
      ∧ s.block 0 = some b ∧ b.asked = a)
    ∧ (ms (.preq 0)).sched.blocks = []
    ∧ (∀ m ∈ [(Msg.gdbgHalt 1, false), (.gdbgResume 0, true)], let g : Gang := { base with halted := m.2 }
       (msG m.1 g).gang (gdbgKey 1) = some g ∧ gdbgKey 0 = gdbgKey 1 ∧ g.retired = false ∧ g.halted = m.2)
    ∧ ((ms (.devnumWrite 127)).devSet = false ∧ (sTab (.devnumWrite 127) 0 Fab.reset).devSet = true)
    ∧ (∀ q ∈ [true, false], let s : State := { ms (.tailWrite 63 (2 ^ 63)) with sched := { Sched.reset with q63 := q } }
       63 < s.dcb.lqptr.length ∧ s.sched.q63 = q)
    ∧ (let s := sDcb (.rcrtEnable 15 1) { Dcb.reset with rcrt := 1 :: List.replicate 15 0 }
       15 < s.dcb.rcrt.length ∧ bit 1 0 = true ∧ s.dcb.rcrt.any rcrtEn = true)
    ∧ (let s := ms (.rcrtEnable 15 1); s.dcb.rcrt.any rcrtEn = false ∧ lqEn (s.lqcfg 63) = false)
    ∧ (let s := sDcb (.rcrtEnable 15 1) { Dcb.reset with lqcfg := List.replicate 63 0 ++ [1] }
       Config.isA1 = true ∧ lqEn (s.lqcfg 63) = true ∧ s.qEmpty 63 = true ∧ s.queueBusy 63 = false ∧ s.sched.launches = []) := by
  refine ⟨?_, ?_, ?_, ?_, ?_, ?_, ?_, ?_⟩ <;> decide +kernel
theorem wit_HostRegistersWritten_bases :
    (let s := ms (.tableBaseWrite 8 24); s.sched.launches = [] ∧ s.fab.migs = [] ∧ s.fab.inbound = [] ∧ 10 ≤ fld 24 0 5 ∧ fld 24 0 5 ≤ 24
      ∧ fld 9 0 5 < 10 ∧ 24 < fld 25 0 5)
    ∧ (sPlace (launch4 0) []).sched.launches ≠ []
    ∧ (fld 3 0 5 < 4 ∧ 12 < fld 13 0 5 ∧ 4 ≤ fld 12 0 5 ∧ fld 12 0 5 ≤ 12)
    ∧ ((1 : Nat) % 2 ^ 64 ≠ 0 ∧ 999 % 2 ^ 16 < 1000 ∧ 2800 < 2801 % 2 ^ 16 ∧ bit (ms (.registerWrite 0x160 1)).dcb.tlbinv 0 = false)
    ∧ (let g : Gang := { base with halted := true }
       let s := msG (.debugWindowWrite 0x1FF8 1) g
       s.gang (gdbgKey s.dcb.gdbg) = some g ∧ g.halted = true ∧ 0x1FF8 % 8 = 0 ∧ 0x1FF8 < 0x8000 ∧ 0x1FF8 / 128 < g.av ∧ base.halted = false
       ∧ (0x80F8 - 0x8000) / 4 < g.asz)
    ∧ (bit (sDcb (.registerWrite 0x178 1) { Dcb.reset with fxop := 1 }).dcb.fxop 0 = true
       ∧ bit (sDcb (.registerWrite 0x160 1) { Dcb.reset with tlbinv := 1 }).dcb.tlbinv 0 = true)
    ∧ (∀ h ∈ [true, false], let g : Gang := { base with halted := h }
       let s := msG (.registerRead 0x80080) g
       s.gang (gdbgKey s.dcb.gdbg) = some g ∧ 0x80080 = 0x80000 + 128 * 1 ∧ 1 < g.av) := by
  refine ⟨?_, ?_, ?_, ?_, ?_, ?_, ?_⟩ <;> decide
theorem wit_PowerAndResets :
    (∀ m ∈ [Msg.wayGate 0 127 27, .wayWakeDone 2 127 27, .segmentClearDone 127 27], (ms m).msg = some m ∧ ((ms m).core 127).l1Gated < 3
      ∧ bit ((ms m).core 127).gatedSeg 27 = false ∧ ((ms m).useOf 127).st = [])
    ∧ (let s : State := { ms (.wayWakeDone 2 127 27) with cores := [(127, { CoreSt.fresh with gatedSeg := 2 ^ 27 })] }
       bit (s.core 127).gatedSeg 27 = true)
    ∧ (populated (Config.hbmSize - 1) = true ∧ populated (2 ^ 60) = false)
    ∧ (∀ e ∈ [15, 16, 14], let r : Recorder := { Recorder.fresh with en := true, evt := e }
       let s : State := { ms (.levelSample 127) with cores := [(127, { CoreSt.fresh with recs := [r] })] }
       (s.core 127).recs[0]? = some r ∧ r.en = true ∧ r.evt = e)
    ∧ ((ms .modulePowerOn).host.off = false ∧ (ms .idleEntry).host.idle = 0 ∧ idleLevel (ms .idleEntry).dcb.lattol = 0)
    ∧ (∀ p ∈ [(50, 2), (2000, 3), (2 ^ 31 + 200000, 4)], let s : State := { sDcb .idleEntry { Dcb.reset with lattol := p.1 } with cycle := 2 ^ 16 }
       s.isIdle = true ∧ s.host.idle = 0 ∧ idleLevel s.dcb.lattol = p.2 ∧ (∀ kc ∈ s.cores, ∀ x ∈ kc.2.l1, x.dirty = 0) ∧ s.isQuiet = true)
    ∧ (∀ n ∈ [3, 4], ({ ms .wake with host := { HostSt.reset with idle := n } } : State).host.idle = n) := by
  refine ⟨?_, ?_, ?_, ?_, ?_, ?_, ?_⟩ <;> decide +kernel
theorem wit_MailboxAnswers : ∀ m ∈ [Msg.getVersion, .getCapabilities, .getDigests, .negotiateAlgorithms 1, .getCertificate 7 0 0xFFFF, .challenge 7 1,
    .spdmUnsupported 0xFF, .getMeasurements 7], (ms m).msg = some m := by decide
/-- The last register below the window and the first beyond it; a zero divisor. -/
theorem wit_RegisterInstructionsTrap :
    base.asz - 32 ≤ 32 ∧ base.av - 16 ≤ 48 ∧ base.retired = false ∧ base.hm = false ∧ 32 ∈ regs false (frag0.ur 32) ∧ 48 ∈ regs false (frag0.vr 48)
    ∧ Issuing (st base) iss base frag0 ∧ Clear (st base) iss base [] [31, 30, 29] ∧ Clear (st base) iss base [47, 46, 45] []
    ∧ tVal 0 (base.uw false 29) = 0 ∧ bit (base.act frag0 Modx.none) 31 = true ∧ tVal 0 (base.vw false 45 31) = 0
    ∧ bit base.tmask cBOUNDS = true ∧ base.halted = false ∧ base.entryDue = false :=
  ⟨by decide, by decide, rfl, rfl, by decide, by decide, ⟨rfl, rfl, rfl⟩, clear_base _ _ rfl (by decide),
    clear_of _ _ _ _ _ rfl (by decide) (by decide), by decide, by decide, by decide, by decide, rfl, rfl⟩
/-- The subcode that a lane's check answers; 0 for one that passes, 1000 for one that waits. -/
def Chk.sub : Chk → Nat | .ok _ _ => 0 | .bad e => e | _ => 1000
/-- Addresses that are misaligned, beyond the translated space, or beyond a store's end, each for every lane or for the one access. -/
theorem wit_MemoryInstructionsTrap :
    Issuing (st1 gD) iss gD frag0 ∧ gD.retired = false ∧ gD.hm = false
    ∧ (∀ p ∈ [((0x2FFD, 0), 1, subALIGN), ((0, 2 ^ 25), 1, subNONCANON), ((0x2000, 0), 2, subSPACE)], let x : MemOp := { opD with sp := p.2.1 }
       let g := (base.setU 28 p.1.1).setU 29 p.1.2
       Issuing (st1 g) iss g frag0
       ∧ ∀ r ∈ [vmemReq (.vld x) 0 x g frag0, smemReq (.sld x) 0 0 x g frag0, smemReq (.slda x) 0 1 x g frag0, vmemReq (.vst x) 1 x g frag0,
           smemReq (.sst x) 1 0 x g frag0, smemReq (.sstr x) 1 2 x g frag0],
         g.taskRefuses r = none ∧ (r.kind = 0 ∨ r.one = true) ∧ ((st1 g).checkAll iss g frag0 r).map (fun c => Chk.sub c.2) = [p.2.2])
    ∧ (∀ x : MemOp, x = opD → Clear (st1 gD) iss gD (vmemPlan true x gD frag0).useV (vmemPlan true x gD frag0).useU) := by
  refine ⟨⟨rfl, rfl, rfl⟩, rfl, rfl, ?_, fun x hx => hx ▸ clear_of _ _ _ _ _ rfl (by decide) (by decide)⟩
  intro p hp
  fin_cases hp <;> exact ⟨⟨rfl, rfl, rfl⟩, by decide⟩
/-- A vector store and an atomic whose lanes are all misaligned. -/
theorem wit_MemoryInstructionsTrap_lanes : let g := (List.range 32).foldl (fun g l => g.setV 46 l 0x2FFE) (base.setU 28 0x2FFE)
    let x : AtomOp := ⟨Modx.none, 47, 46, 45, 1, false⟩
    let y : AtomOp := ⟨Modx.none, 31, 28, 30, 1, false⟩
    let z : MemOp := { opD with mode := 1 }
    Issuing (st1 g) iss g frag0
    ∧ Clear (st1 g) iss g (vatomPlan true x g frag0).useV (vatomPlan true x g frag0).useU
    ∧ Clear (st1 g) iss g [] (satomPlan true y g frag0).useU
    ∧ Clear (st1 g) iss g (vmemPlan true z g frag0).useV (vmemPlan true z g frag0).useU
    ∧ ∀ r ∈ [vatomReq (.vcas x) 15 x g frag0, satomReq (.satmAdd y) 1 y g frag0, vmemReq (.vst z) 1 z g frag0],
       g.taskRefuses r = none ∧ ((st1 g).checkAll iss g frag0 r).all (fun c => Chk.sub c.2 == subALIGN) = true
       ∧ (st1 g).checkAll iss g frag0 r ≠ [] := by
  refine ⟨⟨rfl, rfl, rfl⟩, ?_, ?_, ?_, by decide⟩ <;> exact clear_of _ _ _ _ _ rfl (by decide) (by decide)
/-- In a task: a release at REC scope, an atomic of virtual memory, a release at a wider scope; a constant load beyond its image. -/
theorem wit_MemoryInstructionsTrap_task : let g := { gD with task := true }
    let x (sc : Nat) : MemOp := { opD with m := { Modx.none with ord := 2, scope := sc } }
    let y (sc : Nat) : AtomOp := ⟨{ Modx.none with ord := 1, scope := sc }, 31, 28, 30, 1, false⟩
    Issuing (st1 g) iss g frag0
    ∧ g.taskRefuses (vmemReq (.vst (x 4)) 1 (x 4) g frag0) = some cRECF ∧ g.taskRefuses (satomReq (.satmAdd (y 4)) 1 (y 4) g frag0) = some cRECF
    ∧ g.taskRefuses (satomReq (.satmAdd (y 2)) 1 (y 2) g frag0) = some cILLEGAL
    ∧ g.taskRefuses (vmemReq (.vst (x 3)) 1 (x 3) g frag0) = some cILLEGAL
    ∧ (st1 g).launch g.launch = some launch1 ∧ launch1.csize < 0x1000 + 4 := ⟨⟨rfl, rfl, rfl⟩, by decide +kernel⟩
/-- A load whose line's owner has answered that the object does not exist. -/
theorem wit_MemoryInstructionsTrap_return : let x : Op := { opL with accs := [⟨0, 0x2FFC, ⟨true, 0x5F, 0⟩, 124, 0, 0, none, false, subNOOBJ⟩] }
    let g := { base with ops := [(3, x)], ctr := [1, 0, 0, 0, 0, 0] }
    (msG (.loadReturn 0 3) g).gang 0 = some g ∧ g.retired = false ∧ g.hm = false ∧ g.ops.get 3 = some x ∧ g.headOf 0 = some (3, x) ∧ x.cls = 0
    ∧ x.code = 0 ∧ (∀ a ∈ x.accs, a.err < 256 ∧ a.bad = false) ∧ ({ g with ops := g.ops.erase 3 } : Gang).headOf 0 = none := by decide
/-- 1 + 2^-24 is inexact, with every exception enabled, for one lane and for the uniform form. -/
theorem wit_FloatAndControlTrap_fpx : let g := { ((((base.setV 46 31 0x3F800000).setV 45 31 0x33800000).setU 30 0x3F800000).setU 29 0x33800000) with fpctl := 0xFFFFFFFF }
    let x : RegOp := ⟨{ Modx.none with mreg := 1, men := false }, 0, 47, 46, 45⟩
    let y : RegOp := ⟨Modx.none, 0, 31, 30, 29⟩
    Issuing (st g) iss g frag0 ∧ Clear (st g) iss g [47, 46, 45] [] ∧ Clear (st g) iss g [] [31, 30, 29]
    ∧ regs (isF64 0) (frag0.vr 47) = [47] ∧ regs (isF64 0) (frag0.ur 31) = [31]
    ∧ fpxRaised g.fpctl (orAll ((laneList (g.act frag0 x.m)).map (fun l =>
        (vfLane 0 (fun fm a b _ => fadd fm (g.rm x.m) x.m.sat false a b) (g.vw false 46 l) (g.vw false 45 l) 0).2))) = true
    ∧ fpxRaised g.fpctl (fadd f32 (g.rm y.m) y.m.sat false (g.uw false 30) (g.uw false 29)).2 = true
    ∧ fpxRaised g.fpctl (fmul f32 (g.rm y.m) y.m.sat 0x7F800000 0).2 = true := by
  refine ⟨⟨rfl, rfl, rfl⟩, ?_, ?_, by decide, by decide, by decide, by decide, by decide⟩ <;> exact clear_of _ _ _ _ _ rfl (by decide) (by decide)
/-- Slices with sixteen entries on their stacks, divided by m1. -/
theorem wit_FloatAndControlTrap_stack : let g := { base.setM 1 0x11111111 with slices := List.replicate 8 ⟨0x1000, 15, List.replicate 16 ⟨0, 0, 0⟩⟩ }
    Issuing (st g) iss g frag0 ∧ Clear (st g) iss g [] []
    ∧ let a := g.sliceActive 7 (g.slice 7)
      bit frag0.slices 7 = true ∧ a &&& fld (g.mask frag0 1) (4 * 7) 4 ≠ 0 ∧ andNot a (a &&& fld (g.mask frag0 1) (4 * 7) 4) ≠ 0
      ∧ 16 ≤ (g.slice 7).stk.length :=
  ⟨⟨rfl, rfl, rfl⟩, clear_base _ _ rfl (by decide), by decide⟩
/-- A fragment that waits at the same mask with another window, and one that waits at another mask; an address that is no bundle's. -/
theorem wit_FloatAndControlTrap_regang : let f : Frag := { frag0 with slices := 15 }
    (∀ p ∈ [(255, 1), (240, 0)], let g := { base with frags := [(0, f), (1, { frag0 with slices := 240, xv := p.2, wait := .regang p.1 0x1004 })] }
      Issuing (st g) iss g f ∧ andNot (g.fragSlices f) 255 = 0 ∧ (g.frags.map (·.1)).Nodup
      ∧ (1, { frag0 with slices := 240, xv := p.2, wait := .regang p.1 0x1004 }) ∈ g.regangFrags 255)
    ∧ (∀ g ∈ [{ base with frags := [(0, f)] }, base.setU 28 0x2001], Clear (st g) iss g [] [] ∧ Clear (st g) iss g [] [28, 29])
    ∧ (base.setU 28 0x2001).up 28 % 4 ≠ 0 := by
  refine ⟨?_, ?_, by decide⟩
  · intro p hp
    fin_cases hp <;> exact ⟨⟨rfl, rfl, rfl⟩, by decide⟩
  · intro g hg
    fin_cases hg <;> exact ⟨clear_base _ _ rfl (by decide), clear_base _ _ rfl (by decide)⟩
/-- SADD as the first instruction after reset; a word of a reserved opcode there. -/
def sFetch (w : Nat) : State := State.reset.withFetchWord 32 w
theorem wit_StepRunsDecodedInstruction_message : let s : State := { State.reset with pending := [.clockAdjust] }
    s.tick.pending = [.clockAdjust] ∧ s.host.off = false ∧ s.host.booted = true ∧ s.host.idle = 0 := by decide
theorem wit_StepRunsDecodedInstruction : ∀ w ∈ [0b001001_000011_000100_000101_00_000000, 0b111110 * 2 ^ 26], let s := sFetch w
    s.tick.pending = [] ∧ s.host.off = false ∧ s.host.booted = true ∧ s.tick.pick = some (0, 0) ∧ ((s.tick.gang 0).bind (fun g => g.frags.get 0)).isSome = true
    ∧ (s.tick.gang 0).any (fun g => (match s.tick.fetchWords 0 (s.tick.space g).1 5 (g.pcOf ((g.frags.get 0).getD frag0)) [] with
        | .ok ws => (match decode ws with
          | .ok b => decide (b.instr = .sadd ⟨Modx.none, 0, 3, 4, 5⟩) && !g.interlocked ((g.frags.get 0).getD frag0) b.instr
              && (List.range 8).all (fun n => !(g.slice n).atRc (g.pcOf ((g.frags.get 0).getD frag0)))
          | .error _ => decide (w = 0b111110 * 2 ^ 26) && !g.retired && !g.hm)
        | .error _ => false)) = true := by decide +kernel
theorem wit_MemoryStaysCanonical : (State.reset).MemOk ∧ (sFetch 0).MemOk := by
  refine ⟨?_, ?_⟩ <;> (unfold State.MemOk; decide +kernel)
/-- The state after reset, and one with a gang in its handler. -/
theorem wit_StateStaysWellFormed : StateOk State.reset ∧ StateOk (st { base with hm := true, shadow := some ⟨base.slices, [(0, frag0)], [(0, 0x3000)]⟩ }) := by
  refine ⟨⟨?_, ?_, ?_, ?_, ?_⟩, ⟨?_, ?_, ?_, ?_, ?_⟩⟩ <;> decide
theorem wit_DecodeInvertsEncode : (Instr.sadd ⟨Modx.none, 1, 63, 62, 61⟩).check = none ∧ (encode (.sadd ⟨Modx.none, 1, 63, 62, 61⟩)).isSome = true := by
  decide
theorem wit_StepsTakeOneCycle : ∃ t, step State.reset = .next t := ⟨_, rfl⟩

set_option maxRecDepth 1000000

/-! ### The state store on a pool of object 16 -/

/-- The bytes of the entry of object 16 in the object table at 0, of its pool of one frame of 4 096 bytes, whose reference count is `ref`, and of
slots of the table at 0x200000. -/
def poolMem (ref : BitVec 8) (slots : Mem) : Mem :=
  [(4101, 1), (4106, 1), (4117, 1), (4160, 16), (4162, 16), (0x100001, 16), (0x100004, 1), (0x100040, ref)] ++ slots
/-- The record of slot n, open on the pool with 16 frames, NEW 0 and its entries. -/
def slotMem (n : Nat) (tags : List (BitVec 8)) : Mem :=
  let a := 0x200000 + 256 * n
  [(a + 5, 1), (a + 8, 7), (a + 12, 3), (a + 14, 16), (a + 17, BitVec.ofNat 8 tags.length)].filter (fun c => c.2 != 0)
    ++ (tags.zipIdx.take 1 ++ (tags.zipIdx.drop 1).reverse).map (fun t => (a + 32 + 8 * ((16 - t.2) % 16), t.1))
theorem poolMem_entry : (poolMem 1 []).take 5 = Mem.store [] (256 * 16) 256 objEntry := by decide +kernel
theorem slotMem_record : slotMem 65535 [5, 4] = Mem.store [] (0x200000 + 256 * 65535) 256 (⟨16 * 2 ^ 36, 7, 3, 16, 0, [(5, 0), (4, 0)]⟩ : Slot).bytes := by
  decide +kernel
/-- The translations of the object are cached, its lines have been written, and no request is counted. -/
def sPool (x : Op) (ref : BitVec 8) (slots : Mem) : State := { msG (.stateStoreOp 0 9) (gOp 9 x [0, 0, 0, 0, 0, 1]) with
  dcb := { Dcb.reset with otb := 10, sstb := 0x200000, migctl := 0 }, mem := poolMem ref slots
  lmeta := (List.range 512).map (fun j =>
    (0x2000 + j, ⟨0, false, chkOf (if j = 0 then 4096 + 2 ^ 32 + ref.toNat * 256 ^ 64 else 0), true, State.reset.keyTag 0⟩))
  fab := { Fab.reset with loc := [⟨16, 0, 0, false, false⟩], otc := (List.range 8).map (fun c => ⟨c, 16, 16, objEntry⟩) } }
def opSS (w : Instr) (d : List Nat) : Op := { Op.blank w 0 0x1000 5 0 false with phase := 2, desc := d, res := if w = .sssv xCmd then [] else [28, 29] }

/-- A part of a command that has left the machine as it was, but for what it notes of the lines it met. -/
structure Still (s : State) (x : EngX) : Prop where
  st : x.st = s
  key : x.key = 0
  ok : x.ok = true
  needs : x.needs = []
  outs : x.outs = []
  cover : ∀ q ∈ x.cover, q.2.2 = false
/-- A word of object 16 here that reads zero and is left as it is by a write of zero. -/
structure ZeroWord (s : State) (off : Nat) : Prop where
  owned : (s.otcHit 16 off).isSome = true ∧ s.oteFor 16 off = some (16, objEntry) ∧ s.ownerChk 16 off = none
  read : s.lineNow (objLine 16 (off / 128 * 128) 0) = (0, false)
  write : s.lineSet (objLine 16 (off / 128 * 128) 0) 0 false = s
/-- Nothing of the state stands in the way of the command. -/
structure Calm (s : State) : Prop where
  look : s.lookHere 16 = (s, true)
  gang : ∃ g, s.gang 0 = some g
  idle : s.fab.reqs = [] ∧ s.coh.retiring = none ∧ s.coh.chkBad = [] ∧ s.fab.migs = [] ∧ bit s.dcb.migctl 0 = false

theorem fields_obj (o : Nat) (h : o < 2 ^ 36) : ¬ (128 ≤ fld (16 * 2 ^ 36 + o) 56 8 ∨ fld (16 * 2 ^ 36 + o) 36 20 = 0) := by
  have h1 : fld (16 * 2 ^ 36 + o) 56 8 = 0 := by simp only [fld]; omega
  have h2 : fld (16 * 2 ^ 36 + o) 36 20 = 16 := by simp only [fld]; omega
  rw [h1, h2]
  decide
theorem engAddr_obj (b : Nat) (d : Int) (off : Nat) (h : (b : Int) + d = off) (hb : b < 2 ^ 36) (ho : off < 2 ^ 36) :
    engAddr 0 (16 * 2 ^ 36 + b) d = (16 * 2 ^ 36 + off, none) := by
  have h1 := fields_obj b hb
  have h2 : (16 * 2 ^ 36 + b) % 2 ^ 36 = b := by omega
  have h3 : (16 * 2 ^ 36 + b) / 2 ^ 36 * 2 ^ 36 = 16 * 2 ^ 36 := by omega
  have h4 : wrapN 36 (off : Int) = off := by simp only [wrapN]; omega
  have h5 : ¬ ((off : Int) < 0 ∨ ((2 ^ 36 : Nat) : Int) ≤ off) := by omega
  simp only [engAddr, formAddr, h1, h2, h3, h, h4, h5, true_or, if_true, if_false]
theorem place_of (s : State) (hs : Calm s) (off kind : Nat) (ho : off < 2 ^ 36) (h : ZeroWord s off) :
    s.engPlace 0 0 (16 * 2 ^ 36 + off) kind = (s, .line (objLine 16 (off / 128 * 128) 0) (off % 128)) := by
  obtain ⟨g, hg⟩ := hs.gang
  have h1 := fields_obj off ho
  have h2 : (16 * 2 ^ 36 + off) / 2 ^ 36 = 16 := by omega
  have h3 : (16 * 2 ^ 36 + off) % 2 ^ 36 = off := by omega
  have h4 : objLine 16 off (oteKey objEntry) = objLine 16 (off / 128 * 128) 0 := by
    have : oteKey objEntry = 0 := by decide +kernel
    have h5 : off / 128 * 128 / 128 = off / 128 := by omega
    simp only [objLine, this, h5]
  have h5 : s.otcFill 16 off = s := by simp only [State.otcFill, h.owned.1, if_true]
  simp only [State.engPlace, hg, h1, h2, h3, hs.look, h5, State.objLineOf, h.owned.2.1, h4, hs.idle.2.1, State.lineAsked, hs.idle.1, h.owned.2.2,
    if_false, Bool.not_true, List.any_nil, Bool.and_false, reduceCtorEq, or_self, Bool.false_eq_true]
theorem line_of (s : State) (hs : Calm s) (x : EngX) (off : Nat) (h : ZeroWord s off) :
    x.line s (objLine 16 (off / 128 * 128) 0)
      = ({ x with st := s, seen := if x.seen.contains (objLine 16 (off / 128 * 128) 0) then x.seen else x.seen ++ [objLine 16 (off / 128 * 128) 0] }, 0, false) := by
  have hc : ∀ l, s.countLocal l = s := fun l => by
    unfold State.countLocal
    split
    · rfl
    · have : s.countReq l.ident l.off s.devNum = (s, none) := by
        unfold State.countReq
        cases s.oteFind l.ident with
        | none => rfl
        | some p => simp only [hs.idle.2.2.2.2, Bool.not_false, true_or, if_true]
      simp only [this]
  simp only [EngX.line, hc, ite_self, h.read, State.chkReceipt, hs.idle.2.2.1, List.contains_nil, Bool.false_eq_true, if_false, State.memMet,
    Bool.not_false, Bool.true_or, if_true]
theorem read_zero (s : State) (hs : Calm s) (x : EngX) (hx : Still s x) (b : Nat) (d : Int) (off : Nat) (h1 : (b : Int) + d = off) (hb : b < 2 ^ 36)
    (ho : off < 2 ^ 36) (h : ZeroWord s off) : ∃ y, x.read 0 4 (16 * 2 ^ 36 + b) d = (y, 0, false) ∧ Still s y := by
  refine ⟨{ x with st := s, seen := if x.seen.contains (objLine 16 (off / 128 * 128) 0) then x.seen else x.seen ++ [objLine 16 (off / 128 * 128) 0] },
    ?_, ⟨rfl, hx.key, hx.ok, hx.needs, hx.outs, hx.cover⟩⟩
  simp only [EngX.read, hx.ok, Bool.not_true, Bool.false_eq_true, if_false, engAddr_obj b d off h1 hb ho, hx.key, hx.st, place_of s hs off 0 ho h,
    line_of s hs x off h, lineGet, Nat.zero_div, Nat.zero_mod]
theorem write_zero (s : State) (hs : Calm s) (x : EngX) (hx : Still s x) (b : Nat) (d : Int) (off : Nat) (h1 : (b : Int) + d = off) (hb : b < 2 ^ 36)
    (ho : off < 2 ^ 36) (h : ZeroWord s off) : Still s (x.write 0 4 (16 * 2 ^ 36 + b) d 0 false) := by
  have hp : ∀ o n, linePut 0 o n 0 = 0 := fun o n => by simp [linePut]
  have hc : ∀ l, ((x.cover.find? (fun q => q.1 == l)).elim (0, false) (·.2)).2 = false := fun l => by
    cases hf : x.cover.find? (fun q => q.1 == l) with
    | none => rfl
    | some q => exact hx.cover q (List.mem_of_find?_eq_some hf)
  have hn : ∀ l, s.noteWrite l = s := fun l => by
    unfold State.noteWrite
    split
    · rfl
    · simp [hs.idle.2.2.2.1, Tab.get]
  simp only [EngX.write, hx.ok, Bool.not_true, Bool.false_eq_true, if_false, engAddr_obj b d off h1 hb ho, hx.key, hx.st, place_of s hs off 1 ho h,
    line_of s hs x off h, EngX.put, hc, hn, hp, Bool.or_self, Bool.false_and]
  refine ⟨h.write, rfl, hx.ok, hx.needs, hx.outs, ?_⟩
  intro q hq
  simp only [List.mem_cons, List.mem_filter] at hq
  rcases hq with rfl | ⟨hq, -⟩
  · rfl
  · exact hx.cover q hq
theorem move_zero (s : State) (hs : Calm s) (x : EngX) (hx : Still s x) (b c : Nat) (n : Nat)
    (hb' : b + n < 2 ^ 36) (hc' : c + n < 2 ^ 36) (a a' : Nat) (e e' : Int) (ha : (a : Int) + e = b) (ha' : (a' : Int) + e' = c) (hl : a < 2 ^ 36) (hl' : a' < 2 ^ 36)
    (h : ∀ j, j < n / 4 → ZeroWord s (b + 4 * j) ∧ ZeroWord s (c + 4 * j)) :
    Still s (x.move 0 (16 * 2 ^ 36 + a) e 0 (16 * 2 ^ 36 + a') e' n) := by
  unfold EngX.move
  have h' : ∀ j ∈ List.range (n / 4), j < n / 4 := fun j hj => List.mem_range.mp hj
  generalize List.range (n / 4) = js at h'
  induction js generalizing x with
  | nil => exact hx
  | cons j js ih =>
    rw [List.foldl_cons]
    have hj := h' j (by simp)
    obtain ⟨y, hy, hy'⟩ := read_zero s hs x hx a (e + 4 * j) (b + 4 * j) (by push_cast; omega) hl (by omega) (h j hj).1
    simp only [hy]
    exact ih _ (write_zero s hs y hy' a' (e' + 4 * j) (c + 4 * j) (by push_cast; omega) hl' (by omega) (h j hj).2) fun j hj => h' j (by simp [hj])
theorem set_get {α : Type} (t : Tab α) (k : Nat) (v : α) (h : t.get k = some v) : t.set k v = t := by
  induction t with
  | nil => simp [Tab.get] at h
  | cons p t ih =>
    obtain ⟨k', v'⟩ := p
    by_cases hk : k' = k
    · simp_all [Tab.get, Tab.set]
    · have : Tab.get ((k', v') :: t) k = Tab.get t k := by simp [Tab.get, hk]
      simp [Tab.set, hk, ih (this ▸ h)]
theorem get_range {α : Type} (f : Nat → α) (n a q : Nat) (h : q < n) : Tab.get ((List.range n).map (fun j => (a + j, f j))) (a + q) = some (f q) := by
  induction n with
  | zero => omega
  | succ n ih =>
    rw [List.range_succ, List.map_append]
    simp only [Tab.get, List.find?_append, List.map_cons, List.map_nil] at ih ⊢
    by_cases hq : q < n
    · obtain ⟨p, hp, hp'⟩ := Option.map_eq_some_iff.mp (ih hq)
      simp [hp, hp']
    · obtain rfl : q = n := by omega
      have : ((List.range q).map (fun j => (a + j, f j))).find? (fun p => p.1 == a + q) = none := by
        simp only [List.find?_eq_none, List.mem_map, List.mem_range]
        rintro _ ⟨j, hj, rfl⟩
        simp; omega
      simp [this]
/-- A write of zero to a line whose bytes and metadata stand so already. -/
theorem lineSet_same (s : State) (l : LineId) (la : Nat) (h : s.coh.lines = [] ∧ s.coh.dir = [] ∧ s.coh.chkBad = []) (hb : s.backing l = some la)
    (hr : s.regionOf (la * 128) = none) (hm : Mem.store s.mem (la * 128) 128 0 = s.mem)
    (hk : s.lmeta.get la = some ⟨(s.lm la).stamp, false, chkOf 0, true, s.keyTag l.key⟩) (hw : s.wakeNaps = s) : s.lineSet l 0 false = s := by
  have h1 : ({ s with coh := { s.coh with lines := s.coh.lines.filter (fun x => x.line != l) } } : State) = s := by rw [h.1, List.filter_nil, ← h.1]
  have h2 : ∀ e : DirEnt, e.ps = false → e.hlo = 0 → e.hhi = 0 → s.putDir { e with pres := 0, own := none } = s := fun e p q r => by
    simp only [State.putDir, p, q, r, h.2.1, List.filter_nil, and_self, Bool.not_false, if_pos]
    simp only [← h.2.1]
  have h3 : s.dirOf l = ⟨l, 0, none, false, 0, 0⟩ := by simp [State.dirOf, h.2.1]
  have h4 : s.memPut (s.homeDie l) la l.key 0 false = s := by
    simp only [State.memPut, hr, State.memStore, hm, set_get _ _ _ hk]
  unfold State.lineSet
  simp only [h1]
  rw [h2 _ (by rw [h3]) (by rw [h3]) (by rw [h3])]
  have h5 : s.toMem (s.homeDie l) l 0 false = s := by
    simp only [State.toMem, hb, State.chkReceipt, h.2.2, List.contains_nil, Bool.false_eq_true, if_false, h4]
  rw [h5, hw]
theorem look_same (s : State) (e : LocEnt) (i o : Nat) (h : s.fab.loc = [e] ∧ e.ident = 16 ∧ e.dev = s.devNum ∧ e.mgen = oteMgen o)
    (h1 : s.objHere 16 = true) (h2 : s.oteFind 16 = some (i, o)) : s.lookHere 16 = (s, true) := by
  have hg : s.locGet 16 = some e := by simp [State.locGet, h.1, h.2.1]
  have ht : s.locTouch 16 = s := by
    simp only [State.locTouch, hg, h.1, List.filter_cons, List.filter_nil, h.2.1, bne_self_eq_false, Bool.false_eq_true, if_false, List.nil_append]
    rw [← h.1]
  have hi : ∀ r p, s.locInstall 16 s.devNum (oteMgen o) r p = s := fun r p => by
    have : newerGen (oteMgen o) (oteMgen o) = false := by simp [newerGen]
    simp [State.locInstall, hg, h.2.2.2, this]
  simp only [State.lookHere, hg, ht, h.2.2.1, h1, h2, hi, beq_self_eq_true, Bool.and_self, if_true]
def xSave : Op := opSS (.sssv xCmd) [65535, 5, 0x8000, 0x100]
/-- The slot has one entry, of tag 5. -/
def sSS (x : Op) : State := sPool x 1 (slotMem 65535 [5])
def sSave : State := sSS xSave
theorem sSave_table : sSave.objHere 16 = true ∧ sSave.oteFind 16 = some (16, objEntry) ∧ sSave.devNum = 0 ∧ 0 = oteMgen objEntry
    ∧ bit sSave.dcb.migctl 0 = false := by decide +kernel
theorem gangs_frame (s : State) (gs : Tab Gang) (l : LineId) (i o a : Nat) : let t : State := { s with gangs := gs }
    t.otcHit i o = s.otcHit i o ∧ t.oteFor i o = s.oteFor i o ∧ t.ownerChk i o = s.ownerChk i o ∧ t.backing l = s.backing l
    ∧ t.regionOf a = s.regionOf a ∧ t.lineNow l = s.lineNow l ∧ t.objHere i = s.objHere i ∧ t.oteFind i = s.oteFind i := by
  refine ⟨rfl, rfl, rfl, rfl, rfl, rfl, rfl, rfl⟩
theorem sSS_frame (x : Op) (l : LineId) (i o a : Nat) : (sSS x).otcHit i o = sSave.otcHit i o ∧ (sSS x).oteFor i o = sSave.oteFor i o
    ∧ (sSS x).ownerChk i o = sSave.ownerChk i o ∧ (sSS x).backing l = sSave.backing l ∧ (sSS x).regionOf a = sSave.regionOf a
    ∧ (sSS x).lineNow l = sSave.lineNow l ∧ (sSS x).objHere i = sSave.objHere i ∧ (sSS x).oteFind i = sSave.oteFind i :=
  gangs_frame sSave [(0, gOp 9 x [0, 0, 0, 0, 0, 1])] l i o a
theorem sSS_calm (x : Op) : Calm (sSS x) :=
  ⟨look_same (sSS x) _ 16 objEntry ⟨rfl, rfl, sSave_table.2.2.1.symm, sSave_table.2.2.2.1⟩
    ((sSS_frame x (objLine 0 0 0) 16 0 0).2.2.2.2.2.2.1.trans sSave_table.1) ((sSS_frame x (objLine 0 0 0) 16 0 0).2.2.2.2.2.2.2.trans sSave_table.2.1), ⟨_, rfl⟩, rfl, rfl, rfl, rfl,
    sSave_table.2.2.2.2⟩
/-- The words of the frame, and of as many bytes from 0x8000 on. -/
def frameWord (j : Nat) : Nat := if j < 1024 then 4096 + 4 * j else 0x7000 + 4 * j
theorem sSave_owned : ∀ j, j < 2048 → (sSave.otcHit 16 (frameWord j)).isSome = true ∧ sSave.oteFor 16 (frameWord j) = some (16, objEntry)
    ∧ sSave.ownerChk 16 (frameWord j) = none := by decide +kernel
theorem sSave_lines : ∀ j, j < 64 → let q := if j < 32 then 32 + j else 224 + j
    let l := objLine 16 (128 * q) 0
    sSave.lineNow l = (0, false) ∧ sSave.backing l = some (0x2000 + q) ∧ sSave.regionOf ((0x2000 + q) * 128) = none
    ∧ Mem.store sSave.mem ((0x2000 + q) * 128) 128 0 = sSave.mem := by decide +kernel

theorem sSS_lmeta (x : Op) : (sSS x).lmeta = (List.range 512).map (fun j =>
    (0x2000 + j, ⟨0, false, chkOf (if j = 0 then 4096 + 2 ^ 32 + (1 : BitVec 8).toNat * 256 ^ 64 else 0), true, State.reset.keyTag 0⟩)) := by rfl
theorem sSS_zero (x : Op) (j : Nat) (h : j < 2048) : ZeroWord (sSS x) (frameWord j) := by
  have hq : frameWord j / 128 * 128 = 128 * (if j / 32 < 32 then 32 + j / 32 else 224 + j / 32) := by
    unfold frameWord; split <;> split <;> omega
  have hl := sSave_lines (j / 32) (by omega)
  dsimp only at hl
  rw [← hq] at hl
  have hf := sSS_frame x (objLine 16 (frameWord j / 128 * 128) 0) 16 (frameWord j) ((0x2000 + if j / 32 < 32 then 32 + j / 32 else 224 + j / 32) * 128)
  have ho := sSave_owned j h
  rw [← hf.1, ← hf.2.1, ← hf.2.2.1] at ho
  rw [← hf.2.2.2.1, ← hf.2.2.2.2.1, ← hf.2.2.2.2.2.1] at hl
  refine ⟨ho, hl.1, lineSet_same _ _ _ ⟨rfl, rfl, rfl⟩ hl.2.1 hl.2.2.1 hl.2.2.2 ?_ rfl⟩
  have hg : ∀ q, q ≠ 0 → q < 512 → (sSS x).lmeta.get (0x2000 + q) = some ⟨0, false, chkOf 0, true, 1⟩ := fun q h0 h1 => by
    rw [sSS_lmeta, get_range _ _ _ _ h1, if_neg h0]
    rfl
  have h2 := hg (if j / 32 < 32 then 32 + j / 32 else 224 + j / 32) (by split <;> omega) (by split <;> omega)
  rw [h2, State.lm, h2]
  rfl

/-- SSSV of tag 5 in place of the one entry, which has tag 5 and the pool's one frame: until the copy begins the machine is as it was, the
frame's count given up and taken again; the copy of zeros leaves it so. -/
def ssPool : Pool := ⟨16 * 2 ^ 36, 4096, 1⟩
def xSaved : EngX := ((((sSave.engX 0 xSave.fetched).pool (16 * 2 ^ 36)).1.findFrame ssPool [(5, 0)]).1.unrefAll ssPool [(5, 0)]).setRef ssPool 0 1
theorem xSaved_st : xSaved.st = sSave := by
  rfl
theorem xSaved_rest : xSaved.key = 0 ∧ xSaved.ok = true ∧ xSaved.needs = [] ∧ xSaved.outs = [] ∧ xSaved.cover.all (fun q => !q.2.2) = true := by decide +kernel
theorem xSaved_still : Still sSave xSaved := by
  have h := xSaved_rest
  simp only [List.all_eq_true, Bool.not_eq_true'] at h
  exact ⟨xSaved_st, h.1, h.2.1, h.2.2.1, h.2.2.2.1, h.2.2.2.2⟩
/-- The premises that every state-store operation has, of slot 65535 with its pool read. -/
def ssReady (s : State) (x : Op) : Bool :=
  s.msg == some (.stateStoreOp 0 9) && s.isQuiet && s.gang 0 == some (gOp 9 x [0, 0, 0, 0, 0, 1]) && x.phase == 2 && !s.clsEarlier 0 9 5
    && !s.ssBusy 0 9 && x.cls == 5 && x.bin == 0 && x.code == 0 && !s.cmdReqs 0 9 && fld (x.desc.getD 0 0) 0 16 == 65535 && !(s.slotBytes 65535).2
    && (s.regionOf (s.slotAddr 65535)).isNone && (s.regionOf (s.slotAddr 65535 + 128)).isNone
theorem wit_StateStorePerformed_save : ssReady sSave xSave = true ∧ slotBad (sSave.slotBytes 65535).1 = false
    ∧ (slotOfBytes (sSave.slotBytes 65535).1).ents = [(5, 0)] ∧ (slotOfBytes (sSave.slotBytes 65535).1).pool = 16 * 2 ^ 36
    ∧ (let P := (sSave.engX 0 xSave.fetched).pool (16 * 2 ^ 36)
       (P.1.ok = true ∧ P.1.needs = [] ∧ P.1.outs = []) ∧ P.2 = ssPool
       ∧ (let F := P.1.findFrame ssPool [(5, 0)]
          F.2 = some 0 ∧ F.1.ok = true ∧ F.1.needs = [] ∧ F.1.outs = []))
    ∧ sSave.objInflight 16 = false := by decide +kernel
/-- The copy from .O bytes at 0x8000. -/
theorem wit_StateStorePerformed_save_copy :
    let Y := xSaved.move 0 (0x8000 + 2 ^ 32 * 0x100) 0 0 ssPool.ptr ((ssPool.h + 0 * ssPool.fsz : Nat) : Int) ssPool.fsz
    xSaved.ok = true ∧ Y.Local ∧ Y.st = sSave := by
  have h := move_zero sSave (sSS_calm xSave) xSaved xSaved_still 0x8000 4096 4096 (by decide) (by decide) 0x8000 0 0 4096 (by decide) (by decide)
    (by decide) (by decide) fun j hj => ⟨by have := sSS_zero xSave (1024 + j) (by omega); rwa [show frameWord (1024 + j) = 0x8000 + 4 * j by unfold frameWord; split <;> omega] at this,
      by have := sSS_zero xSave j (by omega); rwa [show frameWord j = 4096 + 4 * j by unfold frameWord; split <;> omega] at this⟩
  exact ⟨xSaved_rest.2.1, ⟨h.ok, h.needs, h.outs⟩, h.st⟩
/-- SSLD of the entry to .O bytes at 0x8000. -/
def xLoad : Op := opSS (.ssld xCmd) [65535, 5, 0x8000, 0x100]
def sLoad : State := sSS xLoad
def xLoaded : EngX := ((sLoad.engX 0 xLoad.fetched).pool (16 * 2 ^ 36)).1
set_option maxHeartbeats 4000000 in
theorem xLoaded_st : xLoaded.st = sLoad := by
  rfl
theorem xLoaded_rest : xLoaded.key = 0 ∧ xLoaded.ok = true ∧ xLoaded.needs = [] ∧ xLoaded.outs = [] ∧ xLoaded.cover.all (fun q => !q.2.2) = true := by decide +kernel
theorem wit_StateStorePerformed_load : ssReady sLoad xLoad = true ∧ xLoad.res ≠ [] ∧ (xLoaded.st.lookHere 16).2 = true
    ∧ ((sLoad.engX 0 xLoad.fetched).pool (16 * 2 ^ 36)).2 = ssPool ∧ [((5 : Nat), (0 : Nat))].find? (fun e => decide (e.1 ≤ 5)) = some (5, 0) := by decide +kernel
theorem xLoaded_move : (xLoaded.move 0 (16 * 2 ^ 36 + 0) 4096 0 (16 * 2 ^ 36 + 0x8000) 0 4096).Local := by
  have hr := xLoaded_rest
  simp only [List.all_eq_true, Bool.not_eq_true'] at hr
  have hs : Still sLoad xLoaded := ⟨xLoaded_st, hr.1, hr.2.1, hr.2.2.1, hr.2.2.2.1, hr.2.2.2.2⟩
  have h := move_zero sLoad (sSS_calm xLoad) xLoaded hs 4096 0x8000 4096 (by decide) (by decide) 0 0x8000 4096 0 (by decide) (by decide)
    (by decide) (by decide) fun j hj => ⟨by have := sSS_zero xLoad j (by omega); rwa [show frameWord j = 4096 + 4 * j by unfold frameWord; split <;> omega] at this,
      by have := sSS_zero xLoad (1024 + j) (by omega); rwa [show frameWord (1024 + j) = 0x8000 + 4 * j by unfold frameWord; split <;> omega] at this⟩
  exact ⟨h.ok, h.needs, h.outs⟩
theorem ssldCopy_local (d : Nat → Nat) (x : EngX) (p : Pool) (e : Nat × Nat) (a k c n : Nat) (f : Int) (h : (x.move 0 a f k c 0 n).Local)
    (ha : p.ptr = a) (hf : ((p.h + e.2 * p.fsz : Nat) : Int) = f) (hk : fld (d 0) 28 4 = k) (hc : d 2 + 2 ^ 32 * d 3 = c) (hn : p.fsz = n) :
    (ssldCopy d x p e).Local := by
  subst ha hf hk hc hn
  unfold ssldCopy
  simp only [h.1, if_true]
  exact h
theorem wit_StateStorePerformed_load_copy : (ssldCopy (fun n => xLoad.desc.getD n 0) xLoaded ssPool (5, 0)).Local :=
  ssldCopy_local _ _ _ _ _ _ _ _ _ xLoaded_move (by decide +kernel) (by decide +kernel) (by decide +kernel) (by decide +kernel) (by decide +kernel)
/-- A part that has gone on here, and after which slot n's record lies where it did, outside every region. -/
def plainAt (x : EngX) (n : Nat) : Bool :=
  x.ok && x.needs.isEmpty && x.outs.isEmpty && (x.st.regionOf (x.st.slotAddr n)).isNone && (x.st.regionOf (x.st.slotAddr n + 128)).isNone
    && x.st.slotAddr n == 0x200000 + 256 * n
/-- A closed slot, whose command meets the premises of its own. -/
def closedAt (x : Op) : Bool :=
  let s := sPool x 1 []
  ssReady s x && byteField (s.slotBytes 65535).1 14 1 == 0 && plainAt ((s.engX 0 x.fetched).pool (16 * 2 ^ 36)).1 65535
/-- An open slot with these entries, all of the pool's one frame; the release of some is performed here. -/
def openAt (x : Op) (slots : Mem) (ents rel : List (Nat × Nat)) : Bool :=
  let s := sPool x 1 slots
  let v := (s.slotBytes 65535).1
  let sl := slotOfBytes v
  let P := (s.engX 0 x.fetched).pool (16 * 2 ^ 36)
  ssReady s x && byteField v 14 1 != 0 && !slotBad v && sl.pool == 16 * 2 ^ 36 && sl.ents == ents && P.2 == ssPool && plainAt P.1 65535
    && plainAt (P.1.unrefAll ssPool rel) 65535
/-- SSOPN with no frame, and with 16 on the pool, of a closed slot, and of one open without an entry or with two. -/
theorem wit_StateStorePerformed_closed : closedAt (opSS (.ssopn xCmd) [65535, 0, 0, 0x100, 9, 0xFFFF]) = true
    ∧ closedAt (opSS (.ssopn xCmd) [65535, 16, 0, 0x100, 9, 0xFFFF]) = true := by decide +kernel
theorem wit_StateStorePerformed_open : openAt (opSS (.ssopn xCmd) [65535, 0, 0, 0x100, 9, 3]) (slotMem 65535 []) [] [] = true
    ∧ openAt (opSS (.ssopn xCmd) [65535, 1, 0, 0x100, 9, 3]) (slotMem 65535 []) [] [] = true := by decide +kernel
theorem wit_StateStorePerformed_shut : openAt (opSS (.ssopn xCmd) [65535, 0, 0, 0x100, 9, 3]) (slotMem 65535 [7, 5]) [(7, 0), (5, 0)] [(7, 0), (5, 0)] = true := by
  decide +kernel
/-- Of two entries, of tags 7 and 5: SSRBK of tag 6, which gives the newer up; SSQRY, SSLD and SSRBK of tag 4, which is at or below none. -/
theorem wit_StateStorePerformed_back : openAt (opSS (.ssrbk xCmd) [65535, 6]) (slotMem 65535 [7, 5]) [(7, 0), (5, 0)] [(7, 0)] = true := by decide +kernel
theorem wit_StateStorePerformed_none : openAt (opSS (.ssrbk xCmd) [65535, 4]) (slotMem 65535 [7, 5]) [(7, 0), (5, 0)] [] = true
    ∧ openAt (opSS (.ssqry xCmd) [65535, 4]) (slotMem 65535 [7, 5]) [(7, 0), (5, 0)] [] = true
    ∧ openAt (opSS (.ssld xCmd) [65535, 4]) (slotMem 65535 [7, 5]) [(7, 0), (5, 0)] [] = true
    ∧ [((7 : Nat), (0 : Nat)), (5, 0)].find? (fun e => decide (e.1 ≤ 4)) = none ∧ [((7 : Nat), (0 : Nat)), (5, 0)].find? (fun e => decide (e.1 ≤ 6)) = some (5, 0) := by
  decide +kernel
/-- SSSV of tag 8 to a pool without a free frame. -/
theorem wit_StateStorePerformed_full : openAt (opSS (.sssv xCmd) [65535, 8]) (slotMem 65535 [7, 5]) [(7, 0), (5, 0)] [] = true
    ∧ (let x := opSS (.sssv xCmd) [65535, 8]
       let F := (((sPool x 1 (slotMem 65535 [7, 5])).engX 0 x.fetched).pool (16 * 2 ^ 36)).1.findFrame ssPool []
       F.2 == none && plainAt F.1 65535) = true := by decide +kernel
/-- SSFRK of the entries of tags at most 6, to a slot with one entry. -/
theorem wit_StateStorePerformed_fork : let x := opSS (.ssfrk xCmd) [65535, 65534, 6]
    let m := slotMem 65534 [9] ++ slotMem 65535 [7, 5]
    openAt x m [(7, 0), (5, 0)] [] = true
    ∧ (let R := (((sPool x 1 m).engX 0 x.fetched).pool (16 * 2 ^ 36)).1.slot 65534
       R.2 == some ⟨16 * 2 ^ 36, 7, 3, 16, 0, [(9, 0)]⟩ && plainAt R.1 65534 && plainAt ((R.1.unrefAll ssPool [(9, 0)]).upref ssPool 0) 65534) = true
    ∧ ([((7 : Nat), (0 : Nat)), (5, 0)].dropWhile (fun e => decide (6 < e.1))).take 16 = [(5, 0)] := by decide +kernel

end Sys2Proof.Tests
end

section
/-! SUPPORT. The integer, mask and move instructions of R278 to R295, R306 and R317: each is the step of a plan, and a step whose
plan has one effect leaves that effect and nothing else. -/

namespace Sys2Proof.Machine

/-! ### Registers and flags -/

theorem Gang.u_lt (g : Gang) (n : Nat) : g.u n < 2 ^ 32 := (g.sreg.get n).isLt

theorem Gang.uw_lt (g : Gang) (wide : Bool) (n : Nat) : g.uw wide n < 2 ^ (if wide then 64 else 32) := by
  have hlo := g.u_lt n
  have hhi := g.u_lt (n + 1)
  cases wide
  · simpa [Gang.uw] using hlo
  · simp only [Gang.uw, Gang.up, if_true]; omega

theorem Gang.v_eq_of_vreg_eq {g h : Gang} (he : g.vreg = h.vreg) (n l : Nat) : g.v n l = h.v n l := by rw [Gang.v, he, Gang.v]

theorem Gang.vw_eq_of_vreg_eq {g h : Gang} (he : g.vreg = h.vreg) (wide : Bool) (n l : Nat) : g.vw wide n l = h.vw wide n l := by
  simp only [Gang.vw, Gang.vp, Gang.v_eq_of_vreg_eq he]

/-- A condition as a uniform result: 1 or 0. -/
theorem wUni_ite_one_zero (c : Prop) [Decidable c] (d : Nat) : wUni false d (if c then 1 else 0) = [(d, if c then 1 else 0)] := by
  split <;> rfl

/-- No flags raise no FPX (R239). -/
@[simp] theorem fpxRaised_zero (fpctl : Nat) : fpxRaised fpctl 0 = false := by simp [fpxRaised]

theorem orAll_map_zero (ls : List Nat) : orAll (ls.map (fun _ => 0)) = 0 := by
  induction ls with
  | nil => rfl
  | cons _ _ ih => simpa [orAll] using ih

/-! ### What a plan does -/

section
variable {s : State} {i : Issue} {g : Gang} {f : Frag} {plan : Gang → Frag → Plan}

/-- A register instruction whose registers are within bounds, readable and not awaited goes on to its own causes, flags and
writes, with no lane left out. -/
theorem regStep_eq_applyStep (hi : Issuing s i g f)
    (hc : Clear s i g (plan g f).useV (plan g f).useU) : regStep s plan = s.applyStep i g (plan g f) 0 0 := by
  simp [regStep, withIssue_issuing hi, Gang.inBounds_fits g _ hc.fits, Gang.awaits_unawaited g _ hc.unawaited,
    Gang.badUniform_healthy g _ hc.healthy.badU hc.healthy.badM hc.healthy.badW, Gang.badLanes_healthy g _ hc.healthy.badV,
    State.aluScalar_healthy s i g _ hc.healthy, State.aluRetry_healthy s s i g _ hc.healthy rfl,
    State.aluLanes_healthy s i g _ hc.healthy]

/-- A register instruction that meets a cause raises it and writes nothing (R11). -/
theorem regStep_cause (hi : Issuing s i g f) (hc : Clear s i g (plan g f).useV (plan g f).useU) {c : Nat}
    (hz : (plan g f).cause = c) (h0 : c ≠ 0) (he : (plan g f).entries = []) :
    regStep s plan = .next (s.trap i c none) := by
  rw [regStep_eq_applyStep hi hc]
  simp [State.applyStep, hz, h0, he]

/-- A plan whose one effect is a uniform result. -/
theorem uniDone_of_plan (hi : Issuing s i g f) (hc : Clear s i g (plan g f).useV (plan g f).useU) {wide : Bool} {d v : Nat}
    {dead : Bool} (hu : (plan g f).wU = wUni wide d v) (hz : (plan g f).cause = 0 := by rfl)
    (hd : (plan g f).deadsrc = dead := by rfl) (hfl : (plan g f).flags = 0 := by rfl) (hv : (plan g f).wV = [] := by rfl)
    (hm : (plan g f).wM = [] := by rfl) : ∃ t, regStep s plan = .next t ∧ UniDone s t i g f wide d v 0 dead :=
  regStep_uni hi plan wide d v 0 dead hc hz (fpxRaised_zero _) hfl hv hu hm hd

/-- A plan whose one effect is a value for each lane of act. -/
theorem vecDone_of_plan (hi : Issuing s i g f) (hc : Clear s i g (plan g f).useV (plan g f).useU) {m : Modx} {wide : Bool}
    {d : Nat} {r : Nat → Nat} (hv : (plan g f).wV = wVec g f m wide d r) (hz : (plan g f).cause = 0 := by rfl)
    (hd : (plan g f).deadsrc = false := by rfl) (hfl : (plan g f).flags = 0 := by rfl) (hu : (plan g f).wU = [] := by rfl)
    (hm : (plan g f).wM = [] := by rfl) : ∃ t, regStep s plan = .next t ∧ VecDone s t i g f m wide d r 0 :=
  regStep_vec hi plan m wide d r 0 false hc hz (fpxRaised_zero _) hfl hv hu hm hd

/-- A plan whose one effect is a mask result and its flags. -/
theorem maskDone_of_plan (hi : Issuing s i g f) (hc : Clear s i g (plan g f).useV (plan g f).useU) {m : Modx} {md : Nat}
    {b : Nat → Bool} {flags : Nat} (hm : (plan g f).wM = [(md, maskWrite g f m md b)]) (hfl : (plan g f).flags = flags)
    (hx : fpxRaised g.fpctl flags = false) (hz : (plan g f).cause = 0 := by rfl) (hd : (plan g f).deadsrc = false := by rfl)
    (hv : (plan g f).wV = [] := by rfl) (hu : (plan g f).wU = [] := by rfl) :
    ∃ t, regStep s plan = .next t ∧ MaskDone s t i g f m md b flags :=
  regStep_mask hi plan m md b flags hc hz hx hfl hv hu hm hd

/-- A plan whose one effect is vector elements: they are written, and all else of the gang but its flow is as it was. -/
theorem writeV_of_plan (hi : Issuing s i g f) (hc : Clear s i g (plan g f).useV (plan g f).useU) {ws : List (Nat × Nat × Nat)}
    (hv : (plan g f).wV = ws) (hz : (plan g f).cause = 0 := by rfl) (hd : (plan g f).deadsrc = false := by rfl)
    (hfl : (plan g f).flags = 0 := by rfl) (hu : (plan g f).wU = [] := by rfl) (hm : (plan g f).wM = [] := by rfl) :
    ∃ t h, regStep s plan = .next t ∧ Passed s t i g f h ∧ h.vreg = (g.writeV ws).vreg
      ∧ g.SameButFlow { h with vreg := g.vreg } := by
  have hstep := regStep_clear hi plan hc hz (hfl ▸ fpxRaised_zero _)
  have hframe := Gang.writeV_frame ws g hc.healthy.badV
  have happly : (g.applyPlan (plan g f) 0).orFlags (plan g f).flags = g.writeV ws := by
    rw [Gang.applyPlan_zero, hv, hu, hm, hd, hfl]
    simp [Gang.writeU, Gang.writeM, Gang.orFlags]
  obtain ⟨h, hpassed, hsame⟩ := State.finish_passed hi (g.writeV ws) (congrArg Gang.slices hframe :)
    (congrArg Gang.frags hframe :)
  refine ⟨_, h, happly ▸ hstep, hpassed, (congrArg Gang.vreg hsame :), ?_⟩
  exact Gang.same_trans hsame (fun q => { q with vreg := g.vreg }) (fun _ _ _ _ _ => rfl) hframe

end

/-! ### Vector writes of one value per lane -/

/-- The writes ws give the lanes below 32 that are `on` one value r each, into one register or pair. -/
def LaneWrites (ws : List (Nat × Nat × Nat)) (wide : Bool) (n : Nat) (on : Nat → Prop) (r : Nat → Nat) : Prop :=
  ∀ w, w ∈ ws ↔ ∃ l, l < 32 ∧ on l ∧ w ∈ wLane wide n l (r l)

namespace LaneWrites
variable {ws : List (Nat × Nat × Nat)} {wide : Bool} {n : Nat} {on : Nat → Prop} {r : Nat → Nat}

theorem lane_lt (h : LaneWrites ws wide n on r) : ∀ w ∈ ws, w.2.1 < 32 := by
  intro w hw
  obtain ⟨l, hl, -, hwl⟩ := (h w).1 hw
  rw [(wLane_key wide n l _ w hwl).2.1]; exact hl

/-- An element of a lane that is on holds its half of the lane's value. -/
theorem v_writeV (h : LaneWrites ws wide n on r) (g : Gang) {k l v : Nat} (hl : l < 32) (hon : on l)
    (hv : (k, l, v) ∈ wLane wide n l (r l)) : (g.writeV ws).v k l = v % 2 ^ 32 := by
  refine Gang.v_writeV_of_mem ws g k l v hl h.lane_lt ((h _).2 ⟨l, hl, hon, hv⟩) ?_
  rintro ⟨k', l', v'⟩ hw rfl rfl
  obtain ⟨j, -, -, hwj⟩ := (h _).1 hw
  obtain ⟨-, hlane, hval⟩ := wLane_key wide n j _ _ hwj
  obtain rfl : l' = j := hlane
  exact hval.trans (wLane_key wide n l' _ _ hv).2.2.symm

/-- A lane that is on holds its value. -/
theorem vw_writeV (h : LaneWrites ws wide n on r) (g : Gang) {l : Nat} (hl : l < 32) (hon : on l) :
    (g.writeV ws).vw wide n l = r l % 2 ^ (if wide then 64 else 32) := by
  cases wide with
  | false =>
    have hv := h.v_writeV g hl hon (k := n) (v := r l % 2 ^ 32) (by simp [wLane])
    simpa [Gang.vw] using hv
  | true =>
    have hlo := h.v_writeV g hl hon (k := n) (v := r l % 2 ^ 32) (by simp [wLane])
    have hhi := h.v_writeV g hl hon (k := n + 1) (v := r l / 2 ^ 32 % 2 ^ 32) (by simp [wLane])
    simp only [Gang.vw, Gang.vp, if_true, hlo, hhi]
    exact wide_value (r l)

/-- Another register, and a lane that is not on, are as they were. -/
theorem v_writeV_other (h : LaneWrites ws wide n on r) (g : Gang) {k l : Nat} (hl : l < 32)
    (hk : k ∉ regs wide n ∨ ¬ on l) : (g.writeV ws).v k l = g.v k l := by
  refine Gang.v_writeV_of_notMem ws g k l hl h.lane_lt ?_
  rintro w hw ⟨rfl, rfl⟩
  obtain ⟨j, -, hon, hwj⟩ := (h w).1 hw
  obtain ⟨hreg, hlane, -⟩ := wLane_key wide n j _ w hwj
  exact hk.elim (fun hn => hn hreg) (fun hoff => hoff (hlane ▸ hon))

end LaneWrites

/-! ### VPUT (R295) -/

/-- Lane j is the lane that VPUT names, and it is in act, so VPUT writes it. -/
def vputLane (x : MskOp) (g : Gang) (f : Frag) (j : Nat) : Bool :=
  bit (g.act f x.m) (g.u (f.ur x.b) % 32) && j == g.u (f.ur x.b) % 32

/-- MZ zeroes lane j of a VPUT: an active lane other than the one written. -/
def vputZero (x : MskOp) (g : Gang) (f : Frag) (j : Nat) : Bool := x.m.mz && bit (g.active f) j && !vputLane x g f j

theorem vputLane_of_vputZero {x : MskOp} {g : Gang} {f : Frag} {j : Nat} (h : vputZero x g f j = true) :
    ¬ vputLane x g f j = true := by
  simp only [vputZero, Bool.and_eq_true, Bool.not_eq_true'] at h
  simp [h.2]

theorem vputLane_iff (x : MskOp) (g : Gang) (f : Frag) (j : Nat) :
    vputLane x g f j = true ↔ bit (g.act f x.m) (g.u (f.ur x.b) % 32) = true ∧ j = g.u (f.ur x.b) % 32 := by
  simp [vputLane]

/-- The writes of VPUT: the lane it names gets its value, and those that MZ zeroes get zero. -/
theorem mem_vputPlan_wV (w : Bool) (x : MskOp) (g : Gang) (f : Frag) (wr : Nat × Nat × Nat) :
    wr ∈ (vputPlan w x g f).wV ↔
      (∃ j, j < 32 ∧ vputLane x g f j = true ∧ wr ∈ wLane w (f.vr x.d) j (g.uw w (f.ur x.a)))
        ∨ (∃ j, j < 32 ∧ vputZero x g f j = true ∧ wr ∈ wLane w (f.vr x.d) j 0) := by
  refine List.mem_append.trans (or_congr ?_ ?_)
  · have hlt : g.u (f.ur x.b) % 32 < 32 := Nat.mod_lt _ (by decide)
    simp [vputLane_iff, hlt]
  · have hbit : ∀ j, bit (if bit (g.act f x.m) (g.u (f.ur x.b) % 32) then 2 ^ (g.u (f.ur x.b) % 32) else 0) j
        = vputLane x g f j := by
      intro j
      rw [Bool.eq_iff_iff, vputLane_iff, eq_comm (a := j)]
      split <;> simp [bit_two_pow, *]
    cases hmz : x.m.mz <;> simp [vputZero, hmz, hbit, and_assoc]

/-- VPUT writes one value to each lane that it names or that MZ zeroes. -/
theorem vputPlan_laneWrites (w : Bool) (x : MskOp) (g : Gang) (f : Frag) :
    LaneWrites (vputPlan w x g f).wV w (f.vr x.d) (fun j => vputLane x g f j = true ∨ vputZero x g f j = true)
      (fun j => if vputLane x g f j then g.uw w (f.ur x.a) else 0) := by
  intro wr
  rw [mem_vputPlan_wV]
  constructor
  · rintro (⟨j, hj, hon, hw⟩ | ⟨j, hj, hz, hw⟩)
    · exact ⟨j, hj, .inl hon, by simpa only [if_pos hon] using hw⟩
    · exact ⟨j, hj, .inr hz, by simpa only [if_neg (vputLane_of_vputZero hz)] using hw⟩
  · rintro ⟨j, hj, hon | hz, hw⟩
    · exact .inl ⟨j, hj, hon, by simpa only [if_pos hon] using hw⟩
    · exact .inr ⟨j, hj, hz, by simpa only [if_neg (vputLane_of_vputZero hz)] using hw⟩

/-! ### The instructions -/

/-- Settles O1: each instruction is the step of the family's plan, whose one effect is its uniform result; a zero divisor is the
plan's one cause. -/
theorem scalarIntegerResult : Obligations.ScalarIntegerResult := by
  unfold Obligations.ScalarIntegerResult
  refine ⟨?_, ?_, ?_⟩
  · intro p hp x s i g f w bs y hi hc
    have he : exec (p.1 x) s = regStep s (sPlan p.2 x) := by fin_cases hp <;> rfl
    rw [he]
    have hdivz : (p.2.divides && y == 0) = true ↔ p.2.divides = true ∧ y = 0 := by rw [Bool.and_eq_true, beq_iff_eq]
    exact ⟨fun hy => uniDone_of_plan hi hc rfl (hz := if_neg (hdivz.not.2 hy)),
      fun hd hy => regStep_cause hi hc (if_pos (hdivz.2 ⟨hd, hy⟩)) (by decide) rfl⟩
  · intro p hp x s i g f w hi hc
    have he : exec (p.1 x) s = regStep s (siPlan p.2.1 p.2.2 x) := by fin_cases hp <;> rfl
    rw [he]
    exact uniDone_of_plan hi hc rfl
  · intro p hp x s i g f hi hc
    have he : ∃ eq t, exec (p.1 x) s = regStep s (siCmpPlan eq t x)
        ∧ ∀ a, p.2 a x.imm = if eq then a == wrapN 32 x.imm else decide (tVal t a < x.imm) := by
      fin_cases hp
      · exact ⟨true, 0, rfl, fun _ => rfl⟩
      · exact ⟨false, 0, rfl, fun _ => rfl⟩
      · exact ⟨false, 1, rfl, fun _ => rfl⟩
    obtain ⟨eq, t, he, hcond⟩ := he
    rw [he, hcond]
    exact uniDone_of_plan hi hc (wUni_ite_one_zero _ _).symm

/-- Settles O2: each plan's one effect is its uniform result. -/
theorem scalarMoveAndCompareResult : Obligations.ScalarMoveAndCompareResult := by
  unfold Obligations.ScalarMoveAndCompareResult
  intro s i g f hi
  refine ⟨?scmp, ?ssel, ?smov, ?slea, ?sli, ?rdx⟩
  case scmp => exact fun x hc => uniDone_of_plan (plan := scmpPlan x) hi hc (wUni_ite_one_zero _ _).symm
  case ssel => exact fun x hc => uniDone_of_plan (plan := sselPlan x) hi hc rfl
  case smov => exact fun x hc => uniDone_of_plan (plan := smovPlan x) hi hc rfl
  case slea => exact fun x hc => uniDone_of_plan (plan := sleaPlan x) hi hc rfl
  case sli => exact fun x hc => uniDone_of_plan (plan := sliPlan x) hi hc rfl
  case rdx =>
    intro d k hc
    have he : exec (.rdx d k) s = regStep s (rdxPlan d k i.frag) := by
      change execRdx d k s = _
      simp only [execRdx, hi.issue]
    rw [he]
    exact uniDone_of_plan hi hc rfl

/-- Settles O3: each instruction is the step of the family's plan, whose one effect is a value for each lane of act. -/
theorem vectorIntegerResult : Obligations.VectorIntegerResult := by
  unfold Obligations.VectorIntegerResult
  refine ⟨⟨?vint, ?vmad⟩, ?vinti⟩
  case vint =>
    intro p hp x s i g f w bs y hi hc hy
    have he : exec (p.1 x) s = regStep s (vPlan p.2.1 p.2.2 x) := by fin_cases hp <;> rfl
    have hdiv : ¬ (p.2.1.divides && (laneList (g.act f x.m)).any (fun l => y l == 0)) = true := by
      simpa [and_assoc] using hy
    rw [he]
    exact vecDone_of_plan hi hc rfl (hz := if_neg hdiv)
  case vmad =>
    intro x s i g f w c hi hc
    exact vecDone_of_plan (plan := vmadPlan x) hi (hc.of_subset (by simp [vmadPlan, w, c]) (by simp [vmadPlan])) rfl
  case vinti =>
    intro p hp x s i g f w hi hc
    have he : exec (p.1 x) s = regStep s (viPlan p.2.1 p.2.2.1 p.2.2.2 x) := by fin_cases hp <;> rfl
    rw [he]
    exact vecDone_of_plan hi hc rfl

/-- Settles O5: the plans of the mask-writing forms and compares have one mask destination, those of the counts and votes one
uniform result. -/
theorem maskResult : Obligations.MaskResult := by
  unfold Obligations.MaskResult
  refine ⟨⟨?forms, ?mmovMs, ?mset, ?vcmp, ?vfcmp⟩, fun s i g f hi => ⟨fun x hc => ⟨?mmovSm, ?mcnt, ?mffs⟩, ?votes⟩⟩
  case forms =>
    intro p hp x s i g f hi hc
    have he : ∃ rdM, exec (p.1 x) s
        = regStep s (fun g f => mPlan x [] [] rdM g f (fun l => p.2 (bit (g.mask f x.a) l) (bit (g.mask f x.b) l))) := by
      fin_cases hp
      · exact ⟨[x.a, x.b], rfl⟩
      · exact ⟨[x.a, x.b], rfl⟩
      · exact ⟨[x.a, x.b], rfl⟩
      · exact ⟨[x.a], rfl⟩
      · exact ⟨[x.a], rfl⟩
    obtain ⟨rdM, he⟩ := he
    rw [he]
    exact maskDone_of_plan hi hc rfl rfl (fpxRaised_zero _)
  case mmovMs => exact fun x s i g f hi hc => maskDone_of_plan hi hc rfl rfl (fpxRaised_zero _)
  case mset => exact fun x s i g f hi hc => maskDone_of_plan hi hc rfl rfl (fpxRaised_zero _)
  case vcmp => exact fun x s i g f hi hc => maskDone_of_plan hi hc rfl (orAll_map_zero _) (fpxRaised_zero _)
  case vfcmp => exact fun x s i g f hi hc hx => maskDone_of_plan hi hc rfl rfl hx
  case mmovSm => exact uniDone_of_plan hi hc rfl
  case mcnt => exact uniDone_of_plan hi hc rfl
  case mffs => exact uniDone_of_plan hi hc rfl
  case votes =>
    intro p hp x q hc
    have he : exec (p.1 x) s = regStep s (fun g f => votePlan x g f p.2) := by fin_cases hp <;> rfl
    rw [he]
    exact uniDone_of_plan hi hc rfl

/-- Settles O6: each plan's one effect is a value for each lane of act, for VGET a uniform result, for VPUT the lane it names and
the lanes that MZ zeroes. -/
theorem vectorMoveResult : Obligations.VectorMoveResult := by
  unfold Obligations.VectorMoveResult
  refine ⟨⟨?vmov, ?vbcst, ?vsel, ?vlane⟩, ?vget, ?vput⟩
  case vmov =>
    intro p hp x s i g f hi hc
    have he : exec (p.1 x) s = regStep s
        (fun g f => movPlan x p.2 (regs p.2 (f.vr x.a)) [] g f (fun l => g.vw p.2 (f.vr x.a) l)) := by fin_cases hp <;> rfl
    rw [he]
    exact vecDone_of_plan hi hc rfl
  case vbcst =>
    intro p hp x s i g f hi hc
    have he : exec (p.1 x) s = regStep s
        (fun g f => movPlan x p.2 [] (regs p.2 (f.ur x.a)) g f (fun _ => g.uw p.2 (f.ur x.a))) := by fin_cases hp <;> rfl
    rw [he]
    exact vecDone_of_plan hi (hc.of_subset (by simp [movPlan]) (by simp [movPlan])) rfl
  case vsel =>
    intro p hp x s i g f hi c hc
    have he : exec (p.1 x) s = regStep s (vselPlan p.2 x) := by fin_cases hp <;> rfl
    rw [he]
    exact vecDone_of_plan hi (hc.of_subset (by simp [vselPlan, movPlan, c]) (by simp [vselPlan, movPlan])) rfl
  case vlane => exact fun x s i g f hi hc => vecDone_of_plan hi hc rfl
  case vget =>
    intro p hp x s i g f hi l hc
    have he : exec (p.1 x) s = regStep s (vgetPlan p.2 x) := by fin_cases hp <;> rfl
    rw [he]
    exact uniDone_of_plan hi hc rfl
  case vput =>
    intro p hp x s i g f hi l d zero hc
    have he : exec (p.1 x) s = regStep s (vputPlan p.2 x) := by fin_cases hp <;> rfl
    obtain ⟨t, h, ht, hpassed, hvreg, hsame⟩ := writeV_of_plan hi (plan := vputPlan p.2 x) hc rfl
    have hw := vputPlan_laneWrites p.2 x g f
    rw [he]
    refine ⟨t, h, ht, hpassed, fun hact => ?_, fun j hj hz => ?_, fun n j hj hk => ?_, hsame⟩
    · have hon : vputLane x g f l = true := (vputLane_iff x g f l).2 ⟨hact, rfl⟩
      rw [Gang.vw_eq_of_vreg_eq hvreg, hw.vw_writeV g (Nat.mod_lt _ (by decide)) (.inl hon), if_pos hon,
        Nat.mod_eq_of_lt (g.uw_lt _ _)]
    · rw [Gang.vw_eq_of_vreg_eq hvreg, hw.vw_writeV g hj (.inr hz), if_neg (vputLane_of_vputZero hz), Nat.zero_mod]
    · rw [Gang.v_eq_of_vreg_eq hvreg, hw.v_writeV_other g hj]
      exact hk.imp_right fun ⟨hz, hl⟩ => not_or.2 ⟨mt (vputLane_iff x g f j).1 hl, Bool.eq_false_iff.1 hz⟩

end Sys2Proof.Machine
end

section
/-! SUPPORT. The shuffles of R316: each is the step of one plan, with its own source lane and the one vector or uniform register
that the source lane is read from. -/

namespace Sys2Proof.Machine

/-- A shuffle whose registers are clear gives each lane of act its source lane's value, or 0 and DEADSRC where that lane is dead. -/
theorem regStep_shufPlan {s : State} {i : Issue} {g : Gang} {f : Frag} (hi : Issuing s i g f) (x : RegOp) (vecB : Bool)
    (src : Gang → Frag → Nat → Nat)
    (hc : Clear s i g (regs (isF64 x.t) (f.vr x.d) ++ regs (isF64 x.t) (f.vr x.a) ++ if vecB then [f.vr x.b] else [])
      (if vecB then [] else [f.ur x.b])) :
    ∃ t, regStep s (fun g f => shufPlan x vecB g f (src g f)) = .next t
      ∧ VecDone s t i g f x.m (isF64 x.t) (f.vr x.d)
        (fun l => if bit g.live (src g f l) then g.vw (isF64 x.t) (f.vr x.a) (src g f l) else 0) 0
        ((laneList (g.act f x.m)).any (fun l => !bit g.live (src g f l))) :=
  regStep_vec hi _ x.m _ _ _ 0 _ hc rfl (fpxRaised_zero _) rfl rfl rfl rfl rfl

/-- Settles O7: each shuffle is the step of the shuffle plan with its form's source lane, whose one effect is a value for each lane
of act.  As R316 leaves open and the model chooses, a lane of another path gives its present value. -/
theorem shuffleResult : Obligations.ShuffleResult := by
  unfold Obligations.ShuffleResult
  refine ⟨?vshf, ?uniform⟩
  case vshf => exact fun x s i g f hi hc => regStep_shufPlan hi x true (fun g f l => g.v (f.vr x.b) l % 32) hc
  case uniform =>
    intro p hp x s i g f hi w src hc
    have he : exec (p.1 x) s
        = regStep s (fun g f => shufPlan x false g f (fun l => p.2 (g.u (f.ur x.b) % 32) l)) := by fin_cases hp <;> rfl
    rw [he]
    exact regStep_shufPlan hi x false (fun g f l => p.2 (g.u (f.ur x.b) % 32) l) (hc.of_subset (by simp [w]) (by simp))

end Sys2Proof.Machine
end
